-- ==== Sys2Proof/Word.lean ====
section
/-!
DEFINITION. The word types of the block and the keyed tables its state is made of.
Numbers, units and bit ranges follow spec/00_scope.md, R9–R11; every structure is little-endian (R11).
-/

namespace Sys2Proof

/-- One byte. -/
abbrev Byte := BitVec 8
/-- A 32-bit register or field. -/
abbrev W32 := BitVec 32
/-- A 64-bit register, address or Cue register (R113). -/
abbrev Word := BitVec 64

/-- A keyed table: pairs of key and value, keys strictly rising. -/
abbrev Tbl (α : Type) := List (Nat × α)

/-- The value held for a key. -/
def Tbl.find {α : Type} : Tbl α → Nat → Option α
  | [], _ => none
  | (k, v) :: t, n => if n = k then some v else Tbl.find t n

/-- Put a value under a key, keeping the keys rising. -/
def Tbl.put {α : Type} : Tbl α → Nat → α → Tbl α
  | [], n, w => [(n, w)]
  | (k, v) :: t, n, w =>
    if n < k then (n, w) :: (k, v) :: t
    else if n = k then (n, w) :: t
    else (k, v) :: Tbl.put t n w

/-- Remove a key. -/
def Tbl.del {α : Type} : Tbl α → Nat → Tbl α
  | [], _ => []
  | (k, v) :: t, n => if n = k then t else (k, v) :: Tbl.del t n

/-- Whether every key lies above `b` and the keys rise strictly. -/
def Tbl.risingFrom {α : Type} : Nat → Tbl α → Bool
  | _, [] => true
  | b, (k, _) :: t => decide (b ≤ k) && Tbl.risingFrom (k + 1) t

/-- The canonical form of a table: keys strictly rising. -/
def Tbl.rising {α : Type} (t : Tbl α) : Bool := Tbl.risingFrom 0 t

/-- The key after every key of the table: a fresh number. -/
def Tbl.fresh {α : Type} : Tbl α → Nat
  | [] => 0
  | [(k, _)] => k + 1
  | _ :: t => Tbl.fresh t

/-- The value held for a key, or a default. -/
def Tbl.findD {α : Type} (t : Tbl α) (n : Nat) (d : α) : α := (t.find n).getD d

/-- Change the value under a key, if one is held. -/
def Tbl.upd {α : Type} (t : Tbl α) (n : Nat) (f : α → α) : Tbl α :=
  match t.find n with
  | some v => t.put n (f v)
  | none => t

/-- Change every value of the table. -/
def Tbl.mapVals {α : Type} (t : Tbl α) (f : Nat → α → α) : Tbl α :=
  t.map (fun kv => (kv.1, f kv.1 kv.2))

/-- Keep the entries that satisfy a test. -/
def Tbl.keep {α : Type} (t : Tbl α) (p : Nat → α → Bool) : Tbl α :=
  t.filter (fun kv => p kv.1 kv.2)

/-- Division rounded up. -/
def ceilDiv (a b : Nat) : Nat := if b = 0 then 0 else (a + b - 1) / b

/-- A bit as a number. -/
def b2n (b : Bool) : Nat := if b then 1 else 0

end Sys2Proof
end

