-- ==== Sys2Proof/Types.lean ====
section
/-!
DEFINITION. The operand types of the commands: what the surroundings hand to the block with a command,
and the structures the spec lays out for the block's ports. Plain data throughout.
-/

namespace Sys2Proof

/-- Class of work: latency-critical or best-effort (Table 4-1, CLASS). -/
inductive Cls where
  | lc
  | be
deriving DecidableEq, Repr

/-- The answer to an access that the block makes outside its own memory (another node, or host
memory behind a host port): data, poison, a refusal with its STATUS and REASON, an expiry (R65),
or a failed host translation (R258). -/
inductive Ext where
  | ok (bytes : List Byte)
  | poison
  | refused (status reason : Nat)
  | expired
  | atsFail
deriving DecidableEq, Repr

/-- The straps of Table 2-12, as driven when PORST_N rises. -/
structure Straps where
  mgtSrc : Nat
  mgtFp : Nat
  i3cSa : Nat
  alloyRole : Nat
  bothEnds : Bool
  testEn : Bool
deriving DecidableEq, Repr

/-- Type of the fitted stacks (R20). -/
inductive StackType where
  | hbm3e
  | hbm4
deriving DecidableEq, Repr

/-- The build parameters of R56, with the fused identity of R420. -/
structure Build where
  stks : Nat
  dies : Nat
  stackType : StackType
  stackGib : Nat
  stepping : Nat
  uid : Nat
deriving DecidableEq, Repr

/-- The path by which an access to the doorbell window or the management space arrives
(Table 18-3), and the BAR windows of Table 14-6. -/
inductive Path where
  | pfBar45 (port : Nat)
  | vfBar23 (port vf : Nat)
  | hostPf (port : Nat)
  | hostVf (port vf : Nat)
  | fil (port node : Nat)
  | i3c
deriving DecidableEq, Repr

/-- The way an access to a queue's ring, tail line or CQ entry failed (Table 4-12): a refusal or expiry of a read, or of the write of a
CQ entry. -/
inductive RingFail where
  | sqXlate
  | cqXlate
  | tailXlate
  | poison
  | refused
  | cqRefused
deriving DecidableEq, Repr

/-- A guard of a Cue instruction: G[3] is PN, G[2:0] is PG (R122). -/
structure Guard where
  pn : Bool
  pg : BitVec 3
deriving DecidableEq, Repr

/-- A member of a coherence level, as a directory or a message names it (Table 11-1). -/
inductive Who where
  | core (c : Nat)
  | gateway (k : Nat)
  | host (d : Nat)
  | node (n : Nat)
  | fabric
  | uncached (k : Nat)
deriving DecidableEq, Repr

/-- State of a line at a member (R276, R277). -/
inductive LState where
  | m
  | o
  | e
  | s
  | i
  | evicting
deriving DecidableEq, Repr

/-- The messages of Table 11-3 and Table 12-5, by their codes. -/
inductive MsgKind where
  | rdShr | rdOwn | upg | rdCur | wrFull | wrPart | cleanLine
  | snpShr | snpInv | snpCur
  | wbDirty | evictClean
  | data | snpData
  | rspI | rspS | rspEvicting | rspLost | gnt | cmp | ack | nackStake | refuse | expired
  | dead | homeReset | recallDone | rejoin
  | dbWr | dbRd | mgWr | mgRd | mgRsp | signal | spdmMsg
deriving DecidableEq, Repr

/-- A message of Table 12-3: on the rings the same fields are used (R275). `src` names the member of the exchange: the
sender of a request, notice or answer, and the member that a snoop, grant, completion or refusal is for (the ordering point
follows from the address). Over a link it is the sending node. `late` is no field of the message: it is the part of ALLOWANCE, in ns,
that this block has taken off it since it came (R65); it is zero on a link. -/
structure Msg where
  kind : MsgKind
  src : Who
  srcNode : Nat
  dst : Nat
  addr : Nat
  key : Nat
  allow : Nat
  late : Nat
  txn : Nat
  slice : Nat
  ticket : Nat
  aux : Nat
  mask : Nat
  data : List Byte
  own : Bool
  keep : Bool
  poison : Bool
  grant : Nat
  lc : Bool
deriving DecidableEq, Repr

/-- A flit of Table 12-2 as it arrives: the checks its CRC and AUTH tag gave, its message, and whether a reserved field of either is not zero. -/
structure Flit where
  ftype : Nat
  nak : Bool
  rekey : Bool
  seq : Nat
  ack : Nat
  crdClass : Nat
  crdCount : Nat
  crcOk : Bool
  authOk : Bool
  msg : Option Msg
  resv : Bool
deriving DecidableEq, Repr

/-- Identity of a party that reaches mailbox channels (R357). -/
inductive Party where
  | steward (core : Nat)
  | guest (core slice : Nat)
  | hostFn (port : Nat) (pf : Bool) (vf : Nat)
  | manager
deriving DecidableEq, Repr

/-- Where an SPDM message arrives (R367). -/
inductive SpdmPort where
  | host (d : Nat)
  | link (p : Nat)
  | peer (node : Nat)
deriving DecidableEq, Repr

/-- What a read of a stack line or row found (R261, R265). -/
inductive EccRead where
  | clean
  | corrected
  | uncorrectable
deriving DecidableEq, Repr

/-- A unit of Table 7-12 that ends: on which engine or attention unit, and what that one's memories reported in it (R198). -/
structure UnitEnd where
  unit : Nat
  found : EccRead
deriving DecidableEq, Repr

/-- What a step of a stack's training gives: TRN_STAT; the pseudo-channels, one bit each, with a lane that LREP cannot repair (R267); and
the rows with a failing line that step 5 found, each by its number in the stack (R264). -/
structure TrnStat where
  stat : BitVec 8
  lost : Nat
  failing : List Nat
deriving DecidableEq, Repr

/-- How a step of a model ended (R215). -/
inductive StepOutcome where
  | done
  | faulted (reason : Nat)
  | poisoned (members : List Nat)
deriving DecidableEq, Repr

/-- The temperatures that a 50 µs window starts with, in °C: the junctions, those of the sections first, and the stacks' own sensors, read
through WSP in the order of the stacks (R233, R263). -/
structure WindowTemps where
  junctions : List Int
  ownTemps : List Int
deriving DecidableEq, Repr

/-- The result of a Touchstone test, a start check or a signature check: passed, or the mask of
failed tests. -/
structure TestResult where
  failed : Nat
deriving DecidableEq, Repr

/-- What a message under cryptographic protection was made with: the SHA-384 digest of the root certificate of the chain that its sender
presented, the public key under which its signature is good, and whether what else protects it, a tag or a MAC, is good. -/
structure CryptoCheck where
  root : List Byte
  leaf : List Byte
  sigOk : Bool
deriving DecidableEq, Repr

/-- The algorithms that a requester offers, a mask for each category of R366. -/
structure AlgOffer where
  asym : Nat
  hash : Nat
  dhe : Nat
  aead : Nat
  sched : Nat
  spec : Nat
  measHash : Nat
deriving DecidableEq, Repr

/-- A place in the certificate slots: the slot and the offset in its chain. -/
structure CertPos where
  slot : Nat
  offset : Nat
deriving DecidableEq, Repr

end Sys2Proof
end

