-- ==== Sys2Proof/Syntax.lean ====
section
/-!
DEFINITION. The commands of the block: one constructor per row of the opcode table, in the table's order, with what
the surroundings hand over with the command.
-/

namespace Sys2Proof

/-- A command. Cue instructions name the core that executes them and their guard; events name the unit they happen at. -/
inductive Instr where
  -- Pins, ports and telemetry (chapters 02, 03, 09)
  /-- R54: PORST_N_LOW. -/
  | porstNLow
  /-- R56: PORST_N_RISE. -/
  | porstNRise (straps : Straps) (build : Build)
  /-- R54: CORE_LEAVES_RESET. -/
  | coreLeavesReset
  /-- R54: WRST_N_LOW. -/
  | wrstNLow (heldNs : Nat)
  /-- R54: EDGE_PWR_OK_FALL. -/
  | edgePwrOkFall
  /-- R54: CORE_PWR_OK_FALL. -/
  | corePwrOkFall
  /-- R54: CORE_PWR_OK_RISE. -/
  | corePwrOkRise
  /-- R35: IA_MODULE_DEGRADE. -/
  | iaModuleDegrade (die module : Nat)
  /-- R35: IA_MODULE_FAIL. -/
  | iaModuleFail (die module : Nat)
  /-- R37: ADAPTER_RETRY_EXHAUSTED. -/
  | adapterRetryExhausted (die module : Nat)
  /-- R37: IA_LINK_POWER_STATE. -/
  | iaLinkPowerState (die module : Nat)
  /-- R44: TLM_RECORD. -/
  | tlmRecord (bytes : List Byte)
  /-- R227: TLM_STALE. -/
  | tlmStale
  /-- R227: TLM_STALE_FAULT. -/
  | tlmStaleFault
  /-- R45: VID_ACK_RISE. -/
  | vidAckRise
  /-- R45: VID_ACK_FALL. -/
  | vidAckFall
  /-- R46: VID_ACK_LATE. -/
  | vidAckLate
  /-- R47: PST_CREDIT. -/
  | pstCredit (credits : Nat)
  /-- R245: PST_PERSISTED. -/
  | pstPersisted (epoch : Nat)
  /-- R245: PST_FAILED. -/
  | pstFailed (epoch : Nat)
  /-- R48: PST_EPOCH_SEND. -/
  | pstEpochSend
  /-- R49: I3C_ENTDAA. -/
  | i3cEntdaa (address : BitVec 7)
  /-- R52: TREF_LOSS. -/
  | trefLoss
  /-- R52: TREF_RESTORED. -/
  | trefRestored
  /-- R52: TREF_LOST_TIMEOUT. -/
  | trefLostTimeout
  /-- R58: BURNISH_READING. -/
  | burnishReading (values : List (List Nat))
  /-- R233: TEMPER_WINDOW. -/
  | temperWindow (temps : WindowTemps)
  -- Queues and descriptors (chapters 03, 04, 06, 08, 13, 17)
  /-- R94: SQ_TAIL_WRITE. -/
  | sqTailWrite (path : Path) (queue : Nat) (value : W32)
  /-- R95: CQ_HEAD_WRITE. -/
  | cqHeadWrite (path : Path) (queue : Nat) (value : W32)
  /-- R102: IDLE_HINT_WRITE. -/
  | idleHintWrite (path : Path) (queue : Nat) (value : W32)
  /-- R104: CANCEL_WRITE. -/
  | cancelWrite (path : Path) (queue : Nat) (value : W32)
  /-- R90: TAIL_LINE_SNOOP. -/
  | tailLineSnoop (queue : Nat) (reads : List Ext)
  /-- R97: DESCRIPTOR_FETCH. -/
  | descriptorFetch (core : Nat) (reads : List Ext)
  /-- R107: RING_ACCESS_FAILURE. -/
  | ringAccessFailure (queue : Nat) (failure : RingFail)
  /-- R71: ADMIT. -/
  | admission (queue : Nat) (reads : List Ext)
  /-- R119: RUN. -/
  | run (item : Nat)
  /-- R150: LAUNCH. -/
  | launch (item : Nat)
  /-- R84: FENCE. -/
  | fence (item : Nat)
  /-- R84: NOP. -/
  | nop (item : Nat)
  /-- R330: CREATE_SLICE. -/
  | createSlice (item : Nat) (reads : List Ext)
  /-- R335: RESIZE_SLICE. -/
  | resizeSlice (item : Nat) (reads : List Ext)
  /-- R338: FREEZE_SLICE. -/
  | freezeSlice (item : Nat)
  /-- R338: FREEZE_DRAIN_DONE. -/
  | freezeDrainDone (slice : Nat)
  /-- R339: SAVE_INGOT. -/
  | saveIngot (item : Nat) (reads : List Ext)
  /-- R342: RESTORE_INGOT. -/
  | restoreIngot (item : Nat) (reads : List Ext) (check : CryptoCheck)
  /-- R343: THAW. -/
  | thaw (item : Nat)
  /-- R345: RETIRE_SLICE. -/
  | retireSlice (item : Nat)
  /-- R345: RETIRE_KEY_ZEROISE. -/
  | retireKeyZeroise (slice : Nat)
  /-- R106: CREATE_QUEUE. -/
  | createQueue (item : Nat) (reads : List Ext)
  /-- R108: DESTROY_QUEUE. -/
  | destroyQueue (item : Nat)
  /-- R108: QUEUE_RELEASE_DONE. -/
  | queueReleaseDone (queue : Nat)
  /-- R109: RELEASE_LIMIT_EXPIRY. -/
  | releaseLimitExpiry (item : Nat)
  /-- R107: PAUSE_QUEUE. -/
  | pauseQueue (item : Nat)
  /-- R424: RESUME_QUEUE. -/
  | resumeQueue (item : Nat)
  /-- R112: QCX_ACTIVATE. -/
  | qcxActivate
  /-- R152: REGISTER_CAST. -/
  | registerCast (item : Nat) (reads : List Ext)
  /-- R153: PATCH_CAST. -/
  | patchCast (item : Nat) (reads : List Ext)
  /-- R154: CAST_VERSION_SWITCH. -/
  | castVersionSwitch
  /-- R165: REGISTER_BACKEND. -/
  | registerBackend (item : Nat) (reads : List Ext)
  /-- R206: PIN_MODEL. -/
  | pinModel (item : Nat)
  /-- R206: UNPIN_MODEL. -/
  | unpinModel (item : Nat)
  /-- R410: TOUCHSTONE. -/
  | touchstone (item : Nat)
  /-- R76: ITEM_TIMEOUT. -/
  | itemTimeout (item : Nat)
  /-- R148: RUN_LIMIT_EXPIRY. -/
  | runLimitExpiry (item : Nat)
  /-- R141: ITEM_END. -/
  | itemEnd (item : Nat)
  /-- R77: PRM_COUNT_CLR. -/
  | prmCountClr
  -- Cue instructions (chapter 05)
  /-- R123: ADD. -/
  | add (core : Nat) (guard : Guard) (rd ra rb : BitVec 5)
  /-- R123: SUB. -/
  | sub (core : Nat) (guard : Guard) (rd ra rb : BitVec 5)
  /-- R123: AND. -/
  | and (core : Nat) (guard : Guard) (rd ra rb : BitVec 5)
  /-- R123: OR. -/
  | or (core : Nat) (guard : Guard) (rd ra rb : BitVec 5)
  /-- R123: XOR. -/
  | xor (core : Nat) (guard : Guard) (rd ra rb : BitVec 5)
  /-- R123: ANDN. -/
  | andn (core : Nat) (guard : Guard) (rd ra rb : BitVec 5)
  /-- R123: SHL. -/
  | shl (core : Nat) (guard : Guard) (rd ra rb : BitVec 5)
  /-- R123: SHR. -/
  | shr (core : Nat) (guard : Guard) (rd ra rb : BitVec 5)
  /-- R123: SRA. -/
  | sra (core : Nat) (guard : Guard) (rd ra rb : BitVec 5)
  /-- R123: MUL. -/
  | mul (core : Nat) (guard : Guard) (rd ra rb : BitVec 5)
  /-- R123: MULH. -/
  | mulh (core : Nat) (guard : Guard) (rd ra rb : BitVec 5)
  /-- R123: MULHU. -/
  | mulhu (core : Nat) (guard : Guard) (rd ra rb : BitVec 5)
  /-- R123: MIN. -/
  | min (core : Nat) (guard : Guard) (rd ra rb : BitVec 5)
  /-- R123: MAX. -/
  | max (core : Nat) (guard : Guard) (rd ra rb : BitVec 5)
  /-- R123: MINU. -/
  | minu (core : Nat) (guard : Guard) (rd ra rb : BitVec 5)
  /-- R123: MAXU. -/
  | maxu (core : Nat) (guard : Guard) (rd ra rb : BitVec 5)
  /-- R123: SEXT_B. -/
  | sextB (core : Nat) (guard : Guard) (rd ra : BitVec 5)
  /-- R123: SEXT_H. -/
  | sextH (core : Nat) (guard : Guard) (rd ra : BitVec 5)
  /-- R123: SEXT_W. -/
  | sextW (core : Nat) (guard : Guard) (rd ra : BitVec 5)
  /-- R123: POPC. -/
  | popc (core : Nat) (guard : Guard) (rd ra : BitVec 5)
  /-- R123: CLZ. -/
  | clz (core : Nat) (guard : Guard) (rd ra : BitVec 5)
  /-- R123: ADDI. -/
  | addi (core : Nat) (guard : Guard) (rd ra : BitVec 5) (imm : BitVec 12)
  /-- R123: ANDI. -/
  | andi (core : Nat) (guard : Guard) (rd ra : BitVec 5) (imm : BitVec 12)
  /-- R123: ORI. -/
  | ori (core : Nat) (guard : Guard) (rd ra : BitVec 5) (imm : BitVec 12)
  /-- R123: XORI. -/
  | xori (core : Nat) (guard : Guard) (rd ra : BitVec 5) (imm : BitVec 12)
  /-- R123: SHLI. -/
  | shli (core : Nat) (guard : Guard) (rd ra : BitVec 5) (sh : BitVec 6)
  /-- R123: SHRI. -/
  | shri (core : Nat) (guard : Guard) (rd ra : BitVec 5) (sh : BitVec 6)
  /-- R123: SRAI. -/
  | srai (core : Nat) (guard : Guard) (rd ra : BitVec 5) (sh : BitVec 6)
  /-- R123: LUI. -/
  | lui (core : Nat) (guard : Guard) (rd : BitVec 5) (imm : BitVec 17)
  /-- R123: CMP_EQ. -/
  | cmpEq (core : Nat) (guard : Guard) (pd : BitVec 3) (ra rb : BitVec 5)
  /-- R123: CMP_NE. -/
  | cmpNe (core : Nat) (guard : Guard) (pd : BitVec 3) (ra rb : BitVec 5)
  /-- R123: CMP_LT. -/
  | cmpLt (core : Nat) (guard : Guard) (pd : BitVec 3) (ra rb : BitVec 5)
  /-- R123: CMP_LTU. -/
  | cmpLtu (core : Nat) (guard : Guard) (pd : BitVec 3) (ra rb : BitVec 5)
  /-- R123: CMP_GE. -/
  | cmpGe (core : Nat) (guard : Guard) (pd : BitVec 3) (ra rb : BitVec 5)
  /-- R123: CMP_GEU. -/
  | cmpGeu (core : Nat) (guard : Guard) (pd : BitVec 3) (ra rb : BitVec 5)
  /-- R123: CMPI_EQ. -/
  | cmpiEq (core : Nat) (guard : Guard) (pd : BitVec 3) (ra : BitVec 5) (imm : BitVec 12)
  /-- R123: CMPI_NE. -/
  | cmpiNe (core : Nat) (guard : Guard) (pd : BitVec 3) (ra : BitVec 5) (imm : BitVec 12)
  /-- R123: CMPI_LT. -/
  | cmpiLt (core : Nat) (guard : Guard) (pd : BitVec 3) (ra : BitVec 5) (imm : BitVec 12)
  /-- R123: CMPI_LTU. -/
  | cmpiLtu (core : Nat) (guard : Guard) (pd : BitVec 3) (ra : BitVec 5) (imm : BitVec 12)
  /-- R123: PSET_AND. -/
  | psetAnd (core : Nat) (guard : Guard) (pd pa pb : BitVec 3)
  /-- R123: PSET_OR. -/
  | psetOr (core : Nat) (guard : Guard) (pd pa pb : BitVec 3)
  /-- R123: PSET_XOR. -/
  | psetXor (core : Nat) (guard : Guard) (pd pa pb : BitVec 3)
  /-- R123: PSET_ANDN. -/
  | psetAndn (core : Nat) (guard : Guard) (pd pa pb : BitVec 3)
  /-- R123: BR. -/
  | br (core : Nat) (guard : Guard) (imm : BitVec 22)
  /-- R123: CALL. -/
  | call (core : Nat) (guard : Guard) (imm : BitVec 22)
  /-- R123: JR. -/
  | jr (core : Nat) (guard : Guard) (rd ra : BitVec 5)
  /-- R133: LD_B. -/
  | ldB (core : Nat) (guard : Guard) (rd ra : BitVec 5) (imm : BitVec 12) (answer : Ext)
  /-- R133: LD_H. -/
  | ldH (core : Nat) (guard : Guard) (rd ra : BitVec 5) (imm : BitVec 12) (answer : Ext)
  /-- R133: LD_W. -/
  | ldW (core : Nat) (guard : Guard) (rd ra : BitVec 5) (imm : BitVec 12) (answer : Ext)
  /-- R133: LD_D. -/
  | ldD (core : Nat) (guard : Guard) (rd ra : BitVec 5) (imm : BitVec 12) (answer : Ext)
  /-- R116: LDL_B. -/
  | ldlB (core : Nat) (guard : Guard) (rd ra : BitVec 5) (imm : BitVec 12)
  /-- R116: LDL_H. -/
  | ldlH (core : Nat) (guard : Guard) (rd ra : BitVec 5) (imm : BitVec 12)
  /-- R116: LDL_W. -/
  | ldlW (core : Nat) (guard : Guard) (rd ra : BitVec 5) (imm : BitVec 12)
  /-- R116: LDL_D. -/
  | ldlD (core : Nat) (guard : Guard) (rd ra : BitVec 5) (imm : BitVec 12)
  /-- R133: ST_B. -/
  | stB (core : Nat) (guard : Guard) (rs ra : BitVec 5) (imm : BitVec 12) (answer : Ext)
  /-- R133: ST_H. -/
  | stH (core : Nat) (guard : Guard) (rs ra : BitVec 5) (imm : BitVec 12) (answer : Ext)
  /-- R133: ST_W. -/
  | stW (core : Nat) (guard : Guard) (rs ra : BitVec 5) (imm : BitVec 12) (answer : Ext)
  /-- R133: ST_D. -/
  | stD (core : Nat) (guard : Guard) (rs ra : BitVec 5) (imm : BitVec 12) (answer : Ext)
  /-- R116: STL_B. -/
  | stlB (core : Nat) (guard : Guard) (rs ra : BitVec 5) (imm : BitVec 12)
  /-- R116: STL_H. -/
  | stlH (core : Nat) (guard : Guard) (rs ra : BitVec 5) (imm : BitVec 12)
  /-- R116: STL_W. -/
  | stlW (core : Nat) (guard : Guard) (rs ra : BitVec 5) (imm : BitVec 12)
  /-- R116: STL_D. -/
  | stlD (core : Nat) (guard : Guard) (rs ra : BitVec 5) (imm : BitVec 12)
  /-- R137: AMO_ADD. -/
  | amoAdd (core : Nat) (guard : Guard) (rd ra rb : BitVec 5) (aq rl d : Bool) (answer : Ext)
  /-- R137: AMO_SWAP. -/
  | amoSwap (core : Nat) (guard : Guard) (rd ra rb : BitVec 5) (aq rl d : Bool) (answer : Ext)
  /-- R137: AMO_CAS. -/
  | amoCas (core : Nat) (guard : Guard) (rd ra rb : BitVec 5) (aq rl d : Bool) (answer : Ext)
  /-- R137: AMO_MIN. -/
  | amoMin (core : Nat) (guard : Guard) (rd ra rb : BitVec 5) (aq rl d : Bool) (answer : Ext)
  /-- R137: AMO_MAX. -/
  | amoMax (core : Nat) (guard : Guard) (rd ra rb : BitVec 5) (aq rl d : Bool) (answer : Ext)
  /-- R137: AMO_MINU. -/
  | amoMinu (core : Nat) (guard : Guard) (rd ra rb : BitVec 5) (aq rl d : Bool) (answer : Ext)
  /-- R137: AMO_MAXU. -/
  | amoMaxu (core : Nat) (guard : Guard) (rd ra rb : BitVec 5) (aq rl d : Bool) (answer : Ext)
  /-- R135: CUE_FENCE. -/
  | cueFence (core : Nat) (guard : Guard) (mask : BitVec 5)
  /-- R114: CWR. -/
  | cwr (core : Nat) (guard : Guard) (rd : BitVec 5) (cw : BitVec 8)
  /-- R114: CWW. -/
  | cww (core : Nat) (guard : Guard) (cw : BitVec 8) (ra : BitVec 5)
  /-- R126: WAITE. -/
  | waite (core : Nat) (guard : Guard) (rd : BitVec 5) (any : Bool) (mask : BitVec 16)
  /-- R128: YIELD. -/
  | yield (core : Nat) (guard : Guard)
  /-- R129: BUDGET. -/
  | budget (core : Nat) (guard : Guard) (rd ra : BitVec 5)
  /-- R130: SIGNAL_CORE. -/
  | signalCore (core : Nat) (guard : Guard) (ra : BitVec 5) (src : BitVec 7)
  /-- R130: SIGNAL_QUEUE. -/
  | signalQueue (core : Nat) (guard : Guard)
  /-- R127: ENQ. -/
  | enq (core : Nat) (guard : Guard) (rd ra : BitVec 5) (qid : BitVec 14)
  /-- R125: TISSUE. -/
  | tissue (core : Nat) (guard : Guard) (hd : BitVec 4) (ra : BitVec 5) (te : BitVec 6)
  /-- R125: MISSUE. -/
  | missue (core : Nat) (guard : Guard) (hd : BitVec 4) (ra rb rc : BitVec 5) (srcWin dstWin : Bool) (me : BitVec 6) (zero : Bool)
  /-- R131: DONE. -/
  | done (core : Nat) (guard : Guard) (ra : BitVec 5)
  /-- R143: END. -/
  | endSrc (core : Nat) (guard : Guard) (src : BitVec 7)
  /-- R139: TRAP. -/
  | trap (core : Nat) (guard : Guard) (code : BitVec 16)
  /-- R132: MBX_SEND. -/
  | mbxSend (core : Nat) (guard : Guard) (rd ra rb : BitVec 5) (n : BitVec 3)
  /-- R132: MBX_RECV. -/
  | mbxRecv (core : Nat) (guard : Guard) (rd ra rb : BitVec 5)
  /-- R118: ERET. -/
  | eret (core : Nat) (guard : Guard)
  -- Cue-core events and debug (chapter 05)
  /-- R351: INTERRUPT_ENTRY. -/
  | interruptEntry (core : Nat)
  /-- R128: STRETCH_EXPIRY. -/
  | stretchExpiry (core : Nat)
  /-- R146: CUE_HALT_REQ. -/
  | cueHaltReq (core : Nat)
  /-- R146: CUE_HALTED. -/
  | cueHalted (core : Nat)
  /-- R146: CUE_STEP. -/
  | cueStep (core : Nat) (answer : Ext)
  /-- R146: CUE_RESUME. -/
  | cueResume (core : Nat)
  /-- R146: CUE_BREAKPOINT. -/
  | cueBreakpoint (core : Nat)
  /-- R146: CUE_DBG_DATA_WRITE. -/
  | cueDbgDataWrite (core : Nat) (value : Word)
  /-- R146: CUE_CLR. -/
  | cueClr (core : Nat)
  -- Casts and backends (chapter 06)
  /-- R150: CAST_NODE_START. -/
  | castNodeStart (item : Nat) (reads : List Ext)
  /-- R167: NOTIFY_LINE_WRITE; `launch` is the item in whose context from-native runs, where several have operations open. -/
  | notifyLineWrite (backend : Nat) (launch : Option Nat)
  /-- R168: BACKEND_WBOUND_EXPIRY. -/
  | backendWboundExpiry (backend token : Nat)
  -- Tensor and attention operations (chapter 07)
  /-- R182: TOD_MATMUL. -/
  | todMatmul (op : Nat)
  /-- R186: TOD_VECTOR_ADD. -/
  | todVectorAdd (op : Nat)
  /-- R186: TOD_VECTOR_MUL. -/
  | todVectorMul (op : Nat)
  /-- R186: TOD_VECTOR_MAX. -/
  | todVectorMax (op : Nat)
  /-- R186: TOD_VECTOR_MIN. -/
  | todVectorMin (op : Nat)
  /-- R186: TOD_VECTOR_FMA. -/
  | todVectorFma (op : Nat)
  /-- R186: TOD_VECTOR_EXP. -/
  | todVectorExp (op : Nat)
  /-- R186: TOD_VECTOR_SILU. -/
  | todVectorSilu (op : Nat)
  /-- R186: TOD_VECTOR_GELU. -/
  | todVectorGelu (op : Nat)
  /-- R186: TOD_VECTOR_RSQRT. -/
  | todVectorRsqrt (op : Nat)
  /-- R186: TOD_VECTOR_CONVERT. -/
  | todVectorConvert (op : Nat)
  /-- R186: TOD_REDUCE_SUM. -/
  | todReduceSum (op : Nat)
  /-- R186: TOD_REDUCE_MAX. -/
  | todReduceMax (op : Nat)
  /-- R186: TOD_REDUCE_SUMSQ. -/
  | todReduceSumsq (op : Nat)
  /-- R186: TOD_NORM_RMS. -/
  | todNormRms (op : Nat)
  /-- R186: TOD_NORM_LAYER. -/
  | todNormLayer (op : Nat)
  /-- R179: TOD_CB_LOAD. -/
  | todCbLoad (op : Nat)
  /-- R191: TOD_ATTEND. -/
  | todAttend (op : Nat)
  /-- R194: ENGINE_UNIT_END. -/
  | engineUnitEnd (unit : UnitEnd)
  /-- R185: ENGINE_OP_COMPLETE. -/
  | engineOpComplete (op : Nat)
  /-- R194: ENGINE_HANG_EXPIRY. -/
  | engineHangExpiry (unit : Nat)
  /-- R383: MOVE_HANG_EXPIRY. -/
  | moveHangExpiry (engine : Nat)
  /-- R125: MOVE_OP_COMPLETE. -/
  | moveOpComplete (op : Nat) (answer : Ext)
  /-- R425: ENGINE_REMOTE_REFUSAL. -/
  | engineRemoteRefusal (op : Nat) (answer : Ext)
  /-- R200: TEN_CLR. -/
  | tenClr
  -- Serving (chapter 08)
  /-- R205: MODEL_LOAD_START. -/
  | modelLoadStart
  /-- R203: MODEL_LOAD_COMPLETE. -/
  | modelLoadComplete
  /-- R205: MODEL_LOAD_POISON. -/
  | modelLoadPoison (page : Nat)
  /-- R213: STEP_START. -/
  | stepStart (model : Nat)
  /-- R215: STEP_END. -/
  | stepEnd (model : Nat) (outcome : StepOutcome)
  /-- R225: SRV_ACCT_CLR. -/
  | srvAcctClr (all : Bool) (slice : Nat)
  /-- R226: SRV_MDL_VALID_WRITE. -/
  | srvMdlValidWrite (model : Nat) (value : W32)
  -- Memory (chapters 09, 10)
  /-- R241: TMP_DUR_ENABLE. -/
  | tmpDurEnable (region : Nat)
  /-- R241: MEM_HDM_ENABLE. -/
  | memHdmEnable (die : Nat)
  /-- R251: MEM_MAP_LOCK. -/
  | memMapLock
  /-- R257: TLB_INVALIDATE. -/
  | tlbInvalidate
  /-- R257: TLB_INVALIDATE_DONE. -/
  | tlbInvalidateDone
  /-- R258: ATS_INVALIDATION. -/
  | atsInvalidation (port vf : Nat) (page pages : Nat)
  /-- R262: PATROL_SCRUB. -/
  | patrolScrub (offset : Nat) (found : EccRead)
  /-- R264: TRN_DONE. -/
  | trnDone (stack : Nat) (ok : Bool) (stat : TrnStat)
  /-- R264: STACK_TRAIN_TIMEOUT. -/
  | stackTrainTimeout (stack : Nat)
  /-- R265: SPARE_MOVE_COMPLETE. -/
  | spareMoveComplete (stack row : Nat)
  -- Coherence messages and events (chapter 11)
  /-- R278: RD_SHR. -/
  | rdShr (m : Msg)
  /-- R278: RD_OWN. -/
  | rdOwn (m : Msg)
  /-- R278: UPG. -/
  | upgMsg (m : Msg)
  /-- R278: RD_CUR. -/
  | rdCur (m : Msg)
  /-- R278: WR_FULL. -/
  | wrFull (m : Msg)
  /-- R278: WR_PART. -/
  | wrPart (m : Msg)
  /-- R278: CLEAN_LINE. -/
  | cleanLine (m : Msg)
  /-- R277: SNP_SHR. -/
  | snpShr (m : Msg)
  /-- R277: SNP_INV. -/
  | snpInv (m : Msg)
  /-- R277: SNP_CUR. -/
  | snpCur (m : Msg)
  /-- R278: WB_DIRTY. -/
  | wbDirty (m : Msg)
  /-- R278: EVICT_CLEAN. -/
  | evictClean (m : Msg)
  /-- R278: DATA. -/
  | dataMsg (m : Msg)
  /-- R278: SNP_DATA. -/
  | snpData (m : Msg)
  /-- R278: RSP_I. -/
  | rspI (m : Msg)
  /-- R278: RSP_S. -/
  | rspS (m : Msg)
  /-- R289: RSP_EVICTING. -/
  | rspEvicting (m : Msg)
  /-- R294: RSP_LOST. -/
  | rspLost (m : Msg)
  /-- R278: GNT. -/
  | gntMsg (m : Msg)
  /-- R281: CMP. -/
  | cmpMsg (m : Msg)
  /-- R280: ACK. -/
  | ackMsg (m : Msg)
  /-- R283: NACK_STAKE. -/
  | nackStake (m : Msg)
  /-- R284: STAKE_RETRY. -/
  | stakeRetry (line : Nat)
  /-- R284: STAKE_LAPSE. -/
  | stakeLapse (home ticket : Nat)
  /-- R275: REFUSE. -/
  | refuse (m : Msg)
  /-- R65: EXPIRED. -/
  | expired (m : Msg)
  /-- R294: DEAD. -/
  | dead (m : Msg)
  /-- R297: HOME_RESET. -/
  | homeReset (m : Msg)
  /-- R297: RECALL_DONE. -/
  | recallDone (m : Msg)
  /-- R295: REJOIN. -/
  | rejoin (m : Msg)
  /-- R282: SNOOP_TIMEOUT. -/
  | snoopTimeout (txn : Nat)
  /-- R277: LINE_EVICTION. -/
  | lineEviction (holder : Who) (line : Nat)
  /-- R293: HOST_LINK_DOWN. -/
  | hostLinkDown (port : Nat)
  /-- R293: COH_DEAD_WRITE. -/
  | cohDeadWrite (value : W32)
  /-- R297: RECALL_WINDOW_CLOSE. -/
  | recallWindowClose
  /-- R296: EDGE_CORE_ANSWER. -/
  | edgeCoreAnswer (m : Msg)
  -- Filigree (chapter 12)
  /-- R308: FLIT_MSG. -/
  | flitMsg (port : Nat) (flit : Flit)
  /-- R304: FLIT_IDLE. -/
  | flitIdle (port : Nat) (flit : Flit)
  /-- R310: FLIT_TRAIN. -/
  | flitTrain (port : Nat) (flit : Flit)
  /-- R308: LINK_ACK_TIMER. -/
  | linkAckTimer (port : Nat)
  /-- R317: EGRESS_FLIT_SEND. -/
  | egressFlitSend (port : Nat)
  /-- R314: DB_WR. -/
  | dbWr (port : Nat) (m : Msg)
  /-- R314: DB_RD. -/
  | dbRd (port : Nat) (m : Msg)
  /-- R314: MG_WR. -/
  | mgWr (port : Nat) (m : Msg)
  /-- R314: MG_RD. -/
  | mgRd (port : Nat) (m : Msg)
  /-- R306: MG_RSP. -/
  | mgRsp (port : Nat) (m : Msg)
  /-- R354: FIL_SIGNAL. -/
  | filSignal (port : Nat) (m : Msg)
  /-- R367: SPDM_MSG. -/
  | spdmMsg (port : Nat) (m : Msg)
  /-- R311: PORT_ENABLE. -/
  | portEnable (port : Nat)
  /-- R311: PORT_DISABLE. -/
  | portDisable (port : Nat)
  /-- R311: PORT_FENCE. -/
  | portFence (port : Nat) (cause : Nat)
  /-- R311: PORT_TRAINING_DONE. -/
  | portTrainingDone (port : Nat) (trips : List Nat) (major minor partner : Nat)
  /-- R311: PORT_TRAINING_FAIL. -/
  | portTrainingFail (port : Nat)
  /-- R311: PORT_TRAINING_RETRY. -/
  | portTrainingRetry (port : Nat)
  /-- R309: PORT_REKEY. -/
  | portRekey (port : Nat)
  /-- R301: FIL_NODE_LOCK. -/
  | filNodeLock
  /-- R326: FIL_SLC_METER_WRITE. -/
  | filSlcMeterWrite (slice register : Nat) (value : W32)
  /-- R324: FAULT_INJECT. -/
  | faultInject
  -- Slices, keys and migration (chapter 13)
  /-- R337: SLC_RESET. -/
  | slcReset (slice : Nat)
  /-- R337: FUNCTION_LEVEL_RESET. -/
  | functionLevelReset (port vf : Nat)
  /-- R337: SLICE_RESET_DONE. -/
  | sliceResetDone (slice : Nat)
  /-- R331: KEY_QUARANTINE_EXPIRY. -/
  | keyQuarantineExpiry (slot : Nat)
  /-- R348: SCRUB_COMPLETE. -/
  | scrubComplete (slice : Nat)
  /-- R340: DIRTY_LOG_ENABLE. -/
  | dirtyLogEnable
  /-- R340: DIRTY_LOG_WALK_DONE. -/
  | dirtyLogWalkDone
  /-- R341: PAGE_MOVER_GO. -/
  | pageMoverGo
  /-- R341: PAGE_MOVER_DONE. -/
  | pageMoverDone (answer : Ext)
  -- Interrupts and mailboxes (chapter 14)
  /-- R350: CIC_SET. -/
  | cicSet (core word : Nat) (value : W32)
  /-- R351: CIC_PEND_CLEAR. -/
  | cicPendClear (core word : Nat) (value : W32)
  /-- R355: MODERATOR_TIMER_EXPIRY. -/
  | moderatorTimerExpiry (queue : Nat)
  /-- R355: MSIX_UNMASK. -/
  | msixUnmask (port : Nat) (pf : Bool) (vf entry : Nat)
  /-- R354: CIC_MCAUSE_CLEAR. -/
  | cicMcauseClear (value : W32)
  /-- R357: MBX_TX_LEN. -/
  | mbxTxLen (party : Party) (channel : Nat) (value : W32)
  /-- R357: MBX_RX_LAST_READ. -/
  | mbxRxLastRead (party : Party) (channel : Nat)
  /-- R356: MBX_LOCK. -/
  | mbxLock
  /-- R360: MBX_DOMAIN_RETURN. -/
  | mbxDomainReturn (channel : Nat)
  -- SPDM, IDE, TDISP and pairings (chapter 15)
  /-- R365: GET_VERSION. -/
  | getVersion (port : SpdmPort)
  /-- R365: GET_CAPABILITIES. -/
  | getCapabilities (port : SpdmPort)
  /-- R366: NEGOTIATE_ALGORITHMS. -/
  | negotiateAlgorithms (port : SpdmPort) (offered : AlgOffer)
  /-- R365: GET_DIGESTS. -/
  | getDigests (port : SpdmPort)
  /-- R363: GET_CERTIFICATE. -/
  | getCertificate (port : SpdmPort) (at_ : CertPos) (length : Nat)
  /-- R365: CHALLENGE. -/
  | challenge (port : SpdmPort) (nonce : List Byte)
  /-- R369: GET_MEASUREMENTS. -/
  | getMeasurements (port : SpdmPort) (nonce : List Byte)
  /-- R368: KEY_EXCHANGE. -/
  | keyExchange (port : SpdmPort) (check : CryptoCheck) (partner : Nat)
  /-- R371: FINISH. -/
  | finish (port : SpdmPort) (session : Nat) (check : CryptoCheck)
  /-- R365: KEY_UPDATE. -/
  | keyUpdate (port : SpdmPort) (session : Nat)
  /-- R365: HEARTBEAT. -/
  | heartbeat (port : SpdmPort) (session : Nat)
  /-- R368: HEARTBEAT_LAPSE. -/
  | heartbeatLapse (session : Nat)
  /-- R368: END_SESSION. -/
  | endSession (port : SpdmPort) (session : Nat)
  /-- R365: CHUNK_SEND. -/
  | chunkSend (port : SpdmPort) (index : Nat) (last : Bool) (bytes : List Byte)
  /-- R365: CHUNK_GET. -/
  | chunkGet (port : SpdmPort) (index : Nat)
  /-- R365: SPDM_UNSUPPORTED. -/
  | spdmUnsupported (port : SpdmPort) (code : Nat)
  /-- R373: IDE_KM_QUERY. -/
  | ideKmQuery (port : Nat)
  /-- R373: IDE_KM_KEY_PROG. -/
  | ideKmKeyProg (port stream keySet : Nat)
  /-- R373: IDE_KM_K_SET_GO. -/
  | ideKmKSetGo (port stream keySet : Nat)
  /-- R373: IDE_KM_K_SET_STOP. -/
  | ideKmKSetStop (port stream keySet : Nat)
  /-- R374: GET_TDISP_VERSION. -/
  | getTdispVersion (port vf : Nat)
  /-- R374: GET_TDISP_CAPABILITIES. -/
  | getTdispCapabilities (port vf : Nat)
  /-- R374: LOCK_INTERFACE_REQUEST. -/
  | lockInterfaceRequest (port vf : Nat)
  /-- R374: GET_DEVICE_INTERFACE_REPORT. -/
  | getDeviceInterfaceReport (port vf : Nat)
  /-- R374: GET_DEVICE_INTERFACE_STATE. -/
  | getDeviceInterfaceState (port vf : Nat)
  /-- R374: START_INTERFACE_REQUEST. -/
  | startInterfaceRequest (port vf : Nat)
  /-- R374: STOP_INTERFACE_REQUEST. -/
  | stopInterfaceRequest (port vf : Nat)
  /-- R371: LINK_SESSION_START. -/
  | linkSessionStart
  /-- R372: MIGRATION_PAIRING_START. -/
  | migrationPairingStart (pairing : Nat)
  /-- R380: SEC_CFG_LOCK. -/
  | secCfgLock
  -- Resets and recovery (chapter 16)
  /-- R386: TE_RESET. -/
  | teReset (unit : Nat)
  /-- R386: CUE_RESET. -/
  | cueReset (core : Nat)
  /-- R386: MOVE_RESET. -/
  | moveReset (engine : Nat)
  /-- R386: UNIT_RESET_DONE. -/
  | unitResetDone (unit : Nat) (check : TestResult)
  /-- R387: UNIT_RESET_TIMEOUT. -/
  | unitResetTimeout (unit : Nat)
  /-- R384: SECTION_RESET. -/
  | sectionReset (sec : Nat)
  /-- R388: SECTION_RESET_TIMEOUT. -/
  | sectionResetTimeout (sec : Nat)
  /-- R393: WARM_RESET_TRIGGER. -/
  | warmResetTrigger (cause : Nat)
  /-- R393: BLK_CTRL_WARM. -/
  | blkCtrlWarm
  /-- R393: BLK_CTRL_FENCE. -/
  | blkCtrlFence
  /-- R392: BLK_CTRL_READMIT. -/
  | blkCtrlReadmit
  /-- R399: DUMP_UNIT_TIMEOUT. -/
  | dumpUnitTimeout
  /-- R399: DUMP_TIMEOUT. -/
  | dumpTimeout
  /-- R396: RECOVERY_SCRUB. -/
  | recoveryScrub (slice : Nat)
  -- Start-up and Touchstone (chapter 17)
  /-- R402: START_STAGE_BEGIN. -/
  | startStageBegin (stage : Nat)
  /-- R402: START_STAGE_COMPLETE. -/
  | startStageComplete (stage : Nat)
  /-- R403: START_STAGE_FAIL. -/
  | startStageFail (stage code : Nat)
  /-- R403: START_STAGE_RETRY. -/
  | startStageRetry (stage : Nat)
  /-- R405: IMAGE_GO. -/
  | imageGo
  /-- R405: IMAGE_DATA_PUSH. -/
  | imageDataPush (value : Word)
  /-- R404: IMAGE_FETCH_COMPLETE. -/
  | imageFetchComplete (image : Ext) (signatureOk : Bool)
  /-- R411: TOUCHSTONE_BORROW. -/
  | touchstoneBorrow (item unit : Nat)
  /-- R409: TOUCHSTONE_TEST_DONE. -/
  | touchstoneTestDone (item unit : Nat) (check : TestResult)
  /-- R411: TOUCHSTONE_DEADLINE. -/
  | touchstoneDeadline (item : Nat)
  -- Management accesses and later events (chapters 02, 11, 16, 18)
  /-- R415: REGISTER_WRITE. -/
  | registerWrite (path : Path) (offset size : Nat) (value : Word)
  /-- R416: SPLIT_WRITE_HIGH. -/
  | splitWriteHigh (path : Path) (offset : Nat) (value : W32)
  /-- R402: IA_MODULE_TRAINED. -/
  | iaModuleTrained (die module : Nat) (half : Bool)
  /-- R295: HOST_LINK_UP. -/
  | hostLinkUp (port : Nat)
  /-- R384: SECTION_RESET_DONE. -/
  | sectionResetDone (sec : Nat)
  /-- R295: DIRECTORY_WALK_DONE. -/
  | directoryWalkDone (home : Nat)
  /-- R65: HOP_ALLOWANCE_EXPIRY. -/
  | hopAllowanceExpiry (port : Option Nat) (m : Msg)
deriving DecidableEq, Repr

end Sys2Proof
end

