-- ==== Sys2Proof/Decode.lean ====
section
/-!
DEFINITION. Words and commands. The opcode table gives none of its 343 rows any bits (a block takes commands, not words), so no
word of the table spells one. The Cue instructions among the commands have the words of Tables 5-6 to 5-9a: their encoder
stands here; the reader of those words is `Machine.cueOf`, which a debug step uses.
-/

namespace Sys2Proof

/-- The command that `nbits` bits with value `w` spell by the opcode table: none, since no row gives bits. -/
def decodeTableWord (_nbits _w : Nat) : Option Instr := none

/-! ### Words of the Cue instructions (Tables 5-6 to 5-9a) -/

/-- A guard's four bits: PN above PG (R122). -/
def Guard.code (g : Guard) : Nat := 8 * b2n g.pn + g.pg.toNat

/-- Form R: guard, OP, RD, RA, RB, FN. -/
def formR (g : Guard) (op rd ra rb fn : Nat) : Nat := 2 ^ 28 * g.code + 2 ^ 22 * op + 2 ^ 17 * rd + 2 ^ 12 * ra + 2 ^ 7 * rb + fn

/-- Form I: guard, OP, RD, RA and the bits below them. -/
def formI (g : Guard) (op rd ra low : Nat) : Nat := 2 ^ 28 * g.code + 2 ^ 22 * op + 2 ^ 17 * rd + 2 ^ 12 * ra + low

/-- Form B: guard, OP and 22 bits. -/
def formB (g : Guard) (op low : Nat) : Nat := 2 ^ 28 * g.code + 2 ^ 22 * op + low

/-- The core, the two words (the second zero in a short form) and the answer from outside of a Cue instruction; none for a
command that is no Cue instruction. -/
def cueWords : Instr → Option (Nat × Nat × Nat × Ext)
  | .add core guard rd ra rb => some (core, formR guard 0x00 rd.toNat ra.toNat rb.toNat 0x00, 0, .expired)
  | .sub core guard rd ra rb => some (core, formR guard 0x00 rd.toNat ra.toNat rb.toNat 0x01, 0, .expired)
  | .and core guard rd ra rb => some (core, formR guard 0x00 rd.toNat ra.toNat rb.toNat 0x02, 0, .expired)
  | .or core guard rd ra rb => some (core, formR guard 0x00 rd.toNat ra.toNat rb.toNat 0x03, 0, .expired)
  | .xor core guard rd ra rb => some (core, formR guard 0x00 rd.toNat ra.toNat rb.toNat 0x04, 0, .expired)
  | .andn core guard rd ra rb => some (core, formR guard 0x00 rd.toNat ra.toNat rb.toNat 0x05, 0, .expired)
  | .shl core guard rd ra rb => some (core, formR guard 0x00 rd.toNat ra.toNat rb.toNat 0x08, 0, .expired)
  | .shr core guard rd ra rb => some (core, formR guard 0x00 rd.toNat ra.toNat rb.toNat 0x09, 0, .expired)
  | .sra core guard rd ra rb => some (core, formR guard 0x00 rd.toNat ra.toNat rb.toNat 0x0a, 0, .expired)
  | .mul core guard rd ra rb => some (core, formR guard 0x00 rd.toNat ra.toNat rb.toNat 0x10, 0, .expired)
  | .mulh core guard rd ra rb => some (core, formR guard 0x00 rd.toNat ra.toNat rb.toNat 0x11, 0, .expired)
  | .mulhu core guard rd ra rb => some (core, formR guard 0x00 rd.toNat ra.toNat rb.toNat 0x12, 0, .expired)
  | .min core guard rd ra rb => some (core, formR guard 0x00 rd.toNat ra.toNat rb.toNat 0x18, 0, .expired)
  | .max core guard rd ra rb => some (core, formR guard 0x00 rd.toNat ra.toNat rb.toNat 0x19, 0, .expired)
  | .minu core guard rd ra rb => some (core, formR guard 0x00 rd.toNat ra.toNat rb.toNat 0x1a, 0, .expired)
  | .maxu core guard rd ra rb => some (core, formR guard 0x00 rd.toNat ra.toNat rb.toNat 0x1b, 0, .expired)
  | .sextB core guard rd ra => some (core, formR guard 0x00 rd.toNat ra.toNat 0 0x20, 0, .expired)
  | .sextH core guard rd ra => some (core, formR guard 0x00 rd.toNat ra.toNat 0 0x21, 0, .expired)
  | .sextW core guard rd ra => some (core, formR guard 0x00 rd.toNat ra.toNat 0 0x22, 0, .expired)
  | .popc core guard rd ra => some (core, formR guard 0x00 rd.toNat ra.toNat 0 0x30, 0, .expired)
  | .clz core guard rd ra => some (core, formR guard 0x00 rd.toNat ra.toNat 0 0x31, 0, .expired)
  | .addi core guard rd ra imm => some (core, formI guard 0x01 rd.toNat ra.toNat imm.toNat, 0, .expired)
  | .andi core guard rd ra imm => some (core, formI guard 0x02 rd.toNat ra.toNat imm.toNat, 0, .expired)
  | .ori core guard rd ra imm => some (core, formI guard 0x03 rd.toNat ra.toNat imm.toNat, 0, .expired)
  | .xori core guard rd ra imm => some (core, formI guard 0x04 rd.toNat ra.toNat imm.toNat, 0, .expired)
  | .shli core guard rd ra sh => some (core, formI guard 0x05 rd.toNat ra.toNat sh.toNat, 0, .expired)
  | .shri core guard rd ra sh => some (core, formI guard 0x06 rd.toNat ra.toNat sh.toNat, 0, .expired)
  | .srai core guard rd ra sh => some (core, formI guard 0x07 rd.toNat ra.toNat sh.toNat, 0, .expired)
  | .lui core guard rd imm => some (core, formI guard 0x08 rd.toNat 0 imm.toNat, 0, .expired)
  | .cmpEq core guard pd ra rb => some (core, formR guard 0x09 pd.toNat ra.toNat rb.toNat 0, 0, .expired)
  | .cmpNe core guard pd ra rb => some (core, formR guard 0x09 pd.toNat ra.toNat rb.toNat 1, 0, .expired)
  | .cmpLt core guard pd ra rb => some (core, formR guard 0x09 pd.toNat ra.toNat rb.toNat 2, 0, .expired)
  | .cmpLtu core guard pd ra rb => some (core, formR guard 0x09 pd.toNat ra.toNat rb.toNat 3, 0, .expired)
  | .cmpGe core guard pd ra rb => some (core, formR guard 0x09 pd.toNat ra.toNat rb.toNat 4, 0, .expired)
  | .cmpGeu core guard pd ra rb => some (core, formR guard 0x09 pd.toNat ra.toNat rb.toNat 5, 0, .expired)
  | .cmpiEq core guard pd ra imm => some (core, formI guard 0x0A (8 * 0 + pd.toNat) ra.toNat imm.toNat, 0, .expired)
  | .cmpiNe core guard pd ra imm => some (core, formI guard 0x0A (8 * 1 + pd.toNat) ra.toNat imm.toNat, 0, .expired)
  | .cmpiLt core guard pd ra imm => some (core, formI guard 0x0A (8 * 2 + pd.toNat) ra.toNat imm.toNat, 0, .expired)
  | .cmpiLtu core guard pd ra imm => some (core, formI guard 0x0A (8 * 3 + pd.toNat) ra.toNat imm.toNat, 0, .expired)
  | .psetAnd core guard pd pa pb => some (core, formR guard 0x0b pd.toNat pa.toNat pb.toNat 0, 0, .expired)
  | .psetOr core guard pd pa pb => some (core, formR guard 0x0b pd.toNat pa.toNat pb.toNat 1, 0, .expired)
  | .psetXor core guard pd pa pb => some (core, formR guard 0x0b pd.toNat pa.toNat pb.toNat 2, 0, .expired)
  | .psetAndn core guard pd pa pb => some (core, formR guard 0x0b pd.toNat pa.toNat pb.toNat 3, 0, .expired)
  | .br core guard imm => some (core, formB guard 0x0C imm.toNat, 0, .expired)
  | .call core guard imm => some (core, formB guard 0x0D imm.toNat, 0, .expired)
  | .jr core guard rd ra => some (core, formR guard 0x0e rd.toNat ra.toNat 0 0, 0, .expired)
  | .ldB core guard rd ra imm answer => some (core, formI guard 0x10 rd.toNat ra.toNat imm.toNat, 0, answer)
  | .ldH core guard rd ra imm answer => some (core, formI guard 0x11 rd.toNat ra.toNat imm.toNat, 0, answer)
  | .ldW core guard rd ra imm answer => some (core, formI guard 0x12 rd.toNat ra.toNat imm.toNat, 0, answer)
  | .ldD core guard rd ra imm answer => some (core, formI guard 0x13 rd.toNat ra.toNat imm.toNat, 0, answer)
  | .ldlB core guard rd ra imm => some (core, formI guard 0x14 rd.toNat ra.toNat imm.toNat, 0, .expired)
  | .ldlH core guard rd ra imm => some (core, formI guard 0x15 rd.toNat ra.toNat imm.toNat, 0, .expired)
  | .ldlW core guard rd ra imm => some (core, formI guard 0x16 rd.toNat ra.toNat imm.toNat, 0, .expired)
  | .ldlD core guard rd ra imm => some (core, formI guard 0x17 rd.toNat ra.toNat imm.toNat, 0, .expired)
  | .stB core guard rs ra imm answer => some (core, formI guard 0x18 rs.toNat ra.toNat imm.toNat, 0, answer)
  | .stH core guard rs ra imm answer => some (core, formI guard 0x19 rs.toNat ra.toNat imm.toNat, 0, answer)
  | .stW core guard rs ra imm answer => some (core, formI guard 0x1a rs.toNat ra.toNat imm.toNat, 0, answer)
  | .stD core guard rs ra imm answer => some (core, formI guard 0x1b rs.toNat ra.toNat imm.toNat, 0, answer)
  | .stlB core guard rs ra imm => some (core, formI guard 0x1c rs.toNat ra.toNat imm.toNat, 0, .expired)
  | .stlH core guard rs ra imm => some (core, formI guard 0x1d rs.toNat ra.toNat imm.toNat, 0, .expired)
  | .stlW core guard rs ra imm => some (core, formI guard 0x1e rs.toNat ra.toNat imm.toNat, 0, .expired)
  | .stlD core guard rs ra imm => some (core, formI guard 0x1f rs.toNat ra.toNat imm.toNat, 0, .expired)
  | .amoAdd core guard rd ra rb aq rl d answer => some (core, formR guard 0x20 rd.toNat ra.toNat rb.toNat (0 + 4 * b2n aq + 2 * b2n rl + b2n d), 0, answer)
  | .amoSwap core guard rd ra rb aq rl d answer => some (core, formR guard 0x20 rd.toNat ra.toNat rb.toNat (8 + 4 * b2n aq + 2 * b2n rl + b2n d), 0, answer)
  | .amoCas core guard rd ra rb aq rl d answer => some (core, formR guard 0x20 rd.toNat ra.toNat rb.toNat (16 + 4 * b2n aq + 2 * b2n rl + b2n d), 0, answer)
  | .amoMin core guard rd ra rb aq rl d answer => some (core, formR guard 0x20 rd.toNat ra.toNat rb.toNat (24 + 4 * b2n aq + 2 * b2n rl + b2n d), 0, answer)
  | .amoMax core guard rd ra rb aq rl d answer => some (core, formR guard 0x20 rd.toNat ra.toNat rb.toNat (32 + 4 * b2n aq + 2 * b2n rl + b2n d), 0, answer)
  | .amoMinu core guard rd ra rb aq rl d answer => some (core, formR guard 0x20 rd.toNat ra.toNat rb.toNat (40 + 4 * b2n aq + 2 * b2n rl + b2n d), 0, answer)
  | .amoMaxu core guard rd ra rb aq rl d answer => some (core, formR guard 0x20 rd.toNat ra.toNat rb.toNat (48 + 4 * b2n aq + 2 * b2n rl + b2n d), 0, answer)
  | .cueFence core guard mask => some (core, formR guard 0x21 0 0 0 mask.toNat, 0, .expired)
  | .cwr core guard rd cw => some (core, formI guard 0x22 rd.toNat 0 cw.toNat, 0, .expired)
  | .cww core guard cw ra => some (core, formI guard 0x23 0 ra.toNat cw.toNat, 0, .expired)
  | .waite core guard rd any mask => some (core, formI guard 0x24 rd.toNat 0 (2 ^ 16 * b2n any + mask.toNat), 0, .expired)
  | .yield core guard => some (core, formB guard 0x25 0, 0, .expired)
  | .budget core guard rd ra => some (core, formR guard 0x26 rd.toNat ra.toNat 0 0, 0, .expired)
  | .signalCore core guard ra src => some (core, formR guard 0x27 0 ra.toNat 0 src.toNat, 0, .expired)
  | .signalQueue core guard => some (core, formI guard 0x27 0 0 (2 ^ 10), 0, .expired)
  | .enq core guard rd ra qid => some (core, formI guard 0x28 rd.toNat ra.toNat 0, qid.toNat, .expired)
  | .tissue core guard hd ra te => some (core, formI guard 0x29 ra.toNat 0 (2 ^ 13 * hd.toNat), (2 ^ 26 * te.toNat), .expired)
  | .missue core guard hd ra rb rc srcWin dstWin me zero => some (core, formI guard 0x2A ra.toNat rb.toNat (2 ^ 8 * hd.toNat), (2 ^ 27 * rc.toNat + 2 ^ 25 * b2n srcWin + 2 ^ 23 * b2n dstWin + 2 ^ 17 * me.toNat + 2 ^ 16 * b2n zero), .expired)
  | .done core guard ra => some (core, formR guard 0x2b 0 ra.toNat 0 0, 0, .expired)
  | .endSrc core guard src => some (core, formR guard 0x2c 0 0 0 src.toNat, 0, .expired)
  | .trap core guard code => some (core, formB guard 0x2D code.toNat, 0, .expired)
  | .mbxSend core guard rd ra rb n => some (core, formR guard 0x2e rd.toNat ra.toNat rb.toNat n.toNat, 0, .expired)
  | .mbxRecv core guard rd ra rb => some (core, formR guard 0x2f rd.toNat ra.toNat rb.toNat 0, 0, .expired)
  | .eret core guard => some (core, formB guard 0x30 0, 0, .expired)
  | .porstNLow => none
  | .porstNRise _ _ => none
  | .coreLeavesReset => none
  | .wrstNLow _ => none
  | .edgePwrOkFall => none
  | .corePwrOkFall => none
  | .corePwrOkRise => none
  | .iaModuleDegrade _ _ => none
  | .iaModuleFail _ _ => none
  | .adapterRetryExhausted _ _ => none
  | .iaLinkPowerState _ _ => none
  | .tlmRecord _ => none
  | .tlmStale => none
  | .tlmStaleFault => none
  | .vidAckRise => none
  | .vidAckFall => none
  | .vidAckLate => none
  | .pstCredit _ => none
  | .pstPersisted _ => none
  | .pstFailed _ => none
  | .pstEpochSend => none
  | .i3cEntdaa _ => none
  | .trefLoss => none
  | .trefRestored => none
  | .trefLostTimeout => none
  | .burnishReading _ => none
  | .temperWindow _ => none
  | .sqTailWrite _ _ _ => none
  | .cqHeadWrite _ _ _ => none
  | .idleHintWrite _ _ _ => none
  | .cancelWrite _ _ _ => none
  | .tailLineSnoop _ _ => none
  | .descriptorFetch _ _ => none
  | .ringAccessFailure _ _ => none
  | .admission _ _ => none
  | .run _ => none
  | .launch _ => none
  | .fence _ => none
  | .nop _ => none
  | .createSlice _ _ => none
  | .resizeSlice _ _ => none
  | .freezeSlice _ => none
  | .freezeDrainDone _ => none
  | .saveIngot _ _ => none
  | .restoreIngot _ _ _ => none
  | .thaw _ => none
  | .retireSlice _ => none
  | .retireKeyZeroise _ => none
  | .createQueue _ _ => none
  | .destroyQueue _ => none
  | .queueReleaseDone _ => none
  | .releaseLimitExpiry _ => none
  | .pauseQueue _ => none
  | .resumeQueue _ => none
  | .qcxActivate => none
  | .registerCast _ _ => none
  | .patchCast _ _ => none
  | .castVersionSwitch => none
  | .registerBackend _ _ => none
  | .pinModel _ => none
  | .unpinModel _ => none
  | .touchstone _ => none
  | .itemTimeout _ => none
  | .runLimitExpiry _ => none
  | .itemEnd _ => none
  | .prmCountClr => none
  | .interruptEntry _ => none
  | .stretchExpiry _ => none
  | .cueHaltReq _ => none
  | .cueHalted _ => none
  | .cueStep _ _ => none
  | .cueResume _ => none
  | .cueBreakpoint _ => none
  | .cueDbgDataWrite _ _ => none
  | .cueClr _ => none
  | .castNodeStart _ _ => none
  | .notifyLineWrite _ _ => none
  | .backendWboundExpiry _ _ => none
  | .todMatmul _ => none
  | .todVectorAdd _ => none
  | .todVectorMul _ => none
  | .todVectorMax _ => none
  | .todVectorMin _ => none
  | .todVectorFma _ => none
  | .todVectorExp _ => none
  | .todVectorSilu _ => none
  | .todVectorGelu _ => none
  | .todVectorRsqrt _ => none
  | .todVectorConvert _ => none
  | .todReduceSum _ => none
  | .todReduceMax _ => none
  | .todReduceSumsq _ => none
  | .todNormRms _ => none
  | .todNormLayer _ => none
  | .todCbLoad _ => none
  | .todAttend _ => none
  | .engineUnitEnd _ => none
  | .engineOpComplete _ => none
  | .engineHangExpiry _ => none
  | .moveHangExpiry _ => none
  | .moveOpComplete _ _ => none
  | .engineRemoteRefusal _ _ => none
  | .tenClr => none
  | .modelLoadStart => none
  | .modelLoadComplete => none
  | .modelLoadPoison _ => none
  | .stepStart _ => none
  | .stepEnd _ _ => none
  | .srvAcctClr _ _ => none
  | .srvMdlValidWrite _ _ => none
  | .tmpDurEnable _ => none
  | .memHdmEnable _ => none
  | .memMapLock => none
  | .tlbInvalidate => none
  | .tlbInvalidateDone => none
  | .atsInvalidation _ _ _ _ => none
  | .patrolScrub _ _ => none
  | .trnDone _ _ _ => none
  | .stackTrainTimeout _ => none
  | .spareMoveComplete _ _ => none
  | .rdShr _ => none
  | .rdOwn _ => none
  | .upgMsg _ => none
  | .rdCur _ => none
  | .wrFull _ => none
  | .wrPart _ => none
  | .cleanLine _ => none
  | .snpShr _ => none
  | .snpInv _ => none
  | .snpCur _ => none
  | .wbDirty _ => none
  | .evictClean _ => none
  | .dataMsg _ => none
  | .snpData _ => none
  | .rspI _ => none
  | .rspS _ => none
  | .rspEvicting _ => none
  | .rspLost _ => none
  | .gntMsg _ => none
  | .cmpMsg _ => none
  | .ackMsg _ => none
  | .nackStake _ => none
  | .stakeRetry _ => none
  | .stakeLapse _ _ => none
  | .refuse _ => none
  | .expired _ => none
  | .dead _ => none
  | .homeReset _ => none
  | .recallDone _ => none
  | .rejoin _ => none
  | .snoopTimeout _ => none
  | .lineEviction _ _ => none
  | .hostLinkDown _ => none
  | .cohDeadWrite _ => none
  | .recallWindowClose => none
  | .edgeCoreAnswer _ => none
  | .flitMsg _ _ => none
  | .flitIdle _ _ => none
  | .flitTrain _ _ => none
  | .linkAckTimer _ => none
  | .egressFlitSend _ => none
  | .dbWr _ _ => none
  | .dbRd _ _ => none
  | .mgWr _ _ => none
  | .mgRd _ _ => none
  | .mgRsp _ _ => none
  | .filSignal _ _ => none
  | .spdmMsg _ _ => none
  | .portEnable _ => none
  | .portDisable _ => none
  | .portFence _ _ => none
  | .portTrainingDone _ _ _ _ _ => none
  | .portTrainingFail _ => none
  | .portTrainingRetry _ => none
  | .portRekey _ => none
  | .filNodeLock => none
  | .filSlcMeterWrite _ _ _ => none
  | .faultInject => none
  | .slcReset _ => none
  | .functionLevelReset _ _ => none
  | .sliceResetDone _ => none
  | .keyQuarantineExpiry _ => none
  | .scrubComplete _ => none
  | .dirtyLogEnable => none
  | .dirtyLogWalkDone => none
  | .pageMoverGo => none
  | .pageMoverDone _ => none
  | .cicSet _ _ _ => none
  | .cicPendClear _ _ _ => none
  | .moderatorTimerExpiry _ => none
  | .msixUnmask _ _ _ _ => none
  | .cicMcauseClear _ => none
  | .mbxTxLen _ _ _ => none
  | .mbxRxLastRead _ _ => none
  | .mbxLock => none
  | .mbxDomainReturn _ => none
  | .getVersion _ => none
  | .getCapabilities _ => none
  | .negotiateAlgorithms _ _ => none
  | .getDigests _ => none
  | .getCertificate _ _ _ => none
  | .challenge _ _ => none
  | .getMeasurements _ _ => none
  | .keyExchange _ _ _ => none
  | .finish _ _ _ => none
  | .keyUpdate _ _ => none
  | .heartbeat _ _ => none
  | .heartbeatLapse _ => none
  | .endSession _ _ => none
  | .chunkSend _ _ _ _ => none
  | .chunkGet _ _ => none
  | .spdmUnsupported _ _ => none
  | .ideKmQuery _ => none
  | .ideKmKeyProg _ _ _ => none
  | .ideKmKSetGo _ _ _ => none
  | .ideKmKSetStop _ _ _ => none
  | .getTdispVersion _ _ => none
  | .getTdispCapabilities _ _ => none
  | .lockInterfaceRequest _ _ => none
  | .getDeviceInterfaceReport _ _ => none
  | .getDeviceInterfaceState _ _ => none
  | .startInterfaceRequest _ _ => none
  | .stopInterfaceRequest _ _ => none
  | .linkSessionStart => none
  | .migrationPairingStart _ => none
  | .secCfgLock => none
  | .teReset _ => none
  | .cueReset _ => none
  | .moveReset _ => none
  | .unitResetDone _ _ => none
  | .unitResetTimeout _ => none
  | .sectionReset _ => none
  | .sectionResetTimeout _ => none
  | .warmResetTrigger _ => none
  | .blkCtrlWarm => none
  | .blkCtrlFence => none
  | .blkCtrlReadmit => none
  | .dumpUnitTimeout => none
  | .dumpTimeout => none
  | .recoveryScrub _ => none
  | .startStageBegin _ => none
  | .startStageComplete _ => none
  | .startStageFail _ _ => none
  | .startStageRetry _ => none
  | .imageGo => none
  | .imageDataPush _ => none
  | .imageFetchComplete _ _ => none
  | .touchstoneBorrow _ _ => none
  | .touchstoneTestDone _ _ _ => none
  | .touchstoneDeadline _ => none
  | .registerWrite _ _ _ _ => none
  | .splitWriteHigh _ _ _ => none
  | .iaModuleTrained _ _ _ => none
  | .hostLinkUp _ => none
  | .sectionResetDone _ => none
  | .directoryWalkDone _ => none
  | .hopAllowanceExpiry _ _ => none


end Sys2Proof
end

