-- ==== Sys2Proof/Config.lean ====
section
/-!
DEFINITION. What the spec leaves open or gives to a function outside it: opaque constants with no body, so that no
proof can see their values (spec/00_scope.md, R16).
-/

namespace Sys2Proof.Config

/-- A value that the spec leaves undefined, one for each number of the state's counter of free values. -/
opaque freeWord : Nat → Word

/-- A byte that the spec leaves undefined, one for each number of the state's counter of free values. -/
opaque freeByte : Nat → Byte

/-- The 16-bit value that stochastic rounding adds for an output element, by SEED and the element's row and column (R183): a fixed function
that the spec does not give. -/
opaque stochBits : Nat → Nat → Nat → BitVec 16

/-- The SHA-384 digest of a byte string, 48 bytes (R366); the function itself is not the spec's. -/
opaque sha384 : List Byte → List Byte

/-- AES-GCM-256 (R309, R339): the ciphertext of a text under a key and a nonce, as long as the text, and after it the tag of 16 bytes over it and the
associated data; the cipher itself is not the spec's. -/
opaque aeadSeal : List Byte → List Byte → List Byte → List Byte → List Byte

/-- HKDF-Expand with SHA-384 (R371, R372): so many bytes from a secret under a label. -/
opaque hkdfExpand : List Byte → List Byte → Nat → List Byte

/-- The export master secret of an SPDM session, by the number of the DRBG draw that the block made for it; the key exchange is SPDM's. -/
opaque exportSecret : Nat → List Byte

/-- AES-GCM-256 (R342): the text that a ciphertext gives under a key and a nonce. -/
opaque aeadOpen : List Byte → List Byte → List Byte → List Byte

/-- The public key that the block sends in the key exchange of a DRBG draw (R366); the curve is not the spec's. -/
opaque keyShare : Nat → List Byte

/-- The Secured SPDM record of a message, by the DRBG draw of its session and the generation of the session's keys (R367). -/
opaque securedRecord : Nat → Nat → List Byte → List Byte

/-- The flags of its CAPABILITIES and the largest SPDM message that the block takes: the spec states neither (R365). -/
opaque spdmFlags : Nat
opaque maxSpdmMsg : Nat

/-- The bytes that a line holds in its stack, for the DRBG draw of its key, its offset and its contents (R260); the cipher itself is not
the spec's. -/
opaque memCipher : Nat → Nat → List Byte → List Byte

/-- The set of a directory way that a line of a home falls in; the spec gives the ways (R287), not the index. -/
opaque dirSet : Nat → Nat → Nat

/-- The bank of a row, by stack, channel and the row's number in the channel: how rows share banks is not the spec's (R265). -/
opaque bankOf : Nat → Nat → Nat → Nat

/-- KiB of a bank of a stack: the spec does not state it (R265). -/
opaque bankKib : Nat

/-- Spare rows of a bank of a stack: the spec does not state it (R265). -/
opaque spareRows : Nat

/-- Spare rows of the memory-tier die of a hot-tier part: the spec does not state it (R265). -/
opaque partRows : Nat

/-- The set of its section cache that a line falls in; the spec gives the ways (R224), not the index. -/
opaque cacheSet : Nat → Nat

/-- Whether the secondary of a two-block alloy homes an offset of the node: how its route tables divide the offsets is not the spec's (R298). -/
opaque secondHomes : Nat → Bool

/-- The hash of R303 by which a message picks a port of its route entry: of the destination and address bits 47:12. -/
opaque routeHash : Nat → Nat → Nat

/-- The certificate chain of the device with a unique identifier, which the leaf's subject serial number states (R363). -/
opaque certChain : Nat → List Byte

/-- The static bound, in ns at reference speed, of a manager opcode whose bound the spec does not state (R106). -/
opaque opcCore : Nat → Nat

/-- The static bound, in ns that do not scale, of a manager opcode. -/
opaque opcFix : Nat → Nat

/-- The energy of a manager opcode, in µJ at 0.75 V, where the spec does not state it. -/
opaque opcEnergy : Nat → Nat

/-- The meter charge of a manager opcode, in bytes, where the spec does not state it. -/
opaque opcBytes : Nat → Nat

/-- The coverage, in pages, that a record with FLUSH_COST zero gives: R242 divides by it. -/
opaque coverAtNoCost : Nat → Nat

/-- Hallmark measurement block 1: the digest over the block release and the memory-tier dies of this part (R369). -/
opaque romDigest : Nat → List Byte

/-- A signature with the device key, whose private half no party reads (R363, R369). -/
opaque deviceSign : List Byte → List Byte

end Sys2Proof.Config
end

