-- ==== Sys2Proof/Machine/Records.lean ====
section
/-!
DEFINITION. The records that the machine's state is made of, one per kind of thing the spec gives the block.
Register fields are not repeated here: they stand in the register store (Sys2Proof/Machine/Fld.lean).
-/

namespace Sys2Proof.Machine

/-! ### Edge: pins, die-to-die modules, telemetry, voltage, persist channel (chapter 02) -/

/-- The reset, power and voltage pins as they stand (R54, R45). -/
structure Pins where
  porstN : Bool
  edgePwrOk : Bool
  corePwrOk : Bool
  wrstN : Bool
  vidReq : Bool
  vidAck : Bool
  vidCode : Nat
deriving DecidableEq, Repr

/-- State of a UCIe module of an IA (R35). -/
inductive IaState where
  | training
  | full
  | half
  | failed
deriving DecidableEq, Repr

/-- Link power state requested on a module (R37). -/
inductive IaPower where
  | l0
  | l1
  | l2
deriving DecidableEq, Repr

/-- One UCIe module. -/
structure IaModule where
  state : IaState
  power : IaPower
deriving DecidableEq, Repr

/-- A valid telemetry record (Table 2-6) and when its last byte arrived. -/
structure TlmRec where
  seq : Nat
  inputLost : Bool
  assuredDrop : Bool
  holdupValid : Bool
  vin : Nat
  iin : Nat
  pAssured : Nat
  vBank : Nat
  cBank : Nat
  vFloor : Nat
  derate : Nat
  flushCost : Nat
  msTemp : List Nat
  age : Nat
  arrived : Nat
deriving DecidableEq, Repr

/-- What epoch is open on PST (R245, R246). -/
inductive Epoch where
  | none
  | cleaning
  | flushing
deriving DecidableEq, Repr

/-- The persist channel (R47, R48). -/
structure Pst where
  epoch : Epoch
  seq : Nat
  credit : Nat
  committed : Bool
deriving DecidableEq, Repr

/-- State of a 4 KiB page of a durable region; a page with no entry is clean (R245, R247). -/
inductive DurPage where
  | dirty
  | inflight (epoch : Nat)
  | flushing (epoch : Nat)
deriving DecidableEq, Repr

/-! ### Queues and items (chapters 03, 04, 06) -/

/-- A bound header as read (Table 6-1). -/
structure Hdr where
  windowKib : Nat
  codeLen : Nat
  teNeed : Nat
  meNeed : Nat
  core : Nat
  fix : Nat
  energy : Nat
  rtrips : Nat
  bytes : Nat
deriving DecidableEq, Repr

/-- A fetched descriptor (Table 4-1), with how it was reached: whether it came from a linked list, whether the descriptor at its CHAIN
could not be read (Table 4-3, check 8), when it was ready, the ring slot that it fills or that began its list, its own address and
its depth in the list (R80), and the bound header read with it, if that is good (R147). -/
structure Desc where
  opc : Nat
  flags : Nat
  cls : Nat
  rsv3 : Nat
  tag : Nat
  cueEntry : Nat
  argPtr : Nat
  argLen : Nat
  allowance : Nat
  castId : Nat
  castVer : Nat
  seq : Nat
  chain : Nat
  inl0 : Word
  inl1 : Word
  linked : Bool
  chainBad : Bool
  fetchedAt : Nat
  slot : Nat
  va : Nat
  depth : Nat
  hdr : Option Hdr
deriving DecidableEq, Repr

/-- A completion (Table 4-4) before its PHASE and entry are known. -/
structure Completion where
  tag : Nat
  status : Nat
  reason : Nat
  linked : Bool
  faultRef : Option Nat
  result : Word
  residence : Nat
  promise : Nat
  noIrq : Bool
deriving DecidableEq, Repr

/-- A completion on its way to its CQ entry: the number of its item, or of its descriptor where that was not admitted; when the item
was accepted; the end of its promise; when its effective timeout elapses, where that still counts (R76, R103); the sequence that closes
once it is written (R215); and the Filigree port on which its write left. -/
structure Posting where
  num : Nat
  at_ : Option Nat
  ends : Nat
  deadline : Option Nat
  close : Option Nat
  port : Option Nat
  comp : Completion
deriving DecidableEq, Repr

/-- Where a linked list goes on when its fetch had to stop (R80): the address of its next descriptor, that one's depth, and its bytes
where they have been copied. -/
structure ListNext where
  va : Nat
  depth : Nat
  body : Option (List Byte)
deriving DecidableEq, Repr

/-- A line of pool memory that the block holds in S state at a section's gateway, to see when a write takes it (R90, R167): its number,
the section, and whether it has been taken and is to be read again. -/
structure Watch where
  line : Nat
  sec : Nat
  lost : Bool
deriving DecidableEq, Repr

/-- What a queue context holds beside its QCX_ registers: fetched descriptors not yet admitted, where a linked list goes
on when its fetch had to stop, completions waiting for ring order (R99), held completions (R424), reserved and unfreed CQ entries
(R97, R95), the ready mark (R161), the completions whose writes have left the block and have not landed yet, oldest first, the
DESTROY_QUEUE item with its counts (R108), the state of the queue vector's moderator (R355),
the block's hold of the tail line (R90), and whether a CQ write has failed since the queue was last resumed (R424). -/
structure QueueX where
  fetched : List Desc
  chain : Option ListNext
  ordered : List Posting
  held : List Posting
  reserved : Nat
  unfreed : Nat
  readyAt : Option Nat
  posted : List Posting
  destroyItem : Option Nat
  discarded : Nat
  cancelled : Nat
  count : Nat
  timer : Option Nat
  unbound : Bool
  watch : Option Watch
  cqFailed : Bool
deriving DecidableEq, Repr

/-- State of a handle (Table 5-3): FREE, BUSY with its operation, or DONE with an outcome. -/
inductive Outcome3 where
  | ok
  | refused
  | expired
deriving DecidableEq, Repr

/-- State of a handle (R115). -/
inductive HState where
  | free
  | busy (op : Nat)
  | done (o : Outcome3)
deriving DecidableEq, Repr

/-- A control word that debug has written although Table 5-2 makes it RO (R146): its index, value and time. -/
structure Forced where
  index : Nat
  value : Word
  at_ : Nat
deriving DecidableEq, Repr

/-- A context of a cue core (Table 5-1): registers, predicates, handles, pc, and the guest-visible control
words that a program or the block can change, those that debug has changed (R146) apart. -/
structure Ctx where
  g : Vector Word 32
  p : Vector Bool 8
  h : Vector HState 16
  pc : Word
  rerr : Nat
  remoteRt : Nat
  lsBase : Nat
  lsSize : Nat
  xctx : Word
  forced : List Forced
deriving DecidableEq, Repr

/-- Why an item stops otherwise than by DONE (R141): the completion it is due (none when `complete` is false), and the
row of Table 3-6 that voids its promise, if one does. -/
structure EndCause where
  status : Nat
  reason : Nat
  complete : Bool
  faultRef : Option Nat
  void : Option Nat
deriving DecidableEq, Repr

/-- What an item is doing. -/
inductive Phase where
  | accepted
  | running
  | parked
  | stopping
deriving DecidableEq, Repr

/-- One node of a cast (Table 6-3). -/
structure CastNode where
  kind : Nat
  result : Bool
  preds : List Nat
  todWin : Nat
  entry : Nat
  backend : Nat
  bop : Nat
  argLen : Nat
deriving DecidableEq, Repr

/-- The cast runner's place in a launch (R150): nodes ended, nodes outstanding, the node whose code runs,
and the value of the node marked RESULT. -/
structure Runner where
  ended : List Nat
  outstanding : List Nat
  running : Option Nat
  result : Word
deriving DecidableEq, Repr

/-- What a step request asks for (Table 8-2), and the query tokens it adds. -/
structure StepReq where
  tokens : Nat
  outLen : Nat
  inAddr : Nat
  outAddr : Nat
  qLen : Nat
deriving DecidableEq, Repr

/-- What the commit of a management operation reserves (R71, R72): its argument block as admission read it, whether its resources were there
to take, a key slot, what it adds to the LC shares and BE floors of the sections (R333), frames of a part's quota area, and a place in the
cast store. -/
structure Resv where
  block : List Byte
  taken : Bool
  key : Bool
  shares : List Nat
  floors : List Nat
  part : Nat
  first : Nat
  frames : Nat
  addr : Nat
  len : Nat
deriving DecidableEq, Repr

/-- An accepted item (R74) with everything its commit took (R71). -/
structure Item where
  queue : Nat
  slice : Nat
  desc : Desc
  cls : Cls
  core : Nat
  acceptAt : Nat
  promise : Nat
  timeout : Nat
  sAdm : Nat
  boundCore : Nat
  boundFix : Nat
  energy : Nat
  power : Nat
  bytes : Nat
  loadPower : Nat
  group : Nat
  ledger : Bool
  teGrant : Nat
  meGrant : Nat
  ctx : Ctx
  phase : Phase
  started : Bool
  winBase : Nat
  winSize : Nat
  hasWindow : Bool
  castSlot : Option Nat
  model : Option Nat
  step : Bool
  runner : Option Runner
  durResv : Nat
  links : List (Nat × Nat)
  bkOps : List (Nat × Nat)
  cause : Option EndCause
  withdrawn : Option EndCause
  stopAt : Option Nat
  doneResult : Option Word
  seqKey : Option Nat
  req : Option StepReq
  newPages : List Nat
  isOpen : Bool
  waiting : Nat
  vCode : Nat
  rt : Nat
  resv : Option Resv
  broken : Bool
deriving DecidableEq, Repr

/-! ### Tensor operations (chapter 07) -/

/-- A value: NaN, an infinity, or (−1)^neg × m × 2^e. -/
inductive Num where
  | nan
  | inf (neg : Bool)
  | fin (neg : Bool) (m : Nat) (e : Int)
deriving DecidableEq, Repr

/-- An FP32 accumulator (R181) while its products arrive, in an order that the spec leaves open: whether a NaN and infinities of either
sign are among them; how many are not zero, their exact sum and the sum of their magnitudes in units of 2^exp, which divides each of them;
whether all so far are negative zeros or none has arrived; and whether each is a value that FP32 holds, added to nothing else first. -/
structure Accum where
  nan : Bool
  pinf : Bool
  ninf : Bool
  count : Nat
  sum : Int
  mag : Nat
  exp : Int
  allNeg : Bool
  fit : Bool
deriving DecidableEq, Repr

/-- A row of the attention unit's softmax for one query head (R191): the positions taken so far, each with its score and value row, and whether
a subnormal was flushed on the way. -/
structure AttRow where
  taken : List (Num × List Num)
  flushed : Bool
deriving DecidableEq, Repr

/-- What an ATTEND has done: the sequence under way, the units of it that have ended, its entry, the rows that sequences have taken so far
(first row and count), the rows of the pass under way, and the results that are written once every sequence has passed its checks (R187). -/
structure AttRun where
  seq : Nat
  part : Nat
  entry : List Byte
  taken : List (Nat × Nat)
  rows : List AttRow
  writes : List (Nat × List Byte)
deriving DecidableEq, Repr

/-- The counts of the result word (Table 7-9). -/
structure TenSum where
  nan : Nat
  excess : Nat
  sat : Nat
  flushed : Bool
deriving DecidableEq, Repr

/-- A weight-tile register of the array (Table 7-1): the tile that it holds, by its number in the operation, and the tile's weights by rows. -/
structure TileReg where
  tile : Nat
  w : List (List Num)
deriving DecidableEq, Repr

/-- Rows of A in operand staging (Table 7-1): the columns of A from `k` on that one K-tile takes. -/
structure StagedA where
  k : Nat
  rows : List (List Num)
deriving DecidableEq, Repr

/-- What a tensor operation has done (R194): the units that have ended, the counts so far, its codebook slot and whether it loaded it, the
accumulators of its bank, the two weight-tile registers, what it keeps in operand staging (Table 7-1), and an ATTEND's own part. -/
structure TenRun where
  unit : Nat
  sum : TenSum
  slot : Option Nat
  loaded : Bool
  acc : List Accum
  tiles : List TileReg
  staging : List StagedA
  att : AttRun
deriving DecidableEq, Repr

/-- The unit an operation runs on. -/
inductive UnitId where
  | te (t : Nat)
  | att (k : Nat)
  | me (m : Nat)
deriving DecidableEq, Repr

/-- Where an operation stands on its unit (R193, Table 7-13). -/
inductive OpPhase where
  | waiting
  | running
  | suspended
  | finishing
deriving DecidableEq, Repr

/-- An operation that a TISSUE, a MISSUE or a TENSOR node handed to an engine; `te` is the tensor engine it was issued to, `moved` the bytes
that a move has moved. -/
structure Op where
  item : Nat
  handle : Option Nat
  node : Option Nat
  on : UnitId
  te : Nat
  cls : Cls
  slice : Nat
  tod : List Byte
  todWin : Nat
  src : Nat
  srcWin : Bool
  dst : Nat
  dstWin : Bool
  len : Nat
  zero : Bool
  phase : OpPhase
  cancelled : Bool
  issuedAt : Nat
  startedAt : Nat
  progressAt : Nat
  outcome : Outcome3
  moved : Nat
  run : TenRun
deriving DecidableEq, Repr

/-- A codebook slot of a tensor engine (R179). -/
structure CbSlot where
  slice : Nat
  addr : Nat
  fmt : Nat
  bytes : List Byte
  usedAt : Nat
  heldBy : List Nat
  stale : Bool
deriving DecidableEq, Repr

/-- A slice's floor credit in a section (R219), in 1/4,096 ns, and when it was last brought up to date. -/
structure Credit where
  value : Int
  at_ : Nat
deriving DecidableEq, Repr

/-- A backend's from-native entry that a core runs (R167): the backend, the item in whose context it runs, the size of its window, and the
context and privilege that the core goes on with afterwards. -/
structure Reading where
  backend : Nat
  item : Option Nat
  size : Nat
  ctx : Ctx
  priv : Bool
deriving DecidableEq, Repr

/-- An access of a core that has been translated and waits to be performed (R259): the pc of its instruction, the slice, the address that it
names, whether it writes, and the global address that it was translated to. -/
structure Access where
  pc : Word
  slice : Nat
  va : Nat
  write : Bool
  addr : Nat
deriving DecidableEq, Repr

/-- A cue core: the item whose context is loaded, its registers, the steward control words of Table 5-2, the
priority stack (R351, top first), the local store (R116), the open stretch (R128) with its interrupt service and whether it runs ahead (R234), the slice
whose turn it is (R220), the fetch turn (R161), whether its context stands at a yield point (R161), the from-native
entry that it runs (R167), and its access that waits (R259). -/
structure Core where
  item : Option Nat
  ctx : Ctx
  priv : Bool
  exl : Bool
  ie : Bool
  ppriv : Bool
  epc : Word
  cause : Word
  badaddr : Word
  tvec : Word
  ivec : Word
  stack : List (Nat × Nat)
  store : List Host.Cell
  stretchAt : Nat
  serviceAt : Option Nat
  ahead : Bool
  turn : Option Nat
  lcTurns : Nat
  rrLast : Nat
  rrBe : Nat
  yielded : Bool
  reading : Option Reading
  access : Option Access
deriving DecidableEq, Repr

/-- A version of a cast in its slot (R153): the copy and the header and nodes read from it. -/
structure CastVer where
  addr : Nat
  len : Nat
  cflags : Nat
  nodes : List CastNode
  codeOff : Nat
  codeLen : Nat
  todOff : Nat
  todLen : Nat
  windowKib : Nat
  teNeed : Nat
  meNeed : Nat
  boundCore : Nat
  boundFix : Nat
  energyRef : Nat
  rtrips : Nat
  backendOps : Nat
  bytes : Nat
  model : Nat
  batchMax : Nat
  digest : List Byte
  pins : Nat
deriving DecidableEq, Repr

/-- An image being registered or patched, from its copy to the switch (R154). -/
structure CastPending where
  cast : Nat
  owner : Nat
  patch : Bool
  item : Nat
  ver : CastVer
deriving DecidableEq, Repr

/-- One finished operation as the from-native entry reports it (R167). -/
structure BkReport where
  token : Nat
  ok : Bool
  result : Word
deriving DecidableEq, Repr

/-- A backend operation's token (R167, R170). -/
structure Token where
  item : Nat
  queue : Nat
  slice : Nat
  node : Nat
  startedAt : Nat
  abandoned : Bool
deriving DecidableEq, Repr

/-- A registered backend (Table 6-8), with the bound headers of its entries (R165), the writes of its notify line that from-native has
still to be entered for, and the block's hold of that line (R167). -/
structure Backend where
  transport : Nat
  maxOps : Nat
  linkMbps : Nat
  node : Nat
  nativeBase : Nat
  notifyLine : Nat
  toNative : Nat
  fromNative : Nat
  copyAddr : Nat
  copyLen : Nat
  lateLimit : Nat
  lateWindow : Nat
  ops : Nat
  tokens : Tbl Token
  lateTimes : List Nat
  reserved : Nat
  links : List (Nat × Nat)
  toHdr : Hdr
  fromHdr : Hdr
  notify : Nat
  watch : Option Watch
deriving DecidableEq, Repr

/-! ### Serving (chapter 08) -/

/-- Where a model's pages lie, as (hot-tier part, frame) pairs in page order, the parts it last occupied (R202, R203),
and when its last hold ended (R204). -/
structure ModelX where
  frames : List (Nat × Nat)
  firstPart : Nat
  parts : Nat
  lastHeld : Nat
deriving DecidableEq, Repr

/-- A cold load in progress (R205). -/
structure Load where
  model : Nat
  startAt : Nat
  planEnd : Nat
  begun : Bool
  power : Nat
  pinAfter : List Nat
deriving DecidableEq, Repr

/-- What a member that left a running step had reserved: its sequence, whether it was to open it, and the pages that this
step added (R216, R217). -/
structure Dropped where
  key : Nat
  isOpen : Bool
  pages : List Nat
deriving DecidableEq, Repr

/-- A member as the batch table of its running step lists it: its item, and the address of its staged output (Table 8-4). -/
structure Seat where
  item : Nat
  out : Nat
deriving DecidableEq, Repr

/-- What stands at a place of the memory that the firmware keeps for a running step: bytes of its own, or the KV pages of a
sequence, by node offset (R213, R214). -/
inductive KeptBody where
  | bytes (b : List Byte)
  | pages (offs : List Nat)
deriving DecidableEq, Repr

/-- A place of the memory that the firmware keeps for a model's running step, at an address of slice 0 (R213, R214). -/
structure Kept where
  model : Nat
  base : Nat
  body : KeptBody
deriving DecidableEq, Repr

/-- A step of a model's chain (R211, R212); its reservation holds a grant of each engine of the mask `tes` (R192, R211). -/
structure Step where
  startAt : Nat
  duration : Nat
  castSlot : Nat
  version : Nat
  members : List Nat
  dropped : List Dropped
  started : Bool
  core : Nat
  table : Option Nat
  seats : List Seat
  tes : Nat
deriving DecidableEq, Repr

/-- The step chain of a model: its steps, oldest first, the next unreserved start, the step number, and the members of the
step that ended last (R213). -/
structure Chain where
  steps : List Step
  nextStart : Nat
  number : Nat
  last : List Nat
deriving DecidableEq, Repr

/-- An open sequence (R210, R223). -/
structure Seq where
  model : Nat
  sec : Nat
  lcPool : Bool
  kvLen : Nat
  pages : List Nat
  poisoned : Bool
  closing : Bool
deriving DecidableEq, Repr

/-! ### Slices, keys, meters (chapters 12, 13, 15) -/

/-- What a slice holds beside its SLC_ registers: the open freeze and retire items, load times of the last second
(R205), and pages left to scrub (R348). -/
structure SliceX where
  freezeItem : Option Nat
  retireItem : Option Nat
  loads : List Nat
  heldPages : List Nat
deriving DecidableEq, Repr

/-- A two-rate three-colour meter's buckets, in byte·ms of credit per ns (bytes × 1000), and its last charge (R319). -/
structure Bucket where
  tc : Int
  tp : Int
  last : Nat
deriving DecidableEq, Repr

/-- State of a key slot (R331, R375). -/
inductive KeyState where
  | free
  | live
  | draining
deriving DecidableEq, Repr

/-- A key slot: its state, whether its key is zeroised, since when it has been so or FREE, and the number of the DRBG
draw that filled it. -/
structure KeySlot where
  state : KeyState
  zeroised : Bool
  since : Nat
  draw : Nat
deriving DecidableEq, Repr

/-! ### Memory and coherence (chapters 10, 11) -/

/-- What a stored line carries beside its bytes: the key slot it was written under (none: never written since
initialisation), the DRBG draw of that key, and the poison mark (R260, R261). -/
structure LineInfo where
  slot : Option Nat
  draw : Nat
  poison : Bool
deriving DecidableEq, Repr

/-- The current contents of a line that an on-block cache holds dirty. -/
structure DirtyLine where
  data : List Byte
  slot : Nat
  poison : Bool
deriving DecidableEq, Repr

/-- A TLB entry (R257) of a section: the frame and rights of a guest-virtual page of a slice; `host` for HOST
entries. `bits` is the page size as a power of two (R256). -/
structure TlbEnt where
  sec : Nat
  slice : Nat
  page : Nat
  bits : Nat
  host : Bool
  write : Bool
  node : Nat
  frame : Nat
deriving DecidableEq, Repr

/-- A directory entry (R287, COH_DIR_ENT) at its position. -/
structure DirEnt where
  home : Nat
  way : Nat
  lost : Bool
  sum : Nat
  fab : Bool
  nptr : Nat
  pres : Nat
  owner : Nat
  node0 : Nat
  node1 : Nat
  used : Nat
deriving DecidableEq, Repr

/-- A line that an uncached requester of the block has asked its home for (R271): the ticket that it holds and when it asks again with it, and
what it was given and has not used yet. -/
structure Cur where
  ticket : Nat
  retryAt : Nat
  got : Option (List Byte × Bool)
deriving DecidableEq, Repr

/-- A transaction in a home's tracker (R280), or waiting there for its line. A back-invalidation (R288, R272) is one of
kind SNP_INV: `who` is the fabric for a directory victim, the host port for a victim of its filter, and `reqTxn` names the
transaction that waits for it. `cur` is what a holder gave, and `curKey` the key slot under which it holds it. -/
structure Txn where
  home : Nat
  line : Nat
  kind : MsgKind
  who : Who
  req : Msg
  reqTxn : Nat
  arrived : Nat
  stake : Bool
  waiting : Bool
  snoops : List Who
  awaitWb : Bool
  awaitAck : Bool
  cur : Option (List Byte)
  curPoison : Bool
  curKey : Nat
  since : Nat
deriving DecidableEq, Repr

/-- A ticket of a home (R283, R284). -/
structure Ticket where
  who : Who
  assigned : Option Nat
  notBefore : Nat
deriving DecidableEq, Repr

/-- A request that a gateway has outstanding for a line (R279, rule 2): its kind, its line's global address, the inner requests that wait for
it, the request as first made, the port on which it left, the ticket it holds, when it is retried, and until when its allowance lasts. -/
structure UpReq where
  kind : MsgKind
  addr : Nat
  waiters : List Msg
  req : Msg
  port : Option Nat
  ticket : Nat
  retryAt : Option Nat
  until_ : Option Nat
deriving DecidableEq, Repr

/-- An entry of a host-holder filter (R272). -/
structure HpfEnt where
  excl : Bool
  used : Nat
deriving DecidableEq, Repr

/-- A hole (R266), in the order recorded: a granule, a hot-tier frame, a whole stack or a whole pseudo-channel. `moved`
says that its correctable lines were moved and stay addressable. -/
structure Hole where
  moved : Bool
  frame : Bool
  stack : Bool
  channel : Bool
  offset : Nat
deriving DecidableEq, Repr

/-- Where the sparing of a row stands (R265, Table 10-8): the row, the rung on which its last move was committed, and the channel whose
share of the spare region holds its data on rungs 2 and 3. -/
structure Spared where
  row : Nat
  rung : Nat
  chan : Nat
deriving DecidableEq, Repr

/-- Training and sparing of a stack beside its MEM_STK registers, and sparing of a hot-tier part (R264, R265): failures of the current
training step and its start; corrected errors of rows since the scrub period began; rows being moved; rows that have been moved; and the
banks that have moved to their channel's share of the spare region, as channel and bank. -/
structure StackX where
  fails : Nat
  stepAt : Nat
  rowCe : Tbl Nat
  periodAt : Nat
  moves : List Nat
  rows : List Spared
  banks : List (Nat × Nat)
deriving DecidableEq, Repr

/-! ### Filigree (chapter 12) -/

/-- A message waiting to leave a port, in its class queue and sub-queue (R317), with the route entry read for it at its lookup (R321). -/
structure EgressMsg where
  cls : Nat
  sub : Nat
  msg : Msg
  since : Nat
  entry : Nat
deriving DecidableEq, Repr

/-- A MSG flit in a port's replay buffer (R308): the key, its epoch and the count under which it was first sent, and how often it has been sent
again without an ACK. -/
structure Sent where
  flit : Flit
  key : List Byte
  epoch : Nat
  count : Nat
  tries : Nat
deriving DecidableEq, Repr

/-- A REQ sub-queue's place in the rounds of its queue (R318): the queue, the sub-queue, its deficit, and whether it has had
its turn in the current round. -/
structure SubTurn where
  queue : Nat
  sub : Nat
  deficit : Nat
  served : Bool
deriving DecidableEq, Repr

/-- The link layer of a Filigree port (R307–R310). `lastSeq` is the SEQ of the last MSG flit seen since a NAK, `outSeq` that of the last one put on
the link, `unsunk` the class and time of DAT and RSP flits sent whose credit has not come back, `keyTx` and `keyRx` the keys of the current epochs. -/
structure Port where
  txSeq : Nat
  ackedTx : Nat
  rxSeq : Nat
  nakSent : Bool
  lastSeq : Nat
  outSeq : Nat
  unsunk : List (Nat × Nat)
  unacked : Nat
  rxAt : Nat
  credits : List Nat
  rxUsed : List Nat
  replay : List Sent
  authRun : Nat
  epochTx : Nat
  epochRx : Nat
  countTx : Nat
  countRx : Nat
  keyTx : List Byte
  keyRx : List Byte
  rekeyNext : Bool
  session : Option Nat
  retryAt : Option Nat
  trainFails : Nat
  trainAt : Nat
  egress : List EgressMsg
  rounds : List SubTurn
  passed : List Nat
  unnumbered : Bool
deriving DecidableEq, Repr

/-! ### Mailboxes and vectors (chapter 14) -/

/-- One direction of a mailbox channel (R356). -/
structure MbxDir where
  words : Vector Word 8
  len : Nat
  full : Bool
deriving DecidableEq, Repr

/-- The settings of a queue vector's moderator (CIC_VMOD, R355). -/
structure VMod where
  thresh : Nat
  delayUs : Nat
deriving DecidableEq, Repr

/-- A vector of a function's MSI-X table (R358): its message address and data, its mask bit, its pending bit. -/
structure MsixVec where
  addr : Nat
  data : Nat
  masked : Bool
  pba : Bool
deriving DecidableEq, Repr

/-! ### Security (chapter 15) -/

/-- Where an SPDM connection stands. -/
inductive SpdmPhase where
  | start
  | version
  | capabilities
  | negotiated
deriving DecidableEq, Repr

/-- An SPDM session (R368). -/
structure SpdmSession where
  port : SpdmPort
  established : Bool
  requester : Bool
  lastBeat : Nat
  keyGen : Nat
  draw : Nat
  partner : Nat
deriving DecidableEq, Repr

/-- An SPDM connection at a port: where it stands, the request last collected from fragments or chunks with its TXN, the transcript of the messages
that negotiated it, and that of the certificate messages since. -/
structure Conn where
  phase : SpdmPhase
  txn : Nat
  heard : List Byte
  vca : List Byte
  certs : List Byte
deriving DecidableEq, Repr

/-- What the block asks a partner as requester: the TXN of the request that stands, what has come of the partner's chain, and a response that
comes in chunks. -/
structure Ask where
  txn : Nat
  chain : List Byte
  large : List Byte
deriving DecidableEq, Repr

/-- An SPDM message being collected from fragments (R367). -/
structure Frags where
  txn : Nat
  next : Nat
  bytes : List Byte
deriving DecidableEq, Repr

/-- An IDE stream of a host port (R373): which key sets are programmed and which is in use. -/
structure IdeStream where
  prog0 : Bool
  prog1 : Bool
  active : Option Nat
deriving DecidableEq, Repr

/-- State of a TDI (R374). -/
inductive TdiState where
  | unlocked
  | locked
  | run
  | error
deriving DecidableEq, Repr

/-- A TDI: its state and what the lock recorded. -/
structure Tdi where
  state : TdiState
  root : Nat
  leaves : List Nat
deriving DecidableEq, Repr

/-- A migration pairing beside its SEC_MIGn register (R372). -/
structure Pairing where
  node : Nat
  draw : Nat
  lastBeat : Nat
  leaf : List Byte
deriving DecidableEq, Repr

/-- An entry of the cast log (R370): the digest and the number that were extended into it. -/
structure LogEnt where
  digest : List Byte
  number : Nat
deriving DecidableEq, Repr

/-! ### Faults, resets, start (chapters 16, 17) -/

/-- A fault record (Table 16-1). -/
structure FaultRec where
  index : Nat
  domain : Nat
  action : Nat
  reason : Nat
  time : Nat
  slice : Nat
  queue : Nat
  castId : Nat
  castVer : Nat
  castNode : Nat
  core : Nat
  te : Nat
  unit : Nat
  count : Nat
  pc : Nat
  addr : Nat
  aux0 : Nat
  aux1 : Nat
  status : Nat
  creason : Nat
deriving DecidableEq, Repr

/-- A unit or section reset in progress (R386, R384): its start, whether the unit is leaving service, and the
Touchstone tests that failed. -/
structure Reset where
  startAt : Nat
  leaving : Bool
  failedTests : Nat
deriving DecidableEq, Repr

/-- Where a core warm reset stands (Table 16-8). -/
inductive WarmStep where
  | triggered
  | dumping
  | held
  | resetting
  | starting
  | reopened
deriving DecidableEq, Repr

/-- A core warm reset in progress (R394). -/
structure WarmReset where
  step : WarmStep
  cause : Nat
  fence : Bool
  dump : Bool
  startAt : Nat
deriving DecidableEq, Repr

/-- A crash dump in progress (R399). -/
structure Dump where
  startAt : Nat
  unit : Nat
  unitAt : Nat
deriving DecidableEq, Repr

/-- A start stage (R402, R403): whether an attempt runs, since when, how often it failed, and when it is retried. -/
structure Stage where
  running : Bool
  begunAt : Nat
  fails : Nat
  retryAt : Option Nat
deriving DecidableEq, Repr

/-- A held steward image (R404). -/
structure Image where
  version : Nat
  bytes : List Byte
deriving DecidableEq, Repr

/-- A TOUCHSTONE item waiting for or running its tests (R410, R411). -/
structure Touch where
  tests : Nat
  unit : Nat
  deadlineAt : Nat
  borrowed : Option Nat
  lastUnit : Nat
  passed : Nat
  failed : Nat
deriving DecidableEq, Repr

/-- A held low half or a captured high half of a split access (R416). -/
structure Split where
  offset : Nat
  value : Nat
deriving DecidableEq, Repr

end Sys2Proof.Machine
end

