-- ==== Sys2Proof/Machine/Fld.lean ====
section
/-!
DEFINITION. The fields of the registers, one name per field of a register table of spec/ (chapters 03–18).
A field of a register that is tabled once for many units is one name with an index.
-/

namespace Sys2Proof.Machine

/-- The named fields of the management space (R12), in order of offset. -/
inductive Fld where
  | BLK_ID_MAGIC
  | BLK_PART_PART
  | BLK_PART_STEPPING
  | BLK_RELEASE_MAJOR
  | BLK_RELEASE_MINOR
  | BLK_RELEASE_PATCH
  | BLK_STEWARD_VERSION
  | BLK_IFACE_PHINA_MAJOR
  | BLK_IFACE_PHINA_MINOR
  | BLK_IFACE_FIL_MAJOR
  | BLK_IFACE_FIL_MINOR
  | BLK_IFACE_CUE_MAJOR
  | BLK_IFACE_CUE_MINOR
  | BLK_BUILD_TYPE
  | BLK_BUILD_FULL
  | BLK_BUILD_STACK_GIB
  | BLK_BUILD_N
  | BLK_BUILD_D
  | BLK_STRAPS_MGT_SRC
  | BLK_STRAPS_MGT_FP
  | BLK_STRAPS_I3C_SA
  | BLK_STRAPS_ALLOY_ROLE
  | BLK_STRAPS_BOTH_ENDS
  | BLK_STRAPS_TEST_EN
  | BLK_UID
  | BLK_NODE_LOCK
  | BLK_NODE_NODE
  | BLK_LOCKS_SEC
  | BLK_LOCKS_MBX
  | BLK_LOCKS_FIL
  | BLK_LOCKS_MEM
  | BLK_FEATURES_TDISP
  | BLK_FEATURES_MIGRATION
  | BLK_FEATURES_BACKENDS
  | BLK_FEATURES_DURABLE
  | BLK_FEATURES_SERVING
  | BLK_ACCESS_COUNT
  | BLK_ACCESS_LAST
  | BLK_ALLOY_SEL_TARGET
  | BLK_STATE_STATE
  | BLK_STATE_ANVIL
  | BLK_STATE_READY
  | BLK_STATE_WARM_TOTAL
  | BLK_CTRL_WARM
  | BLK_CTRL_DUMP
  | BLK_CTRL_READMIT
  | BLK_CTRL_FENCE
  | BLK_OOS_TE_UNITS
  | BLK_OOS_CUE_UNITS
  | BLK_OOS_ME_UNITS
  | BLK_OOS_SEC_ATT
  | BLK_OOS_SEC_SECTIONS
  | BLK_ESC_UNIT_LIMIT
  | BLK_ESC_UNIT_WINDOW_S
  | BLK_ESC_SEC_LIMIT
  | BLK_ESC_SEC_WINDOW_S
  | BLK_ESC_BLOCK_LIMIT
  | BLK_ESC_BLOCK_WINDOW_S
  | BLK_CAUSE
  | BLK_CAUSE_REF_INDEX
  | BLK_TIME_NS
  | BLK_STAGE_STAGE
  | BLK_STAGE_FAIL_STAGE
  | BLK_STAGE_FAIL_CODE
  | BLK_STAGE_DONE
  | BLK_STAGE_HELD
  | BLK_ATTEMPT_IMAGE
  | BLK_ATTEMPT_MEMORY
  | BLK_ATTEMPT_EDGE
  | BLK_ATTEMPT_TOUCHSTONE
  | BLK_IMG_ADDR
  | BLK_IMG_CTRL_GO
  | BLK_IMG_CTRL_BUSY
  | BLK_IMG_CTRL_AUTO
  | BLK_IMG_CTRL_VALID
  | BLK_IMG_CTRL_LEN
  | BLK_IMG_DATA
  | BLK_IMG_VER_MAJOR
  | BLK_IMG_VER_MINOR
  | BLK_IMG_VER_PATCH
  | PRM_STATUS_ADMIT_OPEN
  | PRM_STATUS_TREF_LOST
  | PRM_STATUS_SG_WARM
  | PRM_STATUS_READINGS
  | PRM_STATUS_S_G
  | PRM_BURNISH_MAX_SRC
  | PRM_BURNISH_S_MAX64
  | PRM_BURNISH_S_LAST
  | PRM_MON_MON_OK
  | PRM_MON_S_AREA
  | PRM_MAX_BOUND_MAX_BOUND
  | PRM_REMOTE_RT_REMOTE_RT
  | PRM_REFUSED_COUNT
  | PRM_VOIDED_COUNT
  | PRM_BROKEN_COUNT
  | PRM_REFUSED_REMOTE_EXPIRED
  | PRM_REFUSED_REMOTE_SHORT
  | PRM_COUNT_CLR_CLEAR_ALL
  | TMP_STATUS_STATE
  | TMP_STATUS_DUR_ERR
  | TMP_STATUS_THERMAL_HIGH
  | TMP_STATUS_CODE
  | TMP_BUDGET_P_BUDGET
  | TMP_BUDGET_P_COMMIT
  | TMP_LIMIT_LIMIT_W
  | TMP_LIMIT_SURPLUS_W
  | TMP_BASE_BASE_W
  | TMP_VID_DS
  | TMP_VID_VRES
  | TMP_VID_FLOOR_CODE
  | TMP_VID_VID_FAULTS
  | TMP_THERM_TJ_MAX
  | TMP_THERM_MS_MAX
  | TMP_THERM_TJ_AHEAD
  | TMP_THERM_MS_HOT
  | TMP_TLM_STALE_US
  | TMP_TLM_AGE_MAX
  | TMP_TLM_DISCARDS
  | TMP_NODE_VIN
  | TMP_NODE_IIN
  | TMP_HOLDUP_E_USABLE
  | TMP_HOLDUP_FIXED_J
  | TMP_DUR_COVER_PAGES
  | TMP_DUR_DIRTY_PAGES
  | TMP_DUR_RESV_PAGES
  | TMP_CLEAN_EN
  | TMP_CLEAN_HI
  | TMP_CLEAN_LO
  | TMP_FLUSH_STATE
  | TMP_FLUSH_FAILED
  | TMP_FLUSH_EPOCH
  | TMP_QUENCH_VOIDED
  | TMP_QUENCH_COUNT
  | TMP_DUR_BASE
  | TMP_DUR_SIZE_EN
  | TMP_DUR_SIZE_SIZE
  | TMP_DUR_SIZE_DIRTY
  | CIC_PEND
  | CIC_SET
  | CIC_EN
  | CIC_PRIO
  | CIC_STACK_DEPTH
  | CIC_STACK_TOP_PRIO
  | CIC_STACK_TOP_SRC
  | CIC_PSF_COUNT
  | CIC_PSF_NAMED
  | CIC_PSF_TOP
  | CIC_PSF_DEPTH
  | CIC_VMOD_SEL_VECTOR
  | CIC_VMOD_COUNT
  | CIC_VMOD_THRESH
  | CIC_VMOD_DELAY_US
  | CIC_MCAUSE_CAUSE
  | CIC_MEN_EN
  | CIC_MSTAT_SENT
  | CIC_MSTAT_DROPPED
  | MBX_BIND_SIDE_B
  | MBX_BIND_SIDE_A
  | MBX_LOCK
  | MBX_ERR_LAST
  | MBX_ERR_CHANNEL
  | MBX_ERR_DOMAIN_OFF
  | MBX_ERR_DENIED
  | MBX_ERR_IGNORED
  | MBX_STAT_FULL_AB
  | MBX_STAT_FULL_BA
  | MBX_STAT_FAR_OFF
  | MBX_STAT_LEN_AB
  | MBX_STAT_LEN_BA
  | MBX_STAT_LOST
  | FLT_HEAD_INDEX
  | FLT_DUMP_BASE
  | FLT_DUMP_CTRL_EN
  | FLT_DUMP_CTRL_STATUS
  | FLT_DUMP_CTRL_CHANNEL
  | FLT_DUMP_CTRL_TIMEOUTS
  | FLT_DUMP_SEQ_COUNT
  | FLT_WARM_IN_WINDOW
  | FLT_WARM_TOTAL
  | FLT_RST_IN_WINDOW
  | FLT_RST_TOTAL
  | SLC_STATE_STATE
  | SLC_STATE_RESETTING
  | SLC_STATE_FREEZE_DONE
  | SLC_STATE_KEYST
  | SLC_STATE_ZEROISED
  | SLC_STATE_KEY
  | SLC_PLACE_SECTIONS
  | SLC_PLACE_BE_FLOOR
  | SLC_PLACE_QUEUES
  | SLC_LC_LO_SHARE3
  | SLC_LC_LO_SHARE2
  | SLC_LC_LO_SHARE1
  | SLC_LC_LO_SHARE0
  | SLC_LC_HI_SHARE7
  | SLC_LC_HI_SHARE6
  | SLC_LC_HI_SHARE5
  | SLC_LC_HI_SHARE4
  | SLC_PORTS
  | SLC_MEMQ_MIB
  | SLC_HOT_PART
  | SLC_HOT_FIRST
  | SLC_HOT_COUNT
  | SLC_HOST_BOUND
  | SLC_HOST_PORT
  | SLC_HOST_VF
  | SLC_NODE_RKEY
  | SLC_NODE_NODE
  | SLC_CTRL_RESET
  | SLC_OPEN_ITEMS
  | SLC_OPEN_QUEUES
  | SLC_MEMUSE_MIB
  | SLC_DRAIN_REFS
  | SLC_SCRUB_PAGES
  | SLC_CFG_FREE_KEYS
  | SLC_CFG_QUAR_MS
  | SLC_DLOG_CTRL_EN
  | SLC_DLOG_CTRL_BUSY
  | SLC_DLOG_CTRL_SLICE
  | SLC_DLOG_BASE
  | SLC_DLOG_LO
  | SLC_DLOG_PAGES
  | SLC_XFER_CTRL_GO
  | SLC_XFER_CTRL_BUSY
  | SLC_XFER_CTRL_ERR
  | SLC_XFER_CTRL_MODE
  | SLC_XFER_CTRL_KEY
  | SLC_XFER_CTRL_SLICE
  | SLC_XFER_SRC_OFFSET
  | SLC_XFER_DST_ADDR
  | SLC_XFER_LEN_PAGES
  | SLC_XFER_DONE_PAGES
  | QCX_STATE_STATE
  | QCX_STATE_PRIOR
  | QCX_STATE_PARKED
  | QCX_STATE_CQ_PHASE
  | QCX_STATE_CANCEL_EN
  | QCX_STATE_ACTIVATE
  | QCX_CFG_KIND
  | QCX_CFG_BE_OK
  | QCX_CFG_LC_OK
  | QCX_CFG_IN_ORDER
  | QCX_CFG_LOG2_ENTRIES
  | QCX_OWNER_SLICE
  | QCX_OWNER_SLOT
  | QCX_OWNER_PORT
  | QCX_OWNER_PF
  | QCX_OWNER_VF
  | QCX_BIND_CORE
  | QCX_SQ_BASE
  | QCX_CQ_BASE
  | QCX_TIMEOUT
  | QCX_SQ_PTRS_TAIL
  | QCX_SQ_PTRS_HEAD
  | QCX_CQ_PTRS_HEAD
  | QCX_CQ_PTRS_TAIL
  | QCX_INFLIGHT_OPEN
  | QCX_INFLIGHT_HOLDERS
  | QCX_TAIL_LINE
  | QCX_ERR_LAST_ERR
  | QCX_ERR_DB_IGNORED
  | QCX_CNT_COUNT
  | CST_CAST_VALID
  | CST_CAST_LIVE_VER
  | CST_CAST_OWNER
  | CST_VSLOT01_STATE_1
  | CST_VSLOT01_VER_1
  | CST_VSLOT01_STATE_0
  | CST_VSLOT01_VER_0
  | CST_VSLOT23_STATE_3
  | CST_VSLOT23_VER_3
  | CST_VSLOT23_STATE_2
  | CST_VSLOT23_VER_2
  | CST_CMODEL_MODEL
  | CST_STORE_BASE
  | CST_STORE_SIZE_SIZE_MIB
  | CST_STORE_USED_USED_KIB
  | CST_VSEL_SLOT
  | CST_VSEL_CAST_ID
  | CST_VINFO_STATE
  | CST_VINFO_VERSION
  | CST_VPINS_LAUNCHES
  | CST_VADDR_ADDR
  | CST_VLEN_IMAGE_LEN
  | CST_STALE_COUNT
  | CST_BK_STATE_STATE
  | CST_BK_STATE_LATE_IN_WINDOW
  | CST_BK_STATE_OPEN
  | CST_BK_WBOUND_W_BOUND
  | CST_BK_LATE_COUNT
  | CST_BK_DROPPED_COUNT
  | CST_BK_FAILED_COUNT
  | SRV_CTRL_LC_CAP
  | SRV_CTRL_TURN_US
  | SRV_STATUS_SEEDED
  | SRV_STATUS_LOAD_BUSY
  | SRV_STATUS_LOAD_MODEL
  | SRV_STATUS_RESIDENT
  | SRV_LOAD_RES_SHARE
  | SRV_PART_LC_PC
  | SRV_PART_LC_HTCH
  | SRV_PART_LC_CWAYS
  | SRV_HOT_AREA_MIB
  | SRV_SEED_EN
  | SRV_SEED_PIN
  | SRV_SEED_MODEL
  | SRV_SEED_STAT_SKIPPED
  | SRV_SEED_STAT_LOADED
  | SRV_ACCT_CLR_ALL
  | SRV_ACCT_CLR_SLICE
  | SRV_SEQ_SEL_SLICE
  | SRV_SEQ_SEL_SEQID
  | SRV_SEQ_INFO_OPEN
  | SRV_SEQ_INFO_POISONED
  | SRV_SEQ_INFO_SECTION
  | SRV_SEQ_INFO_MODEL
  | SRV_SEQ_KV_KV_LEN
  | SRV_KVPOOL_BASE
  | SRV_KVPOOL_SIZE_PAGES
  | SRV_KVPOOL_USED_PAGES
  | SRV_KVLC_BASE
  | SRV_KVLC_SIZE_PAGES
  | SRV_KVLC_USED_PAGES
  | SRV_MDL_CTRL_VALID
  | SRV_MDL_CTRL_STATE
  | SRV_MDL_CTRL_PINNED
  | SRV_MDL_CTRL_PARTS
  | SRV_MDL_CTRL_STEP_CAST
  | SRV_MDL_SRC_BASE
  | SRV_MDL_SIZE_PAGES
  | SRV_MDL_KV_LAYERS
  | SRV_MDL_KV_KV_TOK
  | SRV_MDL_SHAPE_LC_SHARE
  | SRV_MDL_SHAPE_PREFILL_CAP
  | SRV_MDL_STAT_SEQS
  | SRV_MDL_STAT_HELD
  | SRV_MDL_LOADS_COUNT
  | SRV_SLC_CFG_COLD_LIMIT
  | SRV_SLC_CFG_BE_WEIGHT
  | SRV_SLC_CFG_SEQ_QUOTA
  | SRV_SLC_WAIT_COUNT
  | SRV_SLC_ADMIT_COUNT
  | SRV_SLC_STEPWAIT_COUNT
  | SRV_SLC_PREEMPT_COUNT
  | SRV_SLC_OVERRUN_COUNT
  | SRV_SLC_COLD_COUNT
  | SRV_SLC_SEQS_OPEN
  | MEM_CFG_TYPE
  | MEM_CFG_P
  | MEM_CFG_N
  | MEM_CFG_STACK_GIB
  | MEM_MAP_LOCK
  | MEM_MAP_LOCAL_GIB
  | MEM_SPARE_RESV_MIB
  | MEM_SPARE_BANK_ROWS
  | MEM_SPARE_ROW_CE
  | MEM_SCRUB_PERIOD_H
  | MEM_STATUS_MAPPED
  | MEM_STATUS_DEGRADED
  | MEM_STATUS_FAILED_STACKS
  | MEM_CAP_MAPPED_MIB
  | MEM_CAP_USABLE_MIB
  | MEM_INV_CTRL_GO
  | MEM_INV_CTRL_BUSY
  | MEM_INV_CTRL_ALL
  | MEM_INV_CTRL_PAGES
  | MEM_INV_CTRL_SLICE
  | MEM_INV_VA
  | MEM_STK_STAT_STATE
  | MEM_STK_STAT_REFRESH
  | MEM_STK_STAT_LAST_STEP
  | MEM_STK_STAT_TRN_STAT
  | MEM_STK_STAT_ATTEMPTS
  | MEM_STK_ERR_CORRECTED
  | MEM_STK_ERR_UNCORRECTED
  | MEM_STK_SPARE_ROWS
  | MEM_STK_SPARE_BANKS
  | MEM_STK_RESV_KIB
  | MEM_STK_HOLES_GRANULES
  | MEM_HT_STAT_STATE
  | MEM_HT_STAT_HOLES
  | MEM_HT_STAT_SPARE_LEFT
  | MEM_HT_ERR_CORRECTED
  | MEM_HT_ERR_UNCORRECTED
  | MEM_HDM_BASE
  | MEM_HDM_CTRL_EN
  | MEM_HDM_CTRL_SIZE
  | MEM_HDM_CTRL_KEY
  | MEM_HOLE_SEL_DROPPED
  | MEM_HOLE_SEL_INDEX
  | MEM_HOLE_ADDR_VALID
  | MEM_HOLE_ADDR_FRAME
  | MEM_HOLE_ADDR_STACK
  | MEM_HOLE_ADDR_CHANNEL
  | MEM_HOLE_ADDR_OFFSET
  | MEM_XCTX_ROOT_ROOT
  | MEM_XCTX_ROOT_EN
  | MEM_XCTX_CFG_PASID
  | MEM_XCTX_CFG_ATS
  | MEM_XCTX_CFG_PORT
  | COH_CTRL_SNP_LIMIT_US
  | COH_CTRL_STAKE_LIFE_US
  | COH_STATUS_RECALL
  | COH_STATUS_WALK
  | COH_STATUS_BARRED
  | COH_RECALL_RECALL_MS
  | COH_DEAD_GO
  | COH_DEAD_KIND
  | COH_DEAD_MEMBER
  | COH_DEAD_NODE
  | COH_HOME_TRK_OPEN
  | COH_HOME_TRK_STAKE
  | COH_HOME_TRK_WBK
  | COH_HOME_DIR_ENTRIES
  | COH_HOME_DIR_OVERFLOW
  | COH_HOME_NEXT_TICKET
  | COH_HOME_HEAD_TICKET
  | COH_HOME_NACK_COUNT
  | COH_HOME_BINV_COUNT
  | COH_HOME_LOST_COUNT
  | COH_HOME_LAPSE_COUNT
  | COH_DIR_SEL_MODE
  | COH_DIR_SEL_HOME
  | COH_DIR_SEL_SET
  | COH_DIR_SEL_WAY
  | COH_DIR_LINE
  | COH_DIR_ENT_VALID
  | COH_DIR_ENT_PIN
  | COH_DIR_ENT_LOST
  | COH_DIR_ENT_SUM
  | COH_DIR_ENT_FAB
  | COH_DIR_ENT_NPTR
  | COH_DIR_ENT_PRES
  | COH_DIR_ENT_OWNER
  | COH_DIR_ENT_NODE0
  | COH_DIR_ENT_NODE1
  | COH_DIR_TAG_LINE
  | COH_HPF_BINV
  | COH_HPF_ENTRIES
  | COH_RESTART_LOG_OVERFLOW
  | COH_RESTART_LOG_ENTRIES
  | FIL_NODE_LOCK
  | FIL_NODE_NODE
  | FIL_BE_ACTIVE
  | FIL_BE_BE_NODE
  | FIL_CTRL_PT_QUANTUM
  | FIL_LEVEL_BASE
  | FIL_LEVEL_MASK
  | FIL_UMETER_RATE_PIR
  | FIL_UMETER_RATE_CIR
  | FIL_UMETER_CBS
  | FIL_UMETER_PBS
  | FIL_PORT_CTRL_ENABLE
  | FIL_PORT_CTRL_FENCE
  | FIL_PORT_CTRL_ENC_REQ
  | FIL_PORT_CTRL_REKEY
  | FIL_PORT_STAT_STATE
  | FIL_PORT_STAT_ENCRYPTED
  | FIL_PORT_STAT_FENCE_CAUSE
  | FIL_PORT_STAT_MINOR
  | FIL_PORT_STAT_PARTNER
  | FIL_PORT_FLIGHT_NS
  | FIL_PORT_RES_IN_MBPS
  | FIL_PORT_RES_OUT_MBPS
  | FIL_PORT_ERR_CRC
  | FIL_PORT_ERR_AUTH
  | FIL_PORT_ERR_TRAIN_FAILS
  | FIL_PORT_REPLAY_COUNT
  | FIL_PORT_RED_COUNT
  | FIL_MON_CTRL_EN
  | FIL_MON_CTRL_VIOL_ONLY
  | FIL_MON_CTRL_PORT
  | FIL_MON_BASE
  | FIL_MON_SIZE_NEXT
  | FIL_MON_SIZE_MIB
  | FIL_MON_VIOL_FIRST
  | FIL_MON_VIOL_COUNT
  | FIL_INJ_GO
  | FIL_INJ_KIND
  | FIL_INJ_PORT
  | FIL_INJ_COUNT
  | FIL_SLC_RATE_PIR
  | FIL_SLC_RATE_CIR
  | FIL_SLC_CBS
  | FIL_SLC_PBS
  | FIL_SLC_SHAPE_QUANTUM
  | FIL_ROUTE_ENTRY
  | TEN_STATE_STATE
  | TEN_STATE_SUSPENDED
  | TEN_STATE_GRANTS
  | TEN_STATE_INBOUND
  | TEN_CB_VALID
  | TEN_CB_HELD
  | TEN_CB_LOADS_COUNT
  | TEN_OPS_COUNT
  | TEN_BUSY_US
  | TEN_PREEMPT_COUNT
  | TEN_ERR_CORRECTED
  | TEN_ERR_UNCORRECTED
  | TEN_ERR_SPARES
  | TEN_LAST_CHECK
  | TEN_LAST_SLICE
  | TEN_ATT_STATE_STATE
  | TEN_ATT_STATE_SUSPENDED
  | TEN_ATT_STATE_PENDING
  | TEN_ATT_PAGES_COUNT
  | TEN_ATT_ERR_CORRECTED
  | TEN_ATT_ERR_UNCORRECTED
  | TEN_CAP_KINDS
  | TEN_CAP_FORMATS
  | TEN_CLR_CLEAR
  | CUE_STATE_STATE
  | CUE_STATE_RECORDS
  | CUE_STATE_WINDOW_KIB
  | CUE_DBG_CTRL_HALT_REQ
  | CUE_DBG_CTRL_HALTED
  | CUE_DBG_CTRL_STEP
  | CUE_DBG_CTRL_RESUME
  | CUE_DBG_CTRL_BKPT_EN
  | CUE_PC
  | CUE_BKPT_ADDR
  | CUE_DBG_SEL_SPACE
  | CUE_DBG_SEL_INDEX
  | CUE_DBG_DATA
  | CUE_CAUSE_CAUSE
  | CUE_CAUSE_COUNT
  | CUE_STRETCH_MAX_NS
  | CUE_OVERRUN_COUNT
  | CUE_RETIRED_COUNT
  | CUE_CLR_CLEAR
  | CUE_ISA_MAJOR
  | CUE_ISA_MINOR
  | SEC_CFG_LOCK
  | SEC_ANCHOR_DIGEST
  | SEC_LINK_CTRL_GO
  | SEC_LINK_CTRL_BUSY
  | SEC_LINK_CTRL_PORT
  | SEC_MIG_CTRL_GO
  | SEC_MIG_CTRL_STATE
  | SEC_MIG_CTRL_NODE
  | SEC_PICKLE_BUSY
  | SEC_PICKLE_SLICE
  | SEC_ERR_LAST
  | SEC_ERR_COUNT
  | TCH_LAST_PASSED
  | TCH_LAST_FAILED
  | TCH_LAST_UNIT
  | TCH_COUNT_DEFERRED
  | TCH_COUNT_RUNS
  | TCH_UNIT_LAST_TESTS
  | TCH_UNIT_LAST_FAILED
  | TCH_UNIT_RUNS
deriving DecidableEq, Repr

end Sys2Proof.Machine
end

