-- ==== Sys2Proof/Machine/RegTable.lean ====
section
/-!
DEFINITION. The register tables of spec/: offset, shape and fields of every register, with each field's
bits, access type (Table 0-5), reset value and what a warm reset does to it (the warm-reset sentence of each
chapter's register section). Read by the register operations of View.lean, Mgmt.lean and Warm.lean.
-/

namespace Sys2Proof.Machine

/-- Access types of Table 0-5. -/
inductive Acc where
  | ro
  | rw
  | w1c
  | w1s
  | wo
  | rl
deriving DecidableEq, Repr

/-- What a core warm reset does to a field: keep it, return it to reset, return it for every index but 0
(queue 0 and slice 0 stay), or return it for sections only (index below 8). -/
inductive Warm where
  | keep
  | reset
  | others
  | sections
deriving DecidableEq, Repr

/-- One field of a register. -/
structure FldDesc where
  fld : Fld
  lsb : Nat
  width : Nat
  acc : Acc
  warm : Warm
deriving DecidableEq, Repr

/-- One register, tabled for `count1 × count2` units: unit (i, j) lies at base + i × stride1 + j × stride2. -/
structure RegDesc where
  base : Nat
  stride1 : Nat
  count1 : Nat
  stride2 : Nat
  count2 : Nat
  bits : Nat
  fields : List FldDesc
deriving DecidableEq, Repr

/-- The reset value of a field (its Reset column); 0 where the column gives a dash. -/
def Fld.reset : Fld → Nat
  | .BLK_ID_MAGIC => 0x4c525641
  | .BLK_PART_PART => 20
  | .BLK_RELEASE_MAJOR => 3
  | .BLK_RELEASE_MINOR => 2
  | .BLK_IFACE_PHINA_MAJOR => 2
  | .BLK_IFACE_PHINA_MINOR => 1
  | .BLK_IFACE_FIL_MAJOR => 2
  | .BLK_IFACE_CUE_MAJOR => 1
  | .BLK_IFACE_CUE_MINOR => 4
  | .BLK_NODE_NODE => 0xffff
  | .BLK_FEATURES_TDISP => 1
  | .BLK_FEATURES_MIGRATION => 1
  | .BLK_FEATURES_BACKENDS => 1
  | .BLK_FEATURES_DURABLE => 1
  | .BLK_FEATURES_SERVING => 1
  | .BLK_STATE_STATE => 1
  | .BLK_STATE_ANVIL => 1
  | .BLK_ESC_UNIT_LIMIT => 4
  | .BLK_ESC_UNIT_WINDOW_S => 600
  | .BLK_ESC_SEC_LIMIT => 3
  | .BLK_ESC_SEC_WINDOW_S => 3600
  | .BLK_ESC_BLOCK_LIMIT => 3
  | .BLK_ESC_BLOCK_WINDOW_S => 3600
  | .BLK_STAGE_STAGE => 1
  | .PRM_STATUS_S_G => 1792
  | .PRM_MAX_BOUND_MAX_BOUND => 0x80000bb8
  | .PRM_REMOTE_RT_REMOTE_RT => 0x40000005
  | .TMP_STATUS_CODE => 26
  | .TMP_LIMIT_LIMIT_W => 950
  | .TMP_BASE_BASE_W => 275
  | .TMP_VID_DS => 12
  | .TMP_VID_VRES => 4
  | .TMP_VID_FLOOR_CODE => 26
  | .TMP_THERM_TJ_AHEAD => 95
  | .TMP_THERM_MS_HOT => 85
  | .TMP_TLM_STALE_US => 60
  | .TMP_TLM_AGE_MAX => 50
  | .TMP_HOLDUP_FIXED_J => 300
  | .TMP_CLEAN_EN => 1
  | .TMP_CLEAN_HI => 32
  | .TMP_CLEAN_LO => 16
  | .CIC_PRIO => 0xffffffff
  | .CIC_VMOD_THRESH => 1
  | .SLC_NODE_NODE => 0xffff
  | .SLC_CFG_FREE_KEYS => 4351
  | .SLC_CFG_QUAR_MS => 3000
  | .CST_CMODEL_MODEL => 0xffff
  | .SRV_CTRL_LC_CAP => 48
  | .SRV_CTRL_TURN_US => 400
  | .SRV_LOAD_RES_SHARE => 32
  | .SRV_HOT_AREA_MIB => 3584
  | .SRV_MDL_CTRL_STEP_CAST => 0xffff
  | .SRV_MDL_SHAPE_PREFILL_CAP => 8192
  | .SRV_SLC_CFG_COLD_LIMIT => 4
  | .SRV_SLC_CFG_BE_WEIGHT => 1
  | .MEM_SPARE_RESV_MIB => 2048
  | .MEM_SPARE_BANK_ROWS => 8
  | .MEM_SPARE_ROW_CE => 4
  | .MEM_SCRUB_PERIOD_H => 24
  | .COH_CTRL_SNP_LIMIT_US => 100
  | .COH_CTRL_STAKE_LIFE_US => 20
  | .COH_RECALL_RECALL_MS => 50
  | .FIL_NODE_NODE => 0xffff
  | .FIL_BE_BE_NODE => 0xffff
  | .FIL_CTRL_PT_QUANTUM => 8
  | .FIL_UMETER_RATE_PIR => 2000
  | .FIL_UMETER_RATE_CIR => 1000
  | .FIL_UMETER_CBS => 0x10000
  | .FIL_UMETER_PBS => 0x20000
  | .FIL_PORT_CTRL_ENC_REQ => 1
  | .FIL_SLC_SHAPE_QUANTUM => 1
  | .TEN_ERR_SPARES => 16
  | .TEN_CAP_KINDS => 126
  | .TEN_CAP_FORMATS => 31
  | .CUE_ISA_MAJOR => 1
  | .CUE_ISA_MINOR => 4
  | .TCH_LAST_UNIT => 0xffff
  | _ => 0

/-- The width of a field (its Bits column). -/
def Fld.width : Fld → Nat
  | .BLK_BUILD_FULL | .BLK_STRAPS_BOTH_ENDS | .BLK_STRAPS_TEST_EN | .BLK_NODE_LOCK | .BLK_LOCKS_SEC | .BLK_LOCKS_MBX => 1
  | .BLK_LOCKS_FIL | .BLK_LOCKS_MEM | .BLK_FEATURES_TDISP | .BLK_FEATURES_MIGRATION | .BLK_FEATURES_BACKENDS | .BLK_FEATURES_DURABLE => 1
  | .BLK_FEATURES_SERVING | .BLK_ALLOY_SEL_TARGET | .BLK_STATE_ANVIL | .BLK_STATE_READY | .BLK_CTRL_WARM | .BLK_CTRL_DUMP => 1
  | .BLK_CTRL_READMIT | .BLK_CTRL_FENCE | .BLK_STAGE_HELD | .BLK_IMG_CTRL_GO | .BLK_IMG_CTRL_BUSY | .BLK_IMG_CTRL_AUTO => 1
  | .BLK_IMG_CTRL_VALID | .PRM_STATUS_ADMIT_OPEN | .PRM_STATUS_TREF_LOST | .PRM_STATUS_SG_WARM | .PRM_COUNT_CLR_CLEAR_ALL | .TMP_STATUS_DUR_ERR => 1
  | .TMP_STATUS_THERMAL_HIGH | .TMP_CLEAN_EN | .TMP_DUR_SIZE_EN | .MBX_LOCK | .MBX_STAT_FULL_AB | .MBX_STAT_FULL_BA => 1
  | .FLT_DUMP_CTRL_EN | .SLC_STATE_RESETTING | .SLC_STATE_FREEZE_DONE | .SLC_STATE_ZEROISED | .SLC_HOST_BOUND | .SLC_CTRL_RESET => 1
  | .SLC_DLOG_CTRL_EN | .SLC_DLOG_CTRL_BUSY | .SLC_XFER_CTRL_GO | .SLC_XFER_CTRL_BUSY | .SLC_XFER_CTRL_ERR | .SLC_XFER_CTRL_MODE => 1
  | .QCX_STATE_PARKED | .QCX_STATE_CQ_PHASE | .QCX_STATE_CANCEL_EN | .QCX_STATE_ACTIVATE | .QCX_CFG_BE_OK | .QCX_CFG_LC_OK => 1
  | .QCX_CFG_IN_ORDER | .QCX_OWNER_PF | .CST_CAST_VALID | .SRV_STATUS_SEEDED | .SRV_STATUS_LOAD_BUSY | .SRV_SEED_EN => 1
  | .SRV_SEED_PIN | .SRV_ACCT_CLR_ALL | .SRV_SEQ_INFO_OPEN | .SRV_SEQ_INFO_POISONED | .SRV_MDL_CTRL_VALID | .SRV_MDL_CTRL_PINNED => 1
  | .MEM_MAP_LOCK | .MEM_STATUS_MAPPED | .MEM_STATUS_DEGRADED | .MEM_INV_CTRL_GO | .MEM_INV_CTRL_BUSY | .MEM_INV_CTRL_ALL => 1
  | .MEM_HDM_CTRL_EN | .MEM_HOLE_ADDR_VALID | .MEM_HOLE_ADDR_FRAME | .MEM_HOLE_ADDR_STACK | .MEM_HOLE_ADDR_CHANNEL | .MEM_XCTX_ROOT_EN => 1
  | .MEM_XCTX_CFG_ATS | .COH_STATUS_RECALL | .COH_STATUS_WALK | .COH_DEAD_GO | .COH_DEAD_KIND | .COH_DIR_SEL_MODE => 1
  | .COH_DIR_ENT_VALID | .COH_DIR_ENT_PIN | .COH_DIR_ENT_LOST | .COH_DIR_ENT_FAB | .FIL_NODE_LOCK | .FIL_BE_ACTIVE => 1
  | .FIL_PORT_CTRL_ENABLE | .FIL_PORT_CTRL_FENCE | .FIL_PORT_CTRL_ENC_REQ | .FIL_PORT_CTRL_REKEY | .FIL_PORT_STAT_ENCRYPTED | .FIL_MON_CTRL_EN => 1
  | .FIL_MON_CTRL_VIOL_ONLY | .FIL_INJ_GO | .TEN_STATE_SUSPENDED | .TEN_ATT_STATE_SUSPENDED | .TEN_CLR_CLEAR | .CUE_DBG_CTRL_HALT_REQ => 1
  | .CUE_DBG_CTRL_HALTED | .CUE_DBG_CTRL_STEP | .CUE_DBG_CTRL_RESUME | .CUE_CLR_CLEAR | .SEC_CFG_LOCK | .SEC_LINK_CTRL_GO => 1
  | .SEC_LINK_CTRL_BUSY | .SEC_MIG_CTRL_GO | .SEC_PICKLE_BUSY => 1
  | .CIC_VMOD_DELAY_US | .SRV_STATUS_LOAD_MODEL | .SRV_SEED_MODEL | .SRV_SEQ_INFO_MODEL | .SRV_MDL_KV_KV_TOK | .MEM_MAP_LOCAL_GIB => 10
  | .SLC_HOT_FIRST | .CST_BK_STATE_OPEN | .COH_HOME_TRK_OPEN => 11
  | .PRM_STATUS_S_G | .PRM_BURNISH_S_MAX64 | .PRM_BURNISH_S_LAST | .PRM_MON_S_AREA | .SLC_PLACE_BE_FLOOR | .SLC_HOT_COUNT => 12
  | .SLC_DLOG_CTRL_SLICE | .SLC_XFER_CTRL_SLICE | .QCX_OWNER_SLICE | .CST_CAST_LIVE_VER | .CST_CAST_OWNER | .CST_VSLOT01_VER_1 => 12
  | .CST_VSLOT01_VER_0 | .CST_VSLOT23_VER_3 | .CST_VSLOT23_VER_2 | .CST_VINFO_VERSION | .SRV_ACCT_CLR_SLICE | .SRV_SEQ_SEL_SLICE => 12
  | .MEM_SPARE_RESV_MIB | .MEM_INV_CTRL_SLICE | .MEM_HT_STAT_HOLES | .MEM_HOLE_SEL_INDEX | .TEN_STATE_INBOUND | .TEN_LAST_SLICE => 12
  | .TEN_ATT_STATE_PENDING | .SEC_PICKLE_SLICE => 12
  | .SLC_STATE_KEY | .SLC_NODE_RKEY | .SLC_XFER_CTRL_KEY | .SRV_HOT_AREA_MIB | .MEM_HDM_CTRL_KEY | .COH_DIR_SEL_SET => 13
  | .CIC_VMOD_SEL_VECTOR => 14
  | .TMP_DUR_SIZE_SIZE | .SRV_MDL_SIZE_PAGES | .MEM_HDM_CTRL_SIZE | .COH_RESTART_LOG_ENTRIES | .CUE_DBG_SEL_INDEX => 15
  | .BLK_PART_PART | .BLK_RELEASE_PATCH | .BLK_NODE_NODE | .BLK_STATE_WARM_TOTAL | .BLK_IMG_VER_PATCH | .PRM_REFUSED_REMOTE_EXPIRED => 16
  | .PRM_REFUSED_REMOTE_SHORT | .TMP_BUDGET_P_BUDGET | .TMP_BUDGET_P_COMMIT | .TMP_LIMIT_LIMIT_W | .TMP_LIMIT_SURPLUS_W | .TMP_BASE_BASE_W => 16
  | .TMP_TLM_DISCARDS | .TMP_NODE_VIN | .TMP_NODE_IIN | .TMP_HOLDUP_E_USABLE | .TMP_HOLDUP_FIXED_J | .TMP_FLUSH_EPOCH => 16
  | .TMP_QUENCH_VOIDED | .TMP_QUENCH_COUNT | .CIC_MSTAT_SENT | .CIC_MSTAT_DROPPED | .FLT_DUMP_CTRL_TIMEOUTS | .SLC_NODE_NODE => 16
  | .SLC_OPEN_ITEMS | .SLC_CFG_FREE_KEYS | .SLC_CFG_QUAR_MS | .QCX_SQ_PTRS_TAIL | .QCX_SQ_PTRS_HEAD | .QCX_CQ_PTRS_HEAD => 16
  | .QCX_CQ_PTRS_TAIL | .QCX_INFLIGHT_OPEN | .QCX_INFLIGHT_HOLDERS | .QCX_ERR_DB_IGNORED | .CST_CMODEL_MODEL | .CST_VSEL_CAST_ID => 16
  | .SRV_CTRL_TURN_US | .SRV_STATUS_RESIDENT | .SRV_SEED_STAT_SKIPPED | .SRV_SEED_STAT_LOADED | .SRV_SEQ_SEL_SEQID | .SRV_MDL_CTRL_STEP_CAST => 16
  | .SRV_MDL_SHAPE_PREFILL_CAP | .SRV_MDL_STAT_SEQS | .SRV_MDL_STAT_HELD | .SRV_SLC_CFG_SEQ_QUOTA | .SRV_SLC_SEQS_OPEN | .MEM_INV_CTRL_PAGES => 16
  | .MEM_STK_STAT_ATTEMPTS | .MEM_STK_ERR_CORRECTED | .MEM_STK_ERR_UNCORRECTED | .MEM_STK_SPARE_ROWS | .MEM_HT_ERR_CORRECTED | .MEM_HT_ERR_UNCORRECTED => 16
  | .MEM_HOLE_SEL_DROPPED | .COH_CTRL_SNP_LIMIT_US | .COH_STATUS_BARRED | .COH_RECALL_RECALL_MS | .COH_DEAD_NODE | .COH_DIR_ENT_PRES => 16
  | .COH_DIR_ENT_NODE0 | .COH_DIR_ENT_NODE1 | .COH_HPF_BINV | .COH_HPF_ENTRIES | .COH_RESTART_LOG_OVERFLOW | .FIL_NODE_NODE => 16
  | .FIL_BE_BE_NODE | .FIL_LEVEL_BASE | .FIL_LEVEL_MASK | .FIL_UMETER_RATE_PIR | .FIL_UMETER_RATE_CIR | .FIL_PORT_STAT_PARTNER => 16
  | .FIL_PORT_FLIGHT_NS | .FIL_PORT_RES_IN_MBPS | .FIL_PORT_RES_OUT_MBPS | .FIL_PORT_ERR_CRC | .FIL_MON_SIZE_NEXT | .FIL_MON_SIZE_MIB => 16
  | .FIL_INJ_COUNT | .FIL_SLC_RATE_PIR | .FIL_SLC_RATE_CIR | .TEN_ERR_CORRECTED | .TEN_ATT_ERR_CORRECTED | .CUE_CAUSE_COUNT => 16
  | .SEC_MIG_CTRL_NODE | .SEC_ERR_COUNT | .TCH_LAST_UNIT | .TCH_COUNT_DEFERRED | .TCH_COUNT_RUNS | .TCH_UNIT_RUNS => 16
  | .SRV_SEQ_KV_KV_LEN | .COH_HOME_DIR_ENTRIES => 18
  | .BLK_BUILD_TYPE | .BLK_STRAPS_MGT_SRC | .BLK_STRAPS_ALLOY_ROLE | .TMP_FLUSH_STATE | .MBX_ERR_LAST | .MBX_STAT_FAR_OFF => 2
  | .SLC_STATE_KEYST | .CST_VSLOT01_STATE_1 | .CST_VSLOT01_STATE_0 | .CST_VSLOT23_STATE_3 | .CST_VSLOT23_STATE_2 | .CST_VSEL_SLOT => 2
  | .CST_VINFO_STATE | .CST_BK_STATE_STATE | .MEM_CFG_TYPE | .MEM_STK_STAT_REFRESH | .COH_DIR_ENT_SUM | .COH_DIR_ENT_NPTR => 2
  | .FIL_INJ_KIND | .SEC_MIG_CTRL_STATE => 2
  | .MEM_HDM_BASE | .MEM_XCTX_CFG_PASID => 20
  | .BLK_ESC_UNIT_WINDOW_S | .BLK_ESC_SEC_WINDOW_S | .BLK_ESC_BLOCK_WINDOW_S | .FLT_WARM_TOTAL | .FLT_RST_TOTAL | .SRV_KVPOOL_SIZE_PAGES => 24
  | .SRV_KVPOOL_USED_PAGES | .SRV_KVLC_SIZE_PAGES | .SRV_KVLC_USED_PAGES => 24
  | .BLK_IMG_CTRL_LEN => 25
  | .BLK_ACCESS_LAST => 26
  | .FIL_MON_VIOL_COUNT => 28
  | .BLK_STATE_STATE | .TMP_STATUS_STATE | .TMP_VID_VRES | .FLT_DUMP_CTRL_STATUS | .SLC_STATE_STATE | .SLC_HOT_PART => 3
  | .SLC_HOST_PORT | .QCX_STATE_STATE | .QCX_STATE_PRIOR | .QCX_CFG_KIND | .SRV_SEQ_INFO_SECTION | .SRV_MDL_CTRL_STATE => 3
  | .MEM_STK_STAT_STATE | .MEM_STK_STAT_LAST_STEP | .MEM_HT_STAT_STATE | .COH_DIR_SEL_HOME | .FIL_PORT_STAT_STATE | .TEN_STATE_STATE => 3
  | .TEN_ATT_STATE_STATE | .CUE_STATE_STATE | .SEC_ERR_LAST => 3
  | .SLC_DLOG_LO | .SLC_XFER_SRC_OFFSET => 36
  | .BLK_IFACE_FIL_MAJOR | .BLK_IFACE_FIL_MINOR | .BLK_IFACE_CUE_MAJOR | .BLK_IFACE_CUE_MINOR | .BLK_BUILD_D | .BLK_STAGE_STAGE => 4
  | .BLK_STAGE_FAIL_STAGE | .PRM_BURNISH_MAX_SRC | .CIC_STACK_TOP_PRIO | .MBX_STAT_LEN_AB | .MBX_STAT_LEN_BA | .QCX_OWNER_PORT => 4
  | .SRV_SLC_CFG_BE_WEIGHT | .MEM_XCTX_CFG_PORT | .FIL_PORT_STAT_FENCE_CAUSE | .FIL_MON_VIOL_FIRST | .CUE_DBG_CTRL_BKPT_EN | .CUE_DBG_SEL_SPACE => 4
  | .COH_DIR_LINE | .COH_DIR_TAG_LINE => 42
  | .TMP_DUR_BASE | .FLT_DUMP_BASE | .CST_STORE_BASE | .SRV_MDL_SRC_BASE | .FIL_MON_BASE => 43
  | .SRV_KVPOOL_BASE | .SRV_KVLC_BASE | .MEM_HOLE_ADDR_OFFSET => 48
  | .BLK_BUILD_N | .CIC_STACK_DEPTH | .CIC_PSF_DEPTH | .QCX_CFG_LOG2_ENTRIES | .SRV_PART_LC_HTCH | .SRV_PART_LC_CWAYS => 5
  | .MEM_CFG_N | .MEM_STATUS_FAILED_STACKS | .COH_DEAD_MEMBER | .TEN_ERR_SPARES | .TEN_CAP_FORMATS => 5
  | .BLK_IMG_ADDR | .SLC_XFER_DST_ADDR | .QCX_SQ_BASE | .QCX_CQ_BASE | .MEM_INV_VA | .MEM_XCTX_ROOT_ROOT => 52
  | .SLC_DLOG_BASE | .QCX_TAIL_LINE => 58
  | .BLK_STRAPS_MGT_FP | .BLK_ACCESS_COUNT | .TMP_STATUS_CODE | .TMP_VID_FLOOR_CODE | .TMP_CLEAN_HI | .TMP_CLEAN_LO => 6
  | .MBX_ERR_CHANNEL | .FLT_DUMP_CTRL_CHANNEL | .QCX_OWNER_SLOT | .QCX_BIND_CORE | .MEM_HT_STAT_SPARE_LEFT | .FIL_MON_CTRL_PORT => 6
  | .FIL_INJ_PORT | .SEC_LINK_CTRL_PORT => 6
  | .CUE_PC | .CUE_BKPT_ADDR => 62
  | .BLK_UID | .BLK_OOS_TE_UNITS | .BLK_OOS_CUE_UNITS | .BLK_TIME_NS | .BLK_IMG_DATA | .SLC_PORTS => 64
  | .CST_VADDR_ADDR | .FIL_ROUTE_ENTRY | .CUE_DBG_DATA => 64
  | .BLK_STRAPS_I3C_SA | .BLK_STAGE_DONE | .PRM_STATUS_READINGS | .CIC_STACK_TOP_SRC | .CIC_PSF_NAMED | .CIC_PSF_TOP => 7
  | .SLC_PLACE_QUEUES | .SLC_OPEN_QUEUES | .SRV_LOAD_RES_SHARE | .MEM_CFG_P | .FIL_CTRL_PT_QUANTUM | .FIL_SLC_SHAPE_QUANTUM => 7
  | .TEN_STATE_GRANTS | .CUE_STATE_RECORDS => 7
  | .BLK_PART_STEPPING | .BLK_RELEASE_MAJOR | .BLK_RELEASE_MINOR | .BLK_IFACE_PHINA_MAJOR | .BLK_IFACE_PHINA_MINOR | .BLK_BUILD_STACK_GIB => 8
  | .BLK_OOS_SEC_ATT | .BLK_OOS_SEC_SECTIONS | .BLK_ESC_UNIT_LIMIT | .BLK_ESC_SEC_LIMIT | .BLK_ESC_BLOCK_LIMIT | .BLK_CAUSE => 8
  | .BLK_STAGE_FAIL_CODE | .BLK_ATTEMPT_IMAGE | .BLK_ATTEMPT_MEMORY | .BLK_ATTEMPT_EDGE | .BLK_ATTEMPT_TOUCHSTONE | .BLK_IMG_VER_MAJOR => 8
  | .BLK_IMG_VER_MINOR | .PRM_MON_MON_OK | .TMP_VID_DS | .TMP_VID_VID_FAULTS | .TMP_THERM_TJ_MAX | .TMP_THERM_MS_MAX => 8
  | .TMP_THERM_TJ_AHEAD | .TMP_THERM_MS_HOT | .TMP_TLM_STALE_US | .TMP_TLM_AGE_MAX | .TMP_FLUSH_FAILED | .CIC_PSF_COUNT => 8
  | .CIC_VMOD_COUNT | .CIC_VMOD_THRESH | .CIC_MCAUSE_CAUSE | .CIC_MEN_EN | .MBX_ERR_DOMAIN_OFF | .MBX_ERR_DENIED => 8
  | .MBX_ERR_IGNORED | .MBX_STAT_LOST | .FLT_WARM_IN_WINDOW | .FLT_RST_IN_WINDOW | .SLC_PLACE_SECTIONS | .SLC_LC_LO_SHARE3 => 8
  | .SLC_LC_LO_SHARE2 | .SLC_LC_LO_SHARE1 | .SLC_LC_LO_SHARE0 | .SLC_LC_HI_SHARE7 | .SLC_LC_HI_SHARE6 | .SLC_LC_HI_SHARE5 => 8
  | .SLC_LC_HI_SHARE4 | .QCX_ERR_LAST_ERR | .CST_BK_STATE_LATE_IN_WINDOW | .SRV_CTRL_LC_CAP | .SRV_PART_LC_PC | .SRV_MDL_CTRL_PARTS => 8
  | .SRV_MDL_KV_LAYERS | .SRV_MDL_SHAPE_LC_SHARE | .SRV_SLC_CFG_COLD_LIMIT | .MEM_CFG_STACK_GIB | .MEM_SPARE_BANK_ROWS | .MEM_SPARE_ROW_CE => 8
  | .MEM_SCRUB_PERIOD_H | .MEM_STK_STAT_TRN_STAT | .MEM_STK_SPARE_BANKS | .COH_CTRL_STAKE_LIFE_US | .COH_HOME_TRK_STAKE | .COH_HOME_TRK_WBK => 8
  | .COH_DIR_ENT_OWNER | .FIL_PORT_STAT_MINOR | .FIL_PORT_ERR_AUTH | .FIL_PORT_ERR_TRAIN_FAILS | .TEN_CB_VALID | .TEN_CB_HELD => 8
  | .TEN_ERR_UNCORRECTED | .TEN_LAST_CHECK | .TEN_ATT_ERR_UNCORRECTED | .TEN_CAP_KINDS | .CUE_STATE_WINDOW_KIB | .CUE_CAUSE_CAUSE => 8
  | .CUE_ISA_MAJOR | .CUE_ISA_MINOR | .TCH_LAST_PASSED | .TCH_LAST_FAILED | .TCH_UNIT_LAST_TESTS | .TCH_UNIT_LAST_FAILED => 8
  | .SLC_HOST_VF | .QCX_OWNER_VF | .COH_HOME_DIR_OVERFLOW | .COH_DIR_SEL_WAY => 9
  | _ => 32

/-- What a core warm reset does to a field. TMP_STATUS.CODE keeps the code last acknowledged, and the W1C field beside it its value: R248
returns RO fields to their reset values and names neither, and Table 16-9 keeps the VID code (DESIGN CHOICE, log entry 98). -/
def Fld.warm : Fld → Warm
  | .SLC_STATE_STATE | .SLC_STATE_RESETTING | .SLC_STATE_FREEZE_DONE | .SLC_STATE_KEYST | .SLC_STATE_ZEROISED | .SLC_STATE_KEY => .others
  | .SLC_PLACE_SECTIONS | .SLC_PLACE_BE_FLOOR | .SLC_PLACE_QUEUES | .SLC_LC_LO_SHARE3 | .SLC_LC_LO_SHARE2 | .SLC_LC_LO_SHARE1 => .others
  | .SLC_LC_LO_SHARE0 | .SLC_LC_HI_SHARE7 | .SLC_LC_HI_SHARE6 | .SLC_LC_HI_SHARE5 | .SLC_LC_HI_SHARE4 | .SLC_PORTS => .others
  | .SLC_MEMQ_MIB | .SLC_HOT_PART | .SLC_HOT_FIRST | .SLC_HOT_COUNT | .SLC_HOST_BOUND | .SLC_HOST_PORT => .others
  | .SLC_HOST_VF | .SLC_NODE_RKEY | .SLC_NODE_NODE | .SLC_CTRL_RESET | .SLC_OPEN_ITEMS | .SLC_OPEN_QUEUES => .others
  | .SLC_MEMUSE_MIB | .SLC_DRAIN_REFS | .SLC_SCRUB_PAGES | .QCX_STATE_STATE | .QCX_STATE_PRIOR | .QCX_STATE_PARKED => .others
  | .QCX_STATE_CQ_PHASE | .QCX_STATE_CANCEL_EN | .QCX_STATE_ACTIVATE | .QCX_CFG_KIND | .QCX_CFG_BE_OK | .QCX_CFG_LC_OK => .others
  | .QCX_CFG_IN_ORDER | .QCX_CFG_LOG2_ENTRIES | .QCX_OWNER_SLICE | .QCX_OWNER_SLOT | .QCX_OWNER_PORT | .QCX_OWNER_PF => .others
  | .QCX_OWNER_VF | .QCX_BIND_CORE | .QCX_SQ_BASE | .QCX_CQ_BASE | .QCX_TIMEOUT | .QCX_SQ_PTRS_TAIL => .others
  | .QCX_SQ_PTRS_HEAD | .QCX_CQ_PTRS_HEAD | .QCX_CQ_PTRS_TAIL | .QCX_INFLIGHT_OPEN | .QCX_INFLIGHT_HOLDERS | .QCX_TAIL_LINE => .others
  | .QCX_ERR_LAST_ERR | .QCX_ERR_DB_IGNORED | .QCX_CNT_COUNT => .others
  | .BLK_STEWARD_VERSION | .PRM_STATUS_SG_WARM | .PRM_STATUS_READINGS | .PRM_STATUS_S_G | .PRM_BURNISH_MAX_SRC | .PRM_BURNISH_S_MAX64 => .reset
  | .PRM_BURNISH_S_LAST | .PRM_REFUSED_COUNT | .PRM_VOIDED_COUNT | .PRM_BROKEN_COUNT | .PRM_REFUSED_REMOTE_EXPIRED | .PRM_REFUSED_REMOTE_SHORT => .reset
  | .PRM_COUNT_CLR_CLEAR_ALL | .TMP_STATUS_STATE | .TMP_STATUS_THERMAL_HIGH | .TMP_BUDGET_P_BUDGET | .TMP_BUDGET_P_COMMIT | .TMP_VID_FLOOR_CODE => .reset
  | .TMP_VID_VID_FAULTS | .TMP_THERM_TJ_MAX | .TMP_THERM_MS_MAX | .TMP_TLM_DISCARDS | .TMP_NODE_VIN | .TMP_NODE_IIN => .reset
  | .TMP_HOLDUP_E_USABLE | .TMP_DUR_COVER_PAGES | .TMP_DUR_RESV_PAGES | .TMP_QUENCH_VOIDED | .TMP_QUENCH_COUNT | .CIC_PEND => .reset
  | .CIC_SET | .CIC_EN | .CIC_PRIO | .CIC_STACK_DEPTH | .CIC_STACK_TOP_PRIO | .CIC_STACK_TOP_SRC => .reset
  | .CIC_PSF_COUNT | .CIC_PSF_NAMED | .CIC_PSF_TOP | .CIC_PSF_DEPTH | .CIC_VMOD_COUNT | .CIC_MSTAT_SENT => .reset
  | .CIC_MSTAT_DROPPED | .SLC_DLOG_CTRL_BUSY | .SLC_XFER_CTRL_GO | .SLC_XFER_CTRL_BUSY | .SLC_XFER_CTRL_ERR | .SLC_XFER_DONE_PAGES => .reset
  | .CST_CAST_VALID | .CST_CAST_LIVE_VER | .CST_CAST_OWNER | .CST_VSLOT01_STATE_1 | .CST_VSLOT01_VER_1 | .CST_VSLOT01_STATE_0 => .reset
  | .CST_VSLOT01_VER_0 | .CST_VSLOT23_STATE_3 | .CST_VSLOT23_VER_3 | .CST_VSLOT23_STATE_2 | .CST_VSLOT23_VER_2 | .CST_CMODEL_MODEL => .reset
  | .CST_STORE_USED_USED_KIB | .CST_VINFO_STATE | .CST_VINFO_VERSION | .CST_VPINS_LAUNCHES | .CST_VADDR_ADDR | .CST_VLEN_IMAGE_LEN => .reset
  | .CST_STALE_COUNT | .CST_BK_STATE_STATE | .CST_BK_STATE_LATE_IN_WINDOW | .CST_BK_STATE_OPEN | .CST_BK_WBOUND_W_BOUND | .CST_BK_LATE_COUNT => .reset
  | .CST_BK_DROPPED_COUNT | .CST_BK_FAILED_COUNT | .SRV_STATUS_SEEDED | .SRV_STATUS_LOAD_BUSY | .SRV_STATUS_LOAD_MODEL | .SRV_STATUS_RESIDENT => .reset
  | .SRV_SEED_STAT_SKIPPED | .SRV_SEED_STAT_LOADED | .SRV_ACCT_CLR_ALL | .SRV_ACCT_CLR_SLICE | .SRV_SEQ_INFO_OPEN | .SRV_SEQ_INFO_POISONED => .reset
  | .SRV_SEQ_INFO_SECTION | .SRV_SEQ_INFO_MODEL | .SRV_SEQ_KV_KV_LEN | .SRV_KVPOOL_USED_PAGES | .SRV_KVLC_USED_PAGES | .SRV_MDL_CTRL_STATE => .reset
  | .SRV_MDL_CTRL_PINNED | .SRV_MDL_CTRL_PARTS | .SRV_MDL_STAT_SEQS | .SRV_MDL_STAT_HELD | .SRV_MDL_LOADS_COUNT | .SRV_SLC_WAIT_COUNT => .reset
  | .SRV_SLC_ADMIT_COUNT | .SRV_SLC_STEPWAIT_COUNT | .SRV_SLC_PREEMPT_COUNT | .SRV_SLC_OVERRUN_COUNT | .SRV_SLC_COLD_COUNT | .SRV_SLC_SEQS_OPEN => .reset
  | .MEM_INV_CTRL_GO | .MEM_INV_CTRL_BUSY | .MEM_INV_CTRL_ALL | .MEM_INV_CTRL_PAGES | .MEM_INV_CTRL_SLICE | .MEM_HT_STAT_STATE => .reset
  | .MEM_HT_STAT_HOLES | .MEM_HT_STAT_SPARE_LEFT | .MEM_HT_ERR_CORRECTED | .MEM_HT_ERR_UNCORRECTED | .COH_STATUS_RECALL | .COH_STATUS_WALK => .reset
  | .COH_STATUS_BARRED | .COH_DEAD_GO | .COH_DEAD_KIND | .COH_DEAD_MEMBER | .COH_DEAD_NODE | .COH_HOME_TRK_OPEN => .reset
  | .COH_HOME_TRK_STAKE | .COH_HOME_TRK_WBK | .COH_HOME_DIR_ENTRIES | .COH_HOME_DIR_OVERFLOW | .COH_HOME_NEXT_TICKET | .COH_HOME_HEAD_TICKET => .reset
  | .COH_HOME_NACK_COUNT | .COH_HOME_BINV_COUNT | .COH_HOME_LOST_COUNT | .COH_HOME_LAPSE_COUNT | .COH_DIR_ENT_VALID | .COH_DIR_ENT_PIN => .reset
  | .COH_DIR_ENT_LOST | .COH_DIR_ENT_SUM | .COH_DIR_ENT_FAB | .COH_DIR_ENT_NPTR | .COH_DIR_ENT_PRES | .COH_DIR_ENT_OWNER => .reset
  | .COH_DIR_ENT_NODE0 | .COH_DIR_ENT_NODE1 | .COH_DIR_TAG_LINE | .TEN_STATE_STATE | .TEN_STATE_SUSPENDED | .TEN_STATE_GRANTS => .reset
  | .TEN_STATE_INBOUND | .TEN_CB_VALID | .TEN_CB_HELD | .TEN_CB_LOADS_COUNT | .TEN_OPS_COUNT | .TEN_BUSY_US => .reset
  | .TEN_PREEMPT_COUNT | .TEN_ERR_CORRECTED | .TEN_ERR_UNCORRECTED | .TEN_ERR_SPARES | .TEN_LAST_CHECK | .TEN_LAST_SLICE => .reset
  | .TEN_ATT_STATE_STATE | .TEN_ATT_STATE_SUSPENDED | .TEN_ATT_STATE_PENDING | .TEN_ATT_PAGES_COUNT | .TEN_ATT_ERR_CORRECTED | .TEN_ATT_ERR_UNCORRECTED => .reset
  | .TEN_CAP_KINDS | .TEN_CAP_FORMATS | .TEN_CLR_CLEAR | .CUE_STATE_STATE | .CUE_STATE_RECORDS | .CUE_STATE_WINDOW_KIB => .reset
  | .CUE_DBG_CTRL_HALT_REQ | .CUE_DBG_CTRL_HALTED | .CUE_DBG_CTRL_STEP | .CUE_DBG_CTRL_RESUME | .CUE_DBG_CTRL_BKPT_EN | .CUE_PC => .reset
  | .CUE_BKPT_ADDR | .CUE_DBG_SEL_SPACE | .CUE_DBG_SEL_INDEX | .CUE_DBG_DATA | .CUE_CAUSE_CAUSE | .CUE_CAUSE_COUNT => .reset
  | .CUE_STRETCH_MAX_NS | .CUE_OVERRUN_COUNT | .CUE_RETIRED_COUNT | .CUE_CLR_CLEAR | .CUE_ISA_MAJOR | .CUE_ISA_MINOR => .reset
  | .SEC_MIG_CTRL_GO | .SEC_MIG_CTRL_STATE | .SEC_MIG_CTRL_NODE | .SEC_PICKLE_BUSY | .SEC_PICKLE_SLICE | .SEC_ERR_LAST => .reset
  | .SEC_ERR_COUNT => .reset
  | .PRM_MON_MON_OK | .PRM_MON_S_AREA => .sections
  | _ => .keep

/-- The BLKId registers. -/
def regsBLKId : List RegDesc := [
  ⟨0x0, 0x0, 1, 0, 1, 32,
    [⟨.BLK_ID_MAGIC, 0, 32, .ro, .keep⟩]⟩,
  ⟨0x4, 0x0, 1, 0, 1, 32,
    [⟨.BLK_PART_PART, 16, 16, .ro, .keep⟩, ⟨.BLK_PART_STEPPING, 0, 8, .ro, .keep⟩]⟩,
  ⟨0x8, 0x0, 1, 0, 1, 32,
    [⟨.BLK_RELEASE_MAJOR, 24, 8, .ro, .keep⟩, ⟨.BLK_RELEASE_MINOR, 16, 8, .ro, .keep⟩, ⟨.BLK_RELEASE_PATCH, 0, 16, .ro, .keep⟩]⟩,
  ⟨0xc, 0x0, 1, 0, 1, 32,
    [⟨.BLK_STEWARD_VERSION, 0, 32, .ro, .reset⟩]⟩,
  ⟨0x10, 0x0, 1, 0, 1, 32,
    [⟨.BLK_IFACE_PHINA_MAJOR, 24, 8, .ro, .keep⟩, ⟨.BLK_IFACE_PHINA_MINOR, 16, 8, .ro, .keep⟩, ⟨.BLK_IFACE_FIL_MAJOR, 12, 4, .ro, .keep⟩, ⟨.BLK_IFACE_FIL_MINOR, 8, 4, .ro, .keep⟩, ⟨.BLK_IFACE_CUE_MAJOR, 4, 4, .ro, .keep⟩, ⟨.BLK_IFACE_CUE_MINOR, 0, 4, .ro, .keep⟩]⟩,
  ⟨0x14, 0x0, 1, 0, 1, 32,
    [⟨.BLK_BUILD_TYPE, 30, 2, .ro, .keep⟩, ⟨.BLK_BUILD_FULL, 29, 1, .ro, .keep⟩, ⟨.BLK_BUILD_STACK_GIB, 16, 8, .ro, .keep⟩, ⟨.BLK_BUILD_N, 8, 5, .ro, .keep⟩, ⟨.BLK_BUILD_D, 0, 4, .ro, .keep⟩]⟩,
  ⟨0x18, 0x0, 1, 0, 1, 32,
    [⟨.BLK_STRAPS_MGT_SRC, 30, 2, .ro, .keep⟩, ⟨.BLK_STRAPS_MGT_FP, 24, 6, .ro, .keep⟩, ⟨.BLK_STRAPS_I3C_SA, 16, 7, .ro, .keep⟩, ⟨.BLK_STRAPS_ALLOY_ROLE, 14, 2, .ro, .keep⟩, ⟨.BLK_STRAPS_BOTH_ENDS, 13, 1, .ro, .keep⟩, ⟨.BLK_STRAPS_TEST_EN, 12, 1, .ro, .keep⟩]⟩,
  ⟨0x20, 0x0, 1, 0, 1, 64,
    [⟨.BLK_UID, 0, 64, .ro, .keep⟩]⟩,
  ⟨0x28, 0x0, 1, 0, 1, 32,
    [⟨.BLK_NODE_LOCK, 31, 1, .ro, .keep⟩, ⟨.BLK_NODE_NODE, 0, 16, .ro, .keep⟩]⟩,
  ⟨0x2c, 0x0, 1, 0, 1, 32,
    [⟨.BLK_LOCKS_SEC, 3, 1, .ro, .keep⟩, ⟨.BLK_LOCKS_MBX, 2, 1, .ro, .keep⟩, ⟨.BLK_LOCKS_FIL, 1, 1, .ro, .keep⟩, ⟨.BLK_LOCKS_MEM, 0, 1, .ro, .keep⟩]⟩,
  ⟨0x30, 0x0, 1, 0, 1, 32,
    [⟨.BLK_FEATURES_TDISP, 4, 1, .ro, .keep⟩, ⟨.BLK_FEATURES_MIGRATION, 3, 1, .ro, .keep⟩, ⟨.BLK_FEATURES_BACKENDS, 2, 1, .ro, .keep⟩, ⟨.BLK_FEATURES_DURABLE, 1, 1, .ro, .keep⟩, ⟨.BLK_FEATURES_SERVING, 0, 1, .ro, .keep⟩]⟩,
  ⟨0x34, 0x0, 1, 0, 1, 32,
    [⟨.BLK_ACCESS_COUNT, 26, 6, .ro, .keep⟩, ⟨.BLK_ACCESS_LAST, 0, 26, .ro, .keep⟩]⟩,
  ⟨0x40, 0x0, 1, 0, 1, 32,
    [⟨.BLK_ALLOY_SEL_TARGET, 0, 1, .rw, .keep⟩]⟩]

/-- The BLK registers. -/
def regsBLK : List RegDesc := [
  ⟨0x10000, 0x0, 1, 0, 1, 32,
    [⟨.BLK_STATE_STATE, 29, 3, .ro, .keep⟩, ⟨.BLK_STATE_ANVIL, 28, 1, .ro, .keep⟩, ⟨.BLK_STATE_READY, 27, 1, .ro, .keep⟩, ⟨.BLK_STATE_WARM_TOTAL, 0, 16, .ro, .keep⟩]⟩,
  ⟨0x10004, 0x0, 1, 0, 1, 32,
    [⟨.BLK_CTRL_WARM, 31, 1, .w1s, .keep⟩, ⟨.BLK_CTRL_DUMP, 30, 1, .rw, .keep⟩, ⟨.BLK_CTRL_READMIT, 29, 1, .w1s, .keep⟩, ⟨.BLK_CTRL_FENCE, 28, 1, .w1s, .keep⟩]⟩,
  ⟨0x10008, 0x0, 1, 0, 1, 64,
    [⟨.BLK_OOS_TE_UNITS, 0, 64, .ro, .keep⟩]⟩,
  ⟨0x10010, 0x0, 1, 0, 1, 64,
    [⟨.BLK_OOS_CUE_UNITS, 0, 64, .ro, .keep⟩]⟩,
  ⟨0x10018, 0x0, 1, 0, 1, 32,
    [⟨.BLK_OOS_ME_UNITS, 0, 32, .ro, .keep⟩]⟩,
  ⟨0x1001c, 0x0, 1, 0, 1, 32,
    [⟨.BLK_OOS_SEC_ATT, 8, 8, .ro, .keep⟩, ⟨.BLK_OOS_SEC_SECTIONS, 0, 8, .ro, .keep⟩]⟩,
  ⟨0x10020, 0x0, 1, 0, 1, 32,
    [⟨.BLK_ESC_UNIT_LIMIT, 24, 8, .rw, .keep⟩, ⟨.BLK_ESC_UNIT_WINDOW_S, 0, 24, .rw, .keep⟩]⟩,
  ⟨0x10024, 0x0, 1, 0, 1, 32,
    [⟨.BLK_ESC_SEC_LIMIT, 24, 8, .rw, .keep⟩, ⟨.BLK_ESC_SEC_WINDOW_S, 0, 24, .rw, .keep⟩]⟩,
  ⟨0x10028, 0x0, 1, 0, 1, 32,
    [⟨.BLK_ESC_BLOCK_LIMIT, 24, 8, .rw, .keep⟩, ⟨.BLK_ESC_BLOCK_WINDOW_S, 0, 24, .rw, .keep⟩]⟩,
  ⟨0x1002c, 0x0, 1, 0, 1, 32,
    [⟨.BLK_CAUSE, 24, 8, .ro, .keep⟩]⟩,
  ⟨0x10030, 0x0, 1, 0, 1, 32,
    [⟨.BLK_CAUSE_REF_INDEX, 0, 32, .ro, .keep⟩]⟩,
  ⟨0x10038, 0x0, 1, 0, 1, 64,
    [⟨.BLK_TIME_NS, 0, 64, .ro, .keep⟩]⟩,
  ⟨0x10080, 0x0, 1, 0, 1, 32,
    [⟨.BLK_STAGE_STAGE, 28, 4, .ro, .keep⟩, ⟨.BLK_STAGE_FAIL_STAGE, 24, 4, .ro, .keep⟩, ⟨.BLK_STAGE_FAIL_CODE, 16, 8, .ro, .keep⟩, ⟨.BLK_STAGE_DONE, 8, 7, .ro, .keep⟩, ⟨.BLK_STAGE_HELD, 7, 1, .ro, .keep⟩]⟩,
  ⟨0x10084, 0x0, 1, 0, 1, 32,
    [⟨.BLK_ATTEMPT_IMAGE, 24, 8, .ro, .keep⟩, ⟨.BLK_ATTEMPT_MEMORY, 16, 8, .ro, .keep⟩, ⟨.BLK_ATTEMPT_EDGE, 8, 8, .ro, .keep⟩, ⟨.BLK_ATTEMPT_TOUCHSTONE, 0, 8, .ro, .keep⟩]⟩,
  ⟨0x10088, 0x0, 1, 0, 1, 64,
    [⟨.BLK_IMG_ADDR, 12, 52, .rw, .keep⟩]⟩,
  ⟨0x10090, 0x0, 1, 0, 1, 32,
    [⟨.BLK_IMG_CTRL_GO, 31, 1, .w1s, .keep⟩, ⟨.BLK_IMG_CTRL_BUSY, 30, 1, .ro, .keep⟩, ⟨.BLK_IMG_CTRL_AUTO, 29, 1, .rw, .keep⟩, ⟨.BLK_IMG_CTRL_VALID, 28, 1, .ro, .keep⟩, ⟨.BLK_IMG_CTRL_LEN, 0, 25, .rw, .keep⟩]⟩,
  ⟨0x10098, 0x0, 1, 0, 1, 64,
    [⟨.BLK_IMG_DATA, 0, 64, .wo, .keep⟩]⟩,
  ⟨0x100a0, 0x0, 1, 0, 1, 32,
    [⟨.BLK_IMG_VER_MAJOR, 24, 8, .ro, .keep⟩, ⟨.BLK_IMG_VER_MINOR, 16, 8, .ro, .keep⟩, ⟨.BLK_IMG_VER_PATCH, 0, 16, .ro, .keep⟩]⟩]

/-- The PRM registers. -/
def regsPRM : List RegDesc := [
  ⟨0x20000, 0x0, 1, 0, 1, 32,
    [⟨.PRM_STATUS_ADMIT_OPEN, 31, 1, .ro, .keep⟩, ⟨.PRM_STATUS_TREF_LOST, 30, 1, .ro, .keep⟩, ⟨.PRM_STATUS_SG_WARM, 29, 1, .ro, .reset⟩, ⟨.PRM_STATUS_READINGS, 16, 7, .ro, .reset⟩, ⟨.PRM_STATUS_S_G, 0, 12, .ro, .reset⟩]⟩,
  ⟨0x20004, 0x0, 1, 0, 1, 32,
    [⟨.PRM_BURNISH_MAX_SRC, 28, 4, .ro, .reset⟩, ⟨.PRM_BURNISH_S_MAX64, 16, 12, .ro, .reset⟩, ⟨.PRM_BURNISH_S_LAST, 0, 12, .ro, .reset⟩]⟩,
  ⟨0x20010, 0x4, 9, 0, 1, 32,
    [⟨.PRM_MON_MON_OK, 16, 8, .ro, .sections⟩, ⟨.PRM_MON_S_AREA, 0, 12, .ro, .sections⟩]⟩,
  ⟨0x20040, 0x0, 1, 0, 1, 32,
    [⟨.PRM_MAX_BOUND_MAX_BOUND, 0, 32, .rw, .keep⟩]⟩,
  ⟨0x20044, 0x0, 1, 0, 1, 32,
    [⟨.PRM_REMOTE_RT_REMOTE_RT, 0, 32, .rw, .keep⟩]⟩,
  ⟨0x20080, 0x4, 8, 0, 1, 32,
    [⟨.PRM_REFUSED_COUNT, 0, 32, .ro, .reset⟩]⟩,
  ⟨0x200a0, 0x4, 4, 0, 1, 32,
    [⟨.PRM_VOIDED_COUNT, 0, 32, .ro, .reset⟩]⟩,
  ⟨0x200b0, 0x0, 1, 0, 1, 32,
    [⟨.PRM_BROKEN_COUNT, 0, 32, .ro, .reset⟩]⟩,
  ⟨0x200b4, 0x0, 1, 0, 1, 32,
    [⟨.PRM_REFUSED_REMOTE_EXPIRED, 16, 16, .ro, .reset⟩, ⟨.PRM_REFUSED_REMOTE_SHORT, 0, 16, .ro, .reset⟩]⟩,
  ⟨0x200c0, 0x0, 1, 0, 1, 32,
    [⟨.PRM_COUNT_CLR_CLEAR_ALL, 0, 1, .wo, .reset⟩]⟩]

/-- The TMP registers. -/
def regsTMP : List RegDesc := [
  ⟨0x30000, 0x0, 1, 0, 1, 32,
    [⟨.TMP_STATUS_STATE, 29, 3, .ro, .reset⟩, ⟨.TMP_STATUS_DUR_ERR, 28, 1, .w1c, .keep⟩, ⟨.TMP_STATUS_THERMAL_HIGH, 27, 1, .ro, .reset⟩, ⟨.TMP_STATUS_CODE, 0, 6, .ro, .keep⟩]⟩,
  ⟨0x30004, 0x0, 1, 0, 1, 32,
    [⟨.TMP_BUDGET_P_BUDGET, 16, 16, .ro, .reset⟩, ⟨.TMP_BUDGET_P_COMMIT, 0, 16, .ro, .reset⟩]⟩,
  ⟨0x30008, 0x0, 1, 0, 1, 32,
    [⟨.TMP_LIMIT_LIMIT_W, 16, 16, .rw, .keep⟩, ⟨.TMP_LIMIT_SURPLUS_W, 0, 16, .rw, .keep⟩]⟩,
  ⟨0x3000c, 0x0, 1, 0, 1, 32,
    [⟨.TMP_BASE_BASE_W, 0, 16, .rw, .keep⟩]⟩,
  ⟨0x30010, 0x0, 1, 0, 1, 32,
    [⟨.TMP_VID_DS, 24, 8, .rw, .keep⟩, ⟨.TMP_VID_VRES, 16, 3, .rw, .keep⟩, ⟨.TMP_VID_FLOOR_CODE, 8, 6, .ro, .reset⟩, ⟨.TMP_VID_VID_FAULTS, 0, 8, .ro, .reset⟩]⟩,
  ⟨0x30014, 0x0, 1, 0, 1, 32,
    [⟨.TMP_THERM_TJ_MAX, 24, 8, .ro, .reset⟩, ⟨.TMP_THERM_MS_MAX, 16, 8, .ro, .reset⟩, ⟨.TMP_THERM_TJ_AHEAD, 8, 8, .rw, .keep⟩, ⟨.TMP_THERM_MS_HOT, 0, 8, .rw, .keep⟩]⟩,
  ⟨0x30018, 0x0, 1, 0, 1, 32,
    [⟨.TMP_TLM_STALE_US, 24, 8, .rw, .keep⟩, ⟨.TMP_TLM_AGE_MAX, 16, 8, .rw, .keep⟩, ⟨.TMP_TLM_DISCARDS, 0, 16, .ro, .reset⟩]⟩,
  ⟨0x3001c, 0x0, 1, 0, 1, 32,
    [⟨.TMP_NODE_VIN, 16, 16, .ro, .reset⟩, ⟨.TMP_NODE_IIN, 0, 16, .ro, .reset⟩]⟩,
  ⟨0x30020, 0x0, 1, 0, 1, 32,
    [⟨.TMP_HOLDUP_E_USABLE, 16, 16, .ro, .reset⟩, ⟨.TMP_HOLDUP_FIXED_J, 0, 16, .rw, .keep⟩]⟩,
  ⟨0x30024, 0x0, 1, 0, 1, 32,
    [⟨.TMP_DUR_COVER_PAGES, 0, 32, .ro, .reset⟩]⟩,
  ⟨0x30028, 0x0, 1, 0, 1, 32,
    [⟨.TMP_DUR_DIRTY_PAGES, 0, 32, .ro, .keep⟩]⟩,
  ⟨0x3002c, 0x0, 1, 0, 1, 32,
    [⟨.TMP_DUR_RESV_PAGES, 0, 32, .ro, .reset⟩]⟩,
  ⟨0x30030, 0x0, 1, 0, 1, 32,
    [⟨.TMP_CLEAN_EN, 31, 1, .rw, .keep⟩, ⟨.TMP_CLEAN_HI, 8, 6, .rw, .keep⟩, ⟨.TMP_CLEAN_LO, 0, 6, .rw, .keep⟩]⟩,
  ⟨0x30034, 0x0, 1, 0, 1, 32,
    [⟨.TMP_FLUSH_STATE, 30, 2, .ro, .keep⟩, ⟨.TMP_FLUSH_FAILED, 16, 8, .ro, .keep⟩, ⟨.TMP_FLUSH_EPOCH, 0, 16, .ro, .keep⟩]⟩,
  ⟨0x30038, 0x0, 1, 0, 1, 32,
    [⟨.TMP_QUENCH_VOIDED, 16, 16, .ro, .reset⟩, ⟨.TMP_QUENCH_COUNT, 0, 16, .ro, .reset⟩]⟩,
  ⟨0x30100, 0x10, 64, 0, 1, 64,
    [⟨.TMP_DUR_BASE, 21, 43, .rw, .keep⟩]⟩,
  ⟨0x30108, 0x10, 64, 0, 1, 64,
    [⟨.TMP_DUR_SIZE_EN, 63, 1, .rw, .keep⟩, ⟨.TMP_DUR_SIZE_SIZE, 48, 15, .rw, .keep⟩, ⟨.TMP_DUR_SIZE_DIRTY, 0, 32, .ro, .keep⟩]⟩]

/-- The CIC registers. -/
def regsCIC : List RegDesc := [
  ⟨0x40000, 0x200, 64, 4, 4, 32,
    [⟨.CIC_PEND, 0, 32, .w1c, .reset⟩]⟩,
  ⟨0x40010, 0x200, 64, 4, 4, 32,
    [⟨.CIC_SET, 0, 32, .w1s, .reset⟩]⟩,
  ⟨0x40020, 0x200, 64, 4, 4, 32,
    [⟨.CIC_EN, 0, 32, .rw, .reset⟩]⟩,
  ⟨0x40040, 0x200, 64, 4, 16, 32,
    [⟨.CIC_PRIO, 0, 32, .rw, .reset⟩]⟩,
  ⟨0x40080, 0x200, 64, 4, 1, 32,
    [⟨.CIC_STACK_DEPTH, 16, 5, .ro, .reset⟩, ⟨.CIC_STACK_TOP_PRIO, 8, 4, .ro, .reset⟩, ⟨.CIC_STACK_TOP_SRC, 0, 7, .ro, .reset⟩]⟩,
  ⟨0x40084, 0x200, 64, 4, 1, 32,
    [⟨.CIC_PSF_COUNT, 24, 8, .ro, .reset⟩, ⟨.CIC_PSF_NAMED, 15, 7, .ro, .reset⟩, ⟨.CIC_PSF_TOP, 8, 7, .ro, .reset⟩, ⟨.CIC_PSF_DEPTH, 0, 5, .ro, .reset⟩]⟩,
  ⟨0x48000, 0x0, 1, 0, 1, 32,
    [⟨.CIC_VMOD_SEL_VECTOR, 0, 14, .rw, .keep⟩]⟩,
  ⟨0x48004, 0x0, 1, 0, 1, 32,
    [⟨.CIC_VMOD_COUNT, 24, 8, .ro, .reset⟩, ⟨.CIC_VMOD_THRESH, 16, 8, .rw, .keep⟩, ⟨.CIC_VMOD_DELAY_US, 0, 10, .rw, .keep⟩]⟩,
  ⟨0x48010, 0x0, 1, 0, 1, 32,
    [⟨.CIC_MCAUSE_CAUSE, 1, 8, .w1c, .keep⟩]⟩,
  ⟨0x48014, 0x0, 1, 0, 1, 32,
    [⟨.CIC_MEN_EN, 1, 8, .rw, .keep⟩]⟩,
  ⟨0x48018, 0x0, 1, 0, 1, 32,
    [⟨.CIC_MSTAT_SENT, 16, 16, .ro, .reset⟩, ⟨.CIC_MSTAT_DROPPED, 0, 16, .ro, .reset⟩]⟩]

/-- The MBX registers. -/
def regsMBX : List RegDesc := [
  ⟨0x50000, 0x8, 64, 0, 1, 64,
    [⟨.MBX_BIND_SIDE_B, 32, 32, .rl, .keep⟩, ⟨.MBX_BIND_SIDE_A, 0, 32, .rl, .keep⟩]⟩,
  ⟨0x50200, 0x0, 1, 0, 1, 32,
    [⟨.MBX_LOCK, 31, 1, .w1s, .keep⟩]⟩,
  ⟨0x50204, 0x0, 1, 0, 1, 32,
    [⟨.MBX_ERR_LAST, 30, 2, .ro, .keep⟩, ⟨.MBX_ERR_CHANNEL, 24, 6, .ro, .keep⟩, ⟨.MBX_ERR_DOMAIN_OFF, 16, 8, .ro, .keep⟩, ⟨.MBX_ERR_DENIED, 8, 8, .ro, .keep⟩, ⟨.MBX_ERR_IGNORED, 0, 8, .ro, .keep⟩]⟩,
  ⟨0x50400, 0x4, 64, 0, 1, 32,
    [⟨.MBX_STAT_FULL_AB, 31, 1, .ro, .keep⟩, ⟨.MBX_STAT_FULL_BA, 30, 1, .ro, .keep⟩, ⟨.MBX_STAT_FAR_OFF, 28, 2, .ro, .keep⟩, ⟨.MBX_STAT_LEN_AB, 12, 4, .ro, .keep⟩, ⟨.MBX_STAT_LEN_BA, 8, 4, .ro, .keep⟩, ⟨.MBX_STAT_LOST, 0, 8, .ro, .keep⟩]⟩]

/-- The FLT registers. -/
def regsFLT : List RegDesc := [
  ⟨0x60000, 0x0, 1, 0, 1, 32,
    [⟨.FLT_HEAD_INDEX, 0, 32, .ro, .keep⟩]⟩,
  ⟨0x60040, 0x0, 1, 0, 1, 64,
    [⟨.FLT_DUMP_BASE, 21, 43, .rw, .keep⟩]⟩,
  ⟨0x60048, 0x0, 1, 0, 1, 32,
    [⟨.FLT_DUMP_CTRL_EN, 31, 1, .rw, .keep⟩, ⟨.FLT_DUMP_CTRL_STATUS, 28, 3, .ro, .keep⟩, ⟨.FLT_DUMP_CTRL_CHANNEL, 16, 6, .rw, .keep⟩, ⟨.FLT_DUMP_CTRL_TIMEOUTS, 0, 16, .ro, .keep⟩]⟩,
  ⟨0x6004c, 0x0, 1, 0, 1, 32,
    [⟨.FLT_DUMP_SEQ_COUNT, 0, 32, .ro, .keep⟩]⟩,
  ⟨0x60080, 0x0, 1, 0, 1, 32,
    [⟨.FLT_WARM_IN_WINDOW, 24, 8, .ro, .keep⟩, ⟨.FLT_WARM_TOTAL, 0, 24, .ro, .keep⟩]⟩,
  ⟨0x60100, 0x4, 160, 0, 1, 32,
    [⟨.FLT_RST_IN_WINDOW, 24, 8, .ro, .keep⟩, ⟨.FLT_RST_TOTAL, 0, 24, .ro, .keep⟩]⟩]

/-- The SLC registers. -/
def regsSLC : List RegDesc := [
  ⟨0x80000, 0x40, 4096, 0, 1, 32,
    [⟨.SLC_STATE_STATE, 29, 3, .ro, .others⟩, ⟨.SLC_STATE_RESETTING, 28, 1, .ro, .others⟩, ⟨.SLC_STATE_FREEZE_DONE, 27, 1, .ro, .others⟩, ⟨.SLC_STATE_KEYST, 25, 2, .ro, .others⟩, ⟨.SLC_STATE_ZEROISED, 24, 1, .ro, .others⟩, ⟨.SLC_STATE_KEY, 0, 13, .ro, .others⟩]⟩,
  ⟨0x80004, 0x40, 4096, 0, 1, 32,
    [⟨.SLC_PLACE_SECTIONS, 24, 8, .ro, .others⟩, ⟨.SLC_PLACE_BE_FLOOR, 8, 12, .ro, .others⟩, ⟨.SLC_PLACE_QUEUES, 0, 7, .ro, .others⟩]⟩,
  ⟨0x80008, 0x40, 4096, 0, 1, 32,
    [⟨.SLC_LC_LO_SHARE3, 24, 8, .ro, .others⟩, ⟨.SLC_LC_LO_SHARE2, 16, 8, .ro, .others⟩, ⟨.SLC_LC_LO_SHARE1, 8, 8, .ro, .others⟩, ⟨.SLC_LC_LO_SHARE0, 0, 8, .ro, .others⟩]⟩,
  ⟨0x8000c, 0x40, 4096, 0, 1, 32,
    [⟨.SLC_LC_HI_SHARE7, 24, 8, .ro, .others⟩, ⟨.SLC_LC_HI_SHARE6, 16, 8, .ro, .others⟩, ⟨.SLC_LC_HI_SHARE5, 8, 8, .ro, .others⟩, ⟨.SLC_LC_HI_SHARE4, 0, 8, .ro, .others⟩]⟩,
  ⟨0x80010, 0x40, 4096, 0, 1, 64,
    [⟨.SLC_PORTS, 0, 64, .ro, .others⟩]⟩,
  ⟨0x80018, 0x40, 4096, 0, 1, 32,
    [⟨.SLC_MEMQ_MIB, 0, 32, .ro, .others⟩]⟩,
  ⟨0x8001c, 0x40, 4096, 0, 1, 32,
    [⟨.SLC_HOT_PART, 29, 3, .ro, .others⟩, ⟨.SLC_HOT_FIRST, 16, 11, .ro, .others⟩, ⟨.SLC_HOT_COUNT, 0, 12, .ro, .others⟩]⟩,
  ⟨0x80020, 0x40, 4096, 0, 1, 32,
    [⟨.SLC_HOST_BOUND, 31, 1, .rw, .others⟩, ⟨.SLC_HOST_PORT, 28, 3, .rw, .others⟩, ⟨.SLC_HOST_VF, 0, 9, .rw, .others⟩]⟩,
  ⟨0x80024, 0x40, 4096, 0, 1, 32,
    [⟨.SLC_NODE_RKEY, 16, 13, .rw, .others⟩, ⟨.SLC_NODE_NODE, 0, 16, .rw, .others⟩]⟩,
  ⟨0x80028, 0x40, 4096, 0, 1, 32,
    [⟨.SLC_CTRL_RESET, 31, 1, .w1s, .others⟩]⟩,
  ⟨0x8002c, 0x40, 4096, 0, 1, 32,
    [⟨.SLC_OPEN_ITEMS, 16, 16, .ro, .others⟩, ⟨.SLC_OPEN_QUEUES, 0, 7, .ro, .others⟩]⟩,
  ⟨0x80030, 0x40, 4096, 0, 1, 32,
    [⟨.SLC_MEMUSE_MIB, 0, 32, .ro, .others⟩]⟩,
  ⟨0x80034, 0x40, 4096, 0, 1, 32,
    [⟨.SLC_DRAIN_REFS, 0, 32, .ro, .others⟩]⟩,
  ⟨0x80038, 0x40, 4096, 0, 1, 32,
    [⟨.SLC_SCRUB_PAGES, 0, 32, .ro, .others⟩]⟩,
  ⟨0xc0000, 0x0, 1, 0, 1, 32,
    [⟨.SLC_CFG_FREE_KEYS, 16, 16, .ro, .keep⟩, ⟨.SLC_CFG_QUAR_MS, 0, 16, .rw, .keep⟩]⟩,
  ⟨0xc0010, 0x0, 1, 0, 1, 32,
    [⟨.SLC_DLOG_CTRL_EN, 31, 1, .rw, .keep⟩, ⟨.SLC_DLOG_CTRL_BUSY, 30, 1, .ro, .reset⟩, ⟨.SLC_DLOG_CTRL_SLICE, 0, 12, .rw, .keep⟩]⟩,
  ⟨0xc0018, 0x0, 1, 0, 1, 64,
    [⟨.SLC_DLOG_BASE, 6, 58, .rw, .keep⟩]⟩,
  ⟨0xc0020, 0x0, 1, 0, 1, 64,
    [⟨.SLC_DLOG_LO, 12, 36, .rw, .keep⟩]⟩,
  ⟨0xc0028, 0x0, 1, 0, 1, 32,
    [⟨.SLC_DLOG_PAGES, 0, 32, .rw, .keep⟩]⟩,
  ⟨0xc0040, 0x0, 1, 0, 1, 32,
    [⟨.SLC_XFER_CTRL_GO, 31, 1, .w1s, .reset⟩, ⟨.SLC_XFER_CTRL_BUSY, 30, 1, .ro, .reset⟩, ⟨.SLC_XFER_CTRL_ERR, 29, 1, .ro, .reset⟩, ⟨.SLC_XFER_CTRL_MODE, 28, 1, .rw, .keep⟩, ⟨.SLC_XFER_CTRL_KEY, 12, 13, .rw, .keep⟩, ⟨.SLC_XFER_CTRL_SLICE, 0, 12, .rw, .keep⟩]⟩,
  ⟨0xc0048, 0x0, 1, 0, 1, 64,
    [⟨.SLC_XFER_SRC_OFFSET, 12, 36, .rw, .keep⟩]⟩,
  ⟨0xc0050, 0x0, 1, 0, 1, 64,
    [⟨.SLC_XFER_DST_ADDR, 12, 52, .rw, .keep⟩]⟩,
  ⟨0xc0058, 0x0, 1, 0, 1, 32,
    [⟨.SLC_XFER_LEN_PAGES, 0, 32, .rw, .keep⟩]⟩,
  ⟨0xc005c, 0x0, 1, 0, 1, 32,
    [⟨.SLC_XFER_DONE_PAGES, 0, 32, .ro, .reset⟩]⟩]

/-- The QCX registers. -/
def regsQCX : List RegDesc := [
  ⟨0x100000, 0x100, 16384, 0, 1, 32,
    [⟨.QCX_STATE_STATE, 29, 3, .ro, .others⟩, ⟨.QCX_STATE_PRIOR, 26, 3, .ro, .others⟩, ⟨.QCX_STATE_PARKED, 25, 1, .ro, .others⟩, ⟨.QCX_STATE_CQ_PHASE, 24, 1, .ro, .others⟩, ⟨.QCX_STATE_CANCEL_EN, 23, 1, .ro, .others⟩, ⟨.QCX_STATE_ACTIVATE, 0, 1, .wo, .others⟩]⟩,
  ⟨0x100004, 0x100, 16384, 0, 1, 32,
    [⟨.QCX_CFG_KIND, 24, 3, .rw, .others⟩, ⟨.QCX_CFG_BE_OK, 23, 1, .rw, .others⟩, ⟨.QCX_CFG_LC_OK, 22, 1, .rw, .others⟩, ⟨.QCX_CFG_IN_ORDER, 21, 1, .rw, .others⟩, ⟨.QCX_CFG_LOG2_ENTRIES, 0, 5, .rw, .others⟩]⟩,
  ⟨0x100008, 0x100, 16384, 0, 1, 32,
    [⟨.QCX_OWNER_SLICE, 20, 12, .ro, .others⟩, ⟨.QCX_OWNER_SLOT, 14, 6, .ro, .others⟩, ⟨.QCX_OWNER_PORT, 10, 4, .ro, .others⟩, ⟨.QCX_OWNER_PF, 9, 1, .ro, .others⟩, ⟨.QCX_OWNER_VF, 0, 9, .ro, .others⟩]⟩,
  ⟨0x10000c, 0x100, 16384, 0, 1, 32,
    [⟨.QCX_BIND_CORE, 26, 6, .ro, .others⟩]⟩,
  ⟨0x100010, 0x100, 16384, 0, 1, 64,
    [⟨.QCX_SQ_BASE, 12, 52, .rw, .others⟩]⟩,
  ⟨0x100018, 0x100, 16384, 0, 1, 64,
    [⟨.QCX_CQ_BASE, 12, 52, .rw, .others⟩]⟩,
  ⟨0x100020, 0x100, 16384, 0, 1, 32,
    [⟨.QCX_TIMEOUT, 0, 32, .rw, .others⟩]⟩,
  ⟨0x100024, 0x100, 16384, 0, 1, 32,
    [⟨.QCX_SQ_PTRS_TAIL, 16, 16, .ro, .others⟩, ⟨.QCX_SQ_PTRS_HEAD, 0, 16, .ro, .others⟩]⟩,
  ⟨0x100028, 0x100, 16384, 0, 1, 32,
    [⟨.QCX_CQ_PTRS_HEAD, 16, 16, .ro, .others⟩, ⟨.QCX_CQ_PTRS_TAIL, 0, 16, .ro, .others⟩]⟩,
  ⟨0x10002c, 0x100, 16384, 0, 1, 32,
    [⟨.QCX_INFLIGHT_OPEN, 16, 16, .ro, .others⟩, ⟨.QCX_INFLIGHT_HOLDERS, 0, 16, .ro, .others⟩]⟩,
  ⟨0x100030, 0x100, 16384, 0, 1, 64,
    [⟨.QCX_TAIL_LINE, 6, 58, .ro, .others⟩]⟩,
  ⟨0x100038, 0x100, 16384, 0, 1, 32,
    [⟨.QCX_ERR_LAST_ERR, 24, 8, .ro, .others⟩, ⟨.QCX_ERR_DB_IGNORED, 0, 16, .ro, .others⟩]⟩,
  ⟨0x100040, 0x100, 16384, 4, 5, 32,
    [⟨.QCX_CNT_COUNT, 0, 32, .ro, .others⟩]⟩]

/-- The CST registers. -/
def regsCST : List RegDesc := [
  ⟨0x500000, 0x10, 65536, 0, 1, 32,
    [⟨.CST_CAST_VALID, 31, 1, .ro, .reset⟩, ⟨.CST_CAST_LIVE_VER, 16, 12, .ro, .reset⟩, ⟨.CST_CAST_OWNER, 0, 12, .ro, .reset⟩]⟩,
  ⟨0x500004, 0x10, 65536, 0, 1, 32,
    [⟨.CST_VSLOT01_STATE_1, 30, 2, .ro, .reset⟩, ⟨.CST_VSLOT01_VER_1, 16, 12, .ro, .reset⟩, ⟨.CST_VSLOT01_STATE_0, 14, 2, .ro, .reset⟩, ⟨.CST_VSLOT01_VER_0, 0, 12, .ro, .reset⟩]⟩,
  ⟨0x500008, 0x10, 65536, 0, 1, 32,
    [⟨.CST_VSLOT23_STATE_3, 30, 2, .ro, .reset⟩, ⟨.CST_VSLOT23_VER_3, 16, 12, .ro, .reset⟩, ⟨.CST_VSLOT23_STATE_2, 14, 2, .ro, .reset⟩, ⟨.CST_VSLOT23_VER_2, 0, 12, .ro, .reset⟩]⟩,
  ⟨0x50000c, 0x10, 65536, 0, 1, 32,
    [⟨.CST_CMODEL_MODEL, 0, 16, .ro, .reset⟩]⟩,
  ⟨0x600000, 0x0, 1, 0, 1, 64,
    [⟨.CST_STORE_BASE, 21, 43, .rw, .keep⟩]⟩,
  ⟨0x600008, 0x0, 1, 0, 1, 32,
    [⟨.CST_STORE_SIZE_SIZE_MIB, 0, 32, .rw, .keep⟩]⟩,
  ⟨0x60000c, 0x0, 1, 0, 1, 32,
    [⟨.CST_STORE_USED_USED_KIB, 0, 32, .ro, .reset⟩]⟩,
  ⟨0x600010, 0x0, 1, 0, 1, 32,
    [⟨.CST_VSEL_SLOT, 16, 2, .rw, .keep⟩, ⟨.CST_VSEL_CAST_ID, 0, 16, .rw, .keep⟩]⟩,
  ⟨0x600014, 0x0, 1, 0, 1, 32,
    [⟨.CST_VINFO_STATE, 30, 2, .ro, .reset⟩, ⟨.CST_VINFO_VERSION, 16, 12, .ro, .reset⟩]⟩,
  ⟨0x600018, 0x0, 1, 0, 1, 32,
    [⟨.CST_VPINS_LAUNCHES, 0, 32, .ro, .reset⟩]⟩,
  ⟨0x600020, 0x0, 1, 0, 1, 64,
    [⟨.CST_VADDR_ADDR, 0, 64, .ro, .reset⟩]⟩,
  ⟨0x600028, 0x0, 1, 0, 1, 32,
    [⟨.CST_VLEN_IMAGE_LEN, 0, 32, .ro, .reset⟩]⟩,
  ⟨0x600030, 0x0, 1, 0, 1, 32,
    [⟨.CST_STALE_COUNT, 0, 32, .ro, .reset⟩]⟩,
  ⟨0x601000, 0x40, 64, 0, 1, 32,
    [⟨.CST_BK_STATE_STATE, 30, 2, .ro, .reset⟩, ⟨.CST_BK_STATE_LATE_IN_WINDOW, 16, 8, .ro, .reset⟩, ⟨.CST_BK_STATE_OPEN, 0, 11, .ro, .reset⟩]⟩,
  ⟨0x601004, 0x40, 64, 0, 1, 32,
    [⟨.CST_BK_WBOUND_W_BOUND, 0, 32, .ro, .reset⟩]⟩,
  ⟨0x601008, 0x40, 64, 0, 1, 32,
    [⟨.CST_BK_LATE_COUNT, 0, 32, .ro, .reset⟩]⟩,
  ⟨0x60100c, 0x40, 64, 0, 1, 32,
    [⟨.CST_BK_DROPPED_COUNT, 0, 32, .ro, .reset⟩]⟩,
  ⟨0x601010, 0x40, 64, 0, 1, 32,
    [⟨.CST_BK_FAILED_COUNT, 0, 32, .ro, .reset⟩]⟩]

/-- The SRV registers. -/
def regsSRV : List RegDesc := [
  ⟨0x700000, 0x0, 1, 0, 1, 32,
    [⟨.SRV_CTRL_LC_CAP, 24, 8, .rw, .keep⟩, ⟨.SRV_CTRL_TURN_US, 0, 16, .rw, .keep⟩]⟩,
  ⟨0x700004, 0x0, 1, 0, 1, 32,
    [⟨.SRV_STATUS_SEEDED, 31, 1, .ro, .reset⟩, ⟨.SRV_STATUS_LOAD_BUSY, 30, 1, .ro, .reset⟩, ⟨.SRV_STATUS_LOAD_MODEL, 20, 10, .ro, .reset⟩, ⟨.SRV_STATUS_RESIDENT, 0, 16, .ro, .reset⟩]⟩,
  ⟨0x700008, 0x0, 1, 0, 1, 32,
    [⟨.SRV_LOAD_RES_SHARE, 0, 7, .rw, .keep⟩]⟩,
  ⟨0x70000c, 0x0, 1, 0, 1, 32,
    [⟨.SRV_PART_LC_PC, 24, 8, .rw, .keep⟩, ⟨.SRV_PART_LC_HTCH, 8, 5, .rw, .keep⟩, ⟨.SRV_PART_LC_CWAYS, 0, 5, .rw, .keep⟩]⟩,
  ⟨0x700010, 0x4, 8, 0, 1, 32,
    [⟨.SRV_HOT_AREA_MIB, 0, 13, .rw, .keep⟩]⟩,
  ⟨0x700080, 0x4, 16, 0, 1, 32,
    [⟨.SRV_SEED_EN, 31, 1, .rw, .keep⟩, ⟨.SRV_SEED_PIN, 30, 1, .rw, .keep⟩, ⟨.SRV_SEED_MODEL, 0, 10, .rw, .keep⟩]⟩,
  ⟨0x7000c0, 0x0, 1, 0, 1, 32,
    [⟨.SRV_SEED_STAT_SKIPPED, 16, 16, .ro, .reset⟩, ⟨.SRV_SEED_STAT_LOADED, 0, 16, .ro, .reset⟩]⟩,
  ⟨0x7000c4, 0x0, 1, 0, 1, 32,
    [⟨.SRV_ACCT_CLR_ALL, 31, 1, .wo, .reset⟩, ⟨.SRV_ACCT_CLR_SLICE, 0, 12, .wo, .reset⟩]⟩,
  ⟨0x700100, 0x0, 1, 0, 1, 32,
    [⟨.SRV_SEQ_SEL_SLICE, 16, 12, .rw, .keep⟩, ⟨.SRV_SEQ_SEL_SEQID, 0, 16, .rw, .keep⟩]⟩,
  ⟨0x700104, 0x0, 1, 0, 1, 32,
    [⟨.SRV_SEQ_INFO_OPEN, 31, 1, .ro, .reset⟩, ⟨.SRV_SEQ_INFO_POISONED, 30, 1, .ro, .reset⟩, ⟨.SRV_SEQ_INFO_SECTION, 27, 3, .ro, .reset⟩, ⟨.SRV_SEQ_INFO_MODEL, 17, 10, .ro, .reset⟩]⟩,
  ⟨0x700108, 0x0, 1, 0, 1, 32,
    [⟨.SRV_SEQ_KV_KV_LEN, 0, 18, .ro, .reset⟩]⟩,
  ⟨0x700200, 0x10, 8, 0, 1, 64,
    [⟨.SRV_KVPOOL_BASE, 16, 48, .rw, .keep⟩]⟩,
  ⟨0x700208, 0x10, 8, 0, 1, 32,
    [⟨.SRV_KVPOOL_SIZE_PAGES, 0, 24, .rw, .keep⟩]⟩,
  ⟨0x70020c, 0x10, 8, 0, 1, 32,
    [⟨.SRV_KVPOOL_USED_PAGES, 0, 24, .ro, .reset⟩]⟩,
  ⟨0x700280, 0x10, 8, 0, 1, 64,
    [⟨.SRV_KVLC_BASE, 16, 48, .rw, .keep⟩]⟩,
  ⟨0x700288, 0x10, 8, 0, 1, 32,
    [⟨.SRV_KVLC_SIZE_PAGES, 0, 24, .rw, .keep⟩]⟩,
  ⟨0x70028c, 0x10, 8, 0, 1, 32,
    [⟨.SRV_KVLC_USED_PAGES, 0, 24, .ro, .reset⟩]⟩,
  ⟨0x701000, 0x40, 1024, 0, 1, 32,
    [⟨.SRV_MDL_CTRL_VALID, 31, 1, .rw, .keep⟩, ⟨.SRV_MDL_CTRL_STATE, 28, 3, .ro, .reset⟩, ⟨.SRV_MDL_CTRL_PINNED, 27, 1, .ro, .reset⟩, ⟨.SRV_MDL_CTRL_PARTS, 16, 8, .ro, .reset⟩, ⟨.SRV_MDL_CTRL_STEP_CAST, 0, 16, .rw, .keep⟩]⟩,
  ⟨0x701008, 0x40, 1024, 0, 1, 64,
    [⟨.SRV_MDL_SRC_BASE, 21, 43, .rw, .keep⟩]⟩,
  ⟨0x701010, 0x40, 1024, 0, 1, 32,
    [⟨.SRV_MDL_SIZE_PAGES, 0, 15, .rw, .keep⟩]⟩,
  ⟨0x701014, 0x40, 1024, 0, 1, 32,
    [⟨.SRV_MDL_KV_LAYERS, 24, 8, .rw, .keep⟩, ⟨.SRV_MDL_KV_KV_TOK, 0, 10, .rw, .keep⟩]⟩,
  ⟨0x701018, 0x40, 1024, 0, 1, 32,
    [⟨.SRV_MDL_SHAPE_LC_SHARE, 24, 8, .rw, .keep⟩, ⟨.SRV_MDL_SHAPE_PREFILL_CAP, 0, 16, .rw, .keep⟩]⟩,
  ⟨0x70101c, 0x40, 1024, 0, 1, 32,
    [⟨.SRV_MDL_STAT_SEQS, 16, 16, .ro, .reset⟩, ⟨.SRV_MDL_STAT_HELD, 0, 16, .ro, .reset⟩]⟩,
  ⟨0x701020, 0x40, 1024, 0, 1, 32,
    [⟨.SRV_MDL_LOADS_COUNT, 0, 32, .ro, .reset⟩]⟩,
  ⟨0x720000, 0x20, 4096, 0, 1, 32,
    [⟨.SRV_SLC_CFG_COLD_LIMIT, 24, 8, .rw, .keep⟩, ⟨.SRV_SLC_CFG_BE_WEIGHT, 20, 4, .rw, .keep⟩, ⟨.SRV_SLC_CFG_SEQ_QUOTA, 0, 16, .rw, .keep⟩]⟩,
  ⟨0x720004, 0x20, 4096, 0, 1, 32,
    [⟨.SRV_SLC_WAIT_COUNT, 0, 32, .ro, .reset⟩]⟩,
  ⟨0x720008, 0x20, 4096, 0, 1, 32,
    [⟨.SRV_SLC_ADMIT_COUNT, 0, 32, .ro, .reset⟩]⟩,
  ⟨0x72000c, 0x20, 4096, 0, 1, 32,
    [⟨.SRV_SLC_STEPWAIT_COUNT, 0, 32, .ro, .reset⟩]⟩,
  ⟨0x720010, 0x20, 4096, 0, 1, 32,
    [⟨.SRV_SLC_PREEMPT_COUNT, 0, 32, .ro, .reset⟩]⟩,
  ⟨0x720014, 0x20, 4096, 0, 1, 32,
    [⟨.SRV_SLC_OVERRUN_COUNT, 0, 32, .ro, .reset⟩]⟩,
  ⟨0x720018, 0x20, 4096, 0, 1, 32,
    [⟨.SRV_SLC_COLD_COUNT, 0, 32, .ro, .reset⟩]⟩,
  ⟨0x72001c, 0x20, 4096, 0, 1, 32,
    [⟨.SRV_SLC_SEQS_OPEN, 0, 16, .ro, .reset⟩]⟩]

/-- The MEM registers. -/
def regsMEM : List RegDesc := [
  ⟨0x800000, 0x0, 1, 0, 1, 32,
    [⟨.MEM_CFG_TYPE, 30, 2, .ro, .keep⟩, ⟨.MEM_CFG_P, 16, 7, .ro, .keep⟩, ⟨.MEM_CFG_N, 8, 5, .ro, .keep⟩, ⟨.MEM_CFG_STACK_GIB, 0, 8, .ro, .keep⟩]⟩,
  ⟨0x800004, 0x0, 1, 0, 1, 32,
    [⟨.MEM_MAP_LOCK, 31, 1, .w1s, .keep⟩, ⟨.MEM_MAP_LOCAL_GIB, 0, 10, .rl, .keep⟩]⟩,
  ⟨0x800008, 0x0, 1, 0, 1, 32,
    [⟨.MEM_SPARE_RESV_MIB, 20, 12, .rl, .keep⟩, ⟨.MEM_SPARE_BANK_ROWS, 8, 8, .rw, .keep⟩, ⟨.MEM_SPARE_ROW_CE, 0, 8, .rw, .keep⟩]⟩,
  ⟨0x80000c, 0x0, 1, 0, 1, 32,
    [⟨.MEM_SCRUB_PERIOD_H, 0, 8, .rw, .keep⟩]⟩,
  ⟨0x800010, 0x0, 1, 0, 1, 32,
    [⟨.MEM_STATUS_MAPPED, 31, 1, .ro, .keep⟩, ⟨.MEM_STATUS_DEGRADED, 30, 1, .ro, .keep⟩, ⟨.MEM_STATUS_FAILED_STACKS, 0, 5, .ro, .keep⟩]⟩,
  ⟨0x800014, 0x0, 1, 0, 1, 32,
    [⟨.MEM_CAP_MAPPED_MIB, 0, 32, .ro, .keep⟩]⟩,
  ⟨0x800018, 0x0, 1, 0, 1, 32,
    [⟨.MEM_CAP_USABLE_MIB, 0, 32, .ro, .keep⟩]⟩,
  ⟨0x800020, 0x0, 1, 0, 1, 32,
    [⟨.MEM_INV_CTRL_GO, 31, 1, .w1s, .reset⟩, ⟨.MEM_INV_CTRL_BUSY, 30, 1, .ro, .reset⟩, ⟨.MEM_INV_CTRL_ALL, 29, 1, .rw, .reset⟩, ⟨.MEM_INV_CTRL_PAGES, 12, 16, .rw, .reset⟩, ⟨.MEM_INV_CTRL_SLICE, 0, 12, .rw, .reset⟩]⟩,
  ⟨0x800028, 0x0, 1, 0, 1, 64,
    [⟨.MEM_INV_VA, 12, 52, .rw, .keep⟩]⟩,
  ⟨0x800100, 0x20, 20, 0, 1, 32,
    [⟨.MEM_STK_STAT_STATE, 29, 3, .ro, .keep⟩, ⟨.MEM_STK_STAT_REFRESH, 27, 2, .ro, .keep⟩, ⟨.MEM_STK_STAT_LAST_STEP, 24, 3, .ro, .keep⟩, ⟨.MEM_STK_STAT_TRN_STAT, 16, 8, .ro, .keep⟩, ⟨.MEM_STK_STAT_ATTEMPTS, 0, 16, .ro, .keep⟩]⟩,
  ⟨0x800104, 0x20, 20, 0, 1, 32,
    [⟨.MEM_STK_ERR_CORRECTED, 16, 16, .ro, .keep⟩, ⟨.MEM_STK_ERR_UNCORRECTED, 0, 16, .ro, .keep⟩]⟩,
  ⟨0x800108, 0x20, 20, 0, 1, 32,
    [⟨.MEM_STK_SPARE_ROWS, 16, 16, .ro, .keep⟩, ⟨.MEM_STK_SPARE_BANKS, 8, 8, .ro, .keep⟩]⟩,
  ⟨0x80010c, 0x20, 20, 0, 1, 32,
    [⟨.MEM_STK_RESV_KIB, 0, 32, .ro, .keep⟩]⟩,
  ⟨0x800110, 0x20, 20, 0, 1, 32,
    [⟨.MEM_STK_HOLES_GRANULES, 0, 32, .ro, .keep⟩]⟩,
  ⟨0x800400, 0x10, 8, 0, 1, 32,
    [⟨.MEM_HT_STAT_STATE, 29, 3, .ro, .reset⟩, ⟨.MEM_HT_STAT_HOLES, 12, 12, .ro, .reset⟩, ⟨.MEM_HT_STAT_SPARE_LEFT, 0, 6, .ro, .reset⟩]⟩,
  ⟨0x800404, 0x10, 8, 0, 1, 32,
    [⟨.MEM_HT_ERR_CORRECTED, 16, 16, .ro, .reset⟩, ⟨.MEM_HT_ERR_UNCORRECTED, 0, 16, .ro, .reset⟩]⟩,
  ⟨0x800600, 0x10, 8, 0, 1, 64,
    [⟨.MEM_HDM_BASE, 28, 20, .rw, .keep⟩]⟩,
  ⟨0x800608, 0x10, 8, 0, 1, 32,
    [⟨.MEM_HDM_CTRL_EN, 31, 1, .rw, .keep⟩, ⟨.MEM_HDM_CTRL_SIZE, 16, 15, .rw, .keep⟩, ⟨.MEM_HDM_CTRL_KEY, 0, 13, .rw, .keep⟩]⟩,
  ⟨0x800800, 0x0, 1, 0, 1, 32,
    [⟨.MEM_HOLE_SEL_DROPPED, 16, 16, .ro, .keep⟩, ⟨.MEM_HOLE_SEL_INDEX, 0, 12, .rw, .keep⟩]⟩,
  ⟨0x800808, 0x0, 1, 0, 1, 64,
    [⟨.MEM_HOLE_ADDR_VALID, 63, 1, .ro, .keep⟩, ⟨.MEM_HOLE_ADDR_FRAME, 62, 1, .ro, .keep⟩, ⟨.MEM_HOLE_ADDR_STACK, 61, 1, .ro, .keep⟩, ⟨.MEM_HOLE_ADDR_CHANNEL, 60, 1, .ro, .keep⟩, ⟨.MEM_HOLE_ADDR_OFFSET, 0, 48, .ro, .keep⟩]⟩,
  ⟨0x810000, 0x10, 4096, 0, 1, 64,
    [⟨.MEM_XCTX_ROOT_ROOT, 12, 52, .rw, .keep⟩, ⟨.MEM_XCTX_ROOT_EN, 0, 1, .rw, .keep⟩]⟩,
  ⟨0x810008, 0x10, 4096, 0, 1, 32,
    [⟨.MEM_XCTX_CFG_PASID, 12, 20, .rw, .keep⟩, ⟨.MEM_XCTX_CFG_ATS, 11, 1, .ro, .keep⟩, ⟨.MEM_XCTX_CFG_PORT, 0, 4, .rw, .keep⟩]⟩]

/-- The COH registers. -/
def regsCOH : List RegDesc := [
  ⟨0x900000, 0x0, 1, 0, 1, 32,
    [⟨.COH_CTRL_SNP_LIMIT_US, 16, 16, .rw, .keep⟩, ⟨.COH_CTRL_STAKE_LIFE_US, 8, 8, .rw, .keep⟩]⟩,
  ⟨0x900004, 0x0, 1, 0, 1, 32,
    [⟨.COH_STATUS_RECALL, 31, 1, .ro, .reset⟩, ⟨.COH_STATUS_WALK, 30, 1, .ro, .reset⟩, ⟨.COH_STATUS_BARRED, 0, 16, .ro, .reset⟩]⟩,
  ⟨0x900008, 0x0, 1, 0, 1, 32,
    [⟨.COH_RECALL_RECALL_MS, 0, 16, .rw, .keep⟩]⟩,
  ⟨0x90000c, 0x0, 1, 0, 1, 32,
    [⟨.COH_DEAD_GO, 31, 1, .wo, .reset⟩, ⟨.COH_DEAD_KIND, 30, 1, .wo, .reset⟩, ⟨.COH_DEAD_MEMBER, 16, 5, .wo, .reset⟩, ⟨.COH_DEAD_NODE, 0, 16, .wo, .reset⟩]⟩,
  ⟨0x900100, 0x20, 8, 0, 1, 32,
    [⟨.COH_HOME_TRK_OPEN, 16, 11, .ro, .reset⟩, ⟨.COH_HOME_TRK_STAKE, 8, 8, .ro, .reset⟩, ⟨.COH_HOME_TRK_WBK, 0, 8, .ro, .reset⟩]⟩,
  ⟨0x900104, 0x20, 8, 0, 1, 32,
    [⟨.COH_HOME_DIR_ENTRIES, 14, 18, .ro, .reset⟩, ⟨.COH_HOME_DIR_OVERFLOW, 0, 9, .ro, .reset⟩]⟩,
  ⟨0x900108, 0x20, 8, 0, 1, 32,
    [⟨.COH_HOME_NEXT_TICKET, 0, 32, .ro, .reset⟩]⟩,
  ⟨0x90010c, 0x20, 8, 0, 1, 32,
    [⟨.COH_HOME_HEAD_TICKET, 0, 32, .ro, .reset⟩]⟩,
  ⟨0x900110, 0x20, 8, 0, 1, 32,
    [⟨.COH_HOME_NACK_COUNT, 0, 32, .ro, .reset⟩]⟩,
  ⟨0x900114, 0x20, 8, 0, 1, 32,
    [⟨.COH_HOME_BINV_COUNT, 0, 32, .ro, .reset⟩]⟩,
  ⟨0x900118, 0x20, 8, 0, 1, 32,
    [⟨.COH_HOME_LOST_COUNT, 0, 32, .ro, .reset⟩]⟩,
  ⟨0x90011c, 0x20, 8, 0, 1, 32,
    [⟨.COH_HOME_LAPSE_COUNT, 0, 32, .ro, .reset⟩]⟩,
  ⟨0x900200, 0x0, 1, 0, 1, 32,
    [⟨.COH_DIR_SEL_MODE, 31, 1, .rw, .keep⟩, ⟨.COH_DIR_SEL_HOME, 28, 3, .rw, .keep⟩, ⟨.COH_DIR_SEL_SET, 12, 13, .rw, .keep⟩, ⟨.COH_DIR_SEL_WAY, 0, 9, .rw, .keep⟩]⟩,
  ⟨0x900208, 0x0, 1, 0, 1, 64,
    [⟨.COH_DIR_LINE, 6, 42, .rw, .keep⟩]⟩,
  ⟨0x900210, 0x0, 1, 0, 1, 64,
    [⟨.COH_DIR_ENT_VALID, 63, 1, .ro, .reset⟩, ⟨.COH_DIR_ENT_PIN, 62, 1, .ro, .reset⟩, ⟨.COH_DIR_ENT_LOST, 61, 1, .ro, .reset⟩, ⟨.COH_DIR_ENT_SUM, 59, 2, .ro, .reset⟩, ⟨.COH_DIR_ENT_FAB, 58, 1, .ro, .reset⟩, ⟨.COH_DIR_ENT_NPTR, 56, 2, .ro, .reset⟩, ⟨.COH_DIR_ENT_PRES, 40, 16, .ro, .reset⟩, ⟨.COH_DIR_ENT_OWNER, 32, 8, .ro, .reset⟩, ⟨.COH_DIR_ENT_NODE0, 16, 16, .ro, .reset⟩, ⟨.COH_DIR_ENT_NODE1, 0, 16, .ro, .reset⟩]⟩,
  ⟨0x900218, 0x0, 1, 0, 1, 64,
    [⟨.COH_DIR_TAG_LINE, 6, 42, .ro, .reset⟩]⟩,
  ⟨0x900300, 0x4, 8, 0, 1, 32,
    [⟨.COH_HPF_BINV, 16, 16, .ro, .keep⟩, ⟨.COH_HPF_ENTRIES, 0, 16, .ro, .keep⟩]⟩,
  ⟨0x900380, 0x0, 1, 0, 1, 32,
    [⟨.COH_RESTART_LOG_OVERFLOW, 16, 16, .ro, .keep⟩, ⟨.COH_RESTART_LOG_ENTRIES, 0, 15, .ro, .keep⟩]⟩]

/-- The FIL registers. -/
def regsFIL : List RegDesc := [
  ⟨0xa00000, 0x0, 1, 0, 1, 32,
    [⟨.FIL_NODE_LOCK, 31, 1, .w1s, .keep⟩, ⟨.FIL_NODE_NODE, 0, 16, .rl, .keep⟩]⟩,
  ⟨0xa00004, 0x0, 1, 0, 1, 32,
    [⟨.FIL_BE_ACTIVE, 31, 1, .ro, .keep⟩, ⟨.FIL_BE_BE_NODE, 0, 16, .rl, .keep⟩]⟩,
  ⟨0xa00008, 0x0, 1, 0, 1, 32,
    [⟨.FIL_CTRL_PT_QUANTUM, 0, 7, .rw, .keep⟩]⟩,
  ⟨0xa00010, 0x4, 8, 0, 1, 32,
    [⟨.FIL_LEVEL_BASE, 16, 16, .rl, .keep⟩, ⟨.FIL_LEVEL_MASK, 0, 16, .rl, .keep⟩]⟩,
  ⟨0xa00040, 0x0, 1, 0, 1, 32,
    [⟨.FIL_UMETER_RATE_PIR, 16, 16, .rw, .keep⟩, ⟨.FIL_UMETER_RATE_CIR, 0, 16, .rw, .keep⟩]⟩,
  ⟨0xa00044, 0x0, 1, 0, 1, 32,
    [⟨.FIL_UMETER_CBS, 0, 32, .rw, .keep⟩]⟩,
  ⟨0xa00048, 0x0, 1, 0, 1, 32,
    [⟨.FIL_UMETER_PBS, 0, 32, .rw, .keep⟩]⟩,
  ⟨0xa01000, 0x40, 64, 0, 1, 32,
    [⟨.FIL_PORT_CTRL_ENABLE, 31, 1, .rw, .keep⟩, ⟨.FIL_PORT_CTRL_FENCE, 30, 1, .rw, .keep⟩, ⟨.FIL_PORT_CTRL_ENC_REQ, 29, 1, .rw, .keep⟩, ⟨.FIL_PORT_CTRL_REKEY, 28, 1, .w1s, .keep⟩]⟩,
  ⟨0xa01004, 0x40, 64, 0, 1, 32,
    [⟨.FIL_PORT_STAT_STATE, 29, 3, .ro, .keep⟩, ⟨.FIL_PORT_STAT_ENCRYPTED, 28, 1, .ro, .keep⟩, ⟨.FIL_PORT_STAT_FENCE_CAUSE, 24, 4, .ro, .keep⟩, ⟨.FIL_PORT_STAT_MINOR, 16, 8, .ro, .keep⟩, ⟨.FIL_PORT_STAT_PARTNER, 0, 16, .ro, .keep⟩]⟩,
  ⟨0xa01008, 0x40, 64, 0, 1, 32,
    [⟨.FIL_PORT_FLIGHT_NS, 0, 16, .ro, .keep⟩]⟩,
  ⟨0xa0100c, 0x40, 64, 0, 1, 32,
    [⟨.FIL_PORT_RES_IN_MBPS, 16, 16, .ro, .keep⟩, ⟨.FIL_PORT_RES_OUT_MBPS, 0, 16, .ro, .keep⟩]⟩,
  ⟨0xa01010, 0x40, 64, 0, 1, 32,
    [⟨.FIL_PORT_ERR_CRC, 16, 16, .ro, .keep⟩, ⟨.FIL_PORT_ERR_AUTH, 8, 8, .ro, .keep⟩, ⟨.FIL_PORT_ERR_TRAIN_FAILS, 0, 8, .ro, .keep⟩]⟩,
  ⟨0xa01014, 0x40, 64, 0, 1, 32,
    [⟨.FIL_PORT_REPLAY_COUNT, 0, 32, .ro, .keep⟩]⟩,
  ⟨0xa01018, 0x40, 64, 0, 1, 32,
    [⟨.FIL_PORT_RED_COUNT, 0, 32, .ro, .keep⟩]⟩,
  ⟨0xa02000, 0x0, 1, 0, 1, 32,
    [⟨.FIL_MON_CTRL_EN, 31, 1, .rw, .keep⟩, ⟨.FIL_MON_CTRL_VIOL_ONLY, 30, 1, .rw, .keep⟩, ⟨.FIL_MON_CTRL_PORT, 0, 6, .rw, .keep⟩]⟩,
  ⟨0xa02008, 0x0, 1, 0, 1, 64,
    [⟨.FIL_MON_BASE, 21, 43, .rw, .keep⟩]⟩,
  ⟨0xa02010, 0x0, 1, 0, 1, 32,
    [⟨.FIL_MON_SIZE_NEXT, 16, 16, .ro, .keep⟩, ⟨.FIL_MON_SIZE_MIB, 0, 16, .rw, .keep⟩]⟩,
  ⟨0xa02014, 0x0, 1, 0, 1, 32,
    [⟨.FIL_MON_VIOL_FIRST, 28, 4, .ro, .keep⟩, ⟨.FIL_MON_VIOL_COUNT, 0, 28, .ro, .keep⟩]⟩,
  ⟨0xa02020, 0x0, 1, 0, 1, 32,
    [⟨.FIL_INJ_GO, 31, 1, .w1s, .keep⟩, ⟨.FIL_INJ_KIND, 29, 2, .rw, .keep⟩, ⟨.FIL_INJ_PORT, 16, 6, .rw, .keep⟩, ⟨.FIL_INJ_COUNT, 0, 16, .rw, .keep⟩]⟩,
  ⟨0xa40000, 0x10, 4096, 0, 1, 32,
    [⟨.FIL_SLC_RATE_PIR, 16, 16, .rw, .keep⟩, ⟨.FIL_SLC_RATE_CIR, 0, 16, .rw, .keep⟩]⟩,
  ⟨0xa40004, 0x10, 4096, 0, 1, 32,
    [⟨.FIL_SLC_CBS, 0, 32, .rw, .keep⟩]⟩,
  ⟨0xa40008, 0x10, 4096, 0, 1, 32,
    [⟨.FIL_SLC_PBS, 0, 32, .rw, .keep⟩]⟩,
  ⟨0xa4000c, 0x10, 4096, 0, 1, 32,
    [⟨.FIL_SLC_SHAPE_QUANTUM, 0, 7, .rw, .keep⟩]⟩,
  ⟨0xa80000, 0x8, 65536, 0, 1, 64,
    [⟨.FIL_ROUTE_ENTRY, 0, 64, .rw, .keep⟩]⟩]

/-- The TEN registers. -/
def regsTEN : List RegDesc := [
  ⟨0xb00000, 0x100, 48, 0, 1, 32,
    [⟨.TEN_STATE_STATE, 29, 3, .ro, .reset⟩, ⟨.TEN_STATE_SUSPENDED, 28, 1, .ro, .reset⟩, ⟨.TEN_STATE_GRANTS, 16, 7, .ro, .reset⟩, ⟨.TEN_STATE_INBOUND, 0, 12, .ro, .reset⟩]⟩,
  ⟨0xb00004, 0x100, 48, 0, 1, 32,
    [⟨.TEN_CB_VALID, 24, 8, .ro, .reset⟩, ⟨.TEN_CB_HELD, 16, 8, .ro, .reset⟩]⟩,
  ⟨0xb00008, 0x100, 48, 0, 1, 32,
    [⟨.TEN_CB_LOADS_COUNT, 0, 32, .ro, .reset⟩]⟩,
  ⟨0xb0000c, 0x100, 48, 0, 1, 32,
    [⟨.TEN_OPS_COUNT, 0, 32, .ro, .reset⟩]⟩,
  ⟨0xb00010, 0x100, 48, 0, 1, 32,
    [⟨.TEN_BUSY_US, 0, 32, .ro, .reset⟩]⟩,
  ⟨0xb00014, 0x100, 48, 0, 1, 32,
    [⟨.TEN_PREEMPT_COUNT, 0, 32, .ro, .reset⟩]⟩,
  ⟨0xb00018, 0x100, 48, 0, 1, 32,
    [⟨.TEN_ERR_CORRECTED, 16, 16, .ro, .reset⟩, ⟨.TEN_ERR_UNCORRECTED, 8, 8, .ro, .reset⟩, ⟨.TEN_ERR_SPARES, 0, 5, .ro, .reset⟩]⟩,
  ⟨0xb0001c, 0x100, 48, 0, 1, 32,
    [⟨.TEN_LAST_CHECK, 24, 8, .ro, .reset⟩, ⟨.TEN_LAST_SLICE, 0, 12, .ro, .reset⟩]⟩,
  ⟨0xb04000, 0x100, 8, 0, 1, 32,
    [⟨.TEN_ATT_STATE_STATE, 29, 3, .ro, .reset⟩, ⟨.TEN_ATT_STATE_SUSPENDED, 28, 1, .ro, .reset⟩, ⟨.TEN_ATT_STATE_PENDING, 0, 12, .ro, .reset⟩]⟩,
  ⟨0xb04004, 0x100, 8, 0, 1, 32,
    [⟨.TEN_ATT_PAGES_COUNT, 0, 32, .ro, .reset⟩]⟩,
  ⟨0xb04008, 0x100, 8, 0, 1, 32,
    [⟨.TEN_ATT_ERR_CORRECTED, 16, 16, .ro, .reset⟩, ⟨.TEN_ATT_ERR_UNCORRECTED, 8, 8, .ro, .reset⟩]⟩,
  ⟨0xb08000, 0x0, 1, 0, 1, 32,
    [⟨.TEN_CAP_KINDS, 16, 8, .ro, .reset⟩, ⟨.TEN_CAP_FORMATS, 0, 5, .ro, .reset⟩]⟩,
  ⟨0xb08004, 0x0, 1, 0, 1, 32,
    [⟨.TEN_CLR_CLEAR, 0, 1, .wo, .reset⟩]⟩]

/-- The CUE registers. -/
def regsCUE : List RegDesc := [
  ⟨0xc00000, 0x100, 64, 0, 1, 32,
    [⟨.CUE_STATE_STATE, 29, 3, .ro, .reset⟩, ⟨.CUE_STATE_RECORDS, 16, 7, .ro, .reset⟩, ⟨.CUE_STATE_WINDOW_KIB, 0, 8, .ro, .reset⟩]⟩,
  ⟨0xc00004, 0x100, 64, 0, 1, 32,
    [⟨.CUE_DBG_CTRL_HALT_REQ, 31, 1, .w1s, .reset⟩, ⟨.CUE_DBG_CTRL_HALTED, 30, 1, .ro, .reset⟩, ⟨.CUE_DBG_CTRL_STEP, 29, 1, .wo, .reset⟩, ⟨.CUE_DBG_CTRL_RESUME, 28, 1, .wo, .reset⟩, ⟨.CUE_DBG_CTRL_BKPT_EN, 0, 4, .rw, .reset⟩]⟩,
  ⟨0xc00008, 0x100, 64, 0, 1, 64,
    [⟨.CUE_PC, 2, 62, .ro, .reset⟩]⟩,
  ⟨0xc00010, 0x100, 64, 8, 4, 64,
    [⟨.CUE_BKPT_ADDR, 2, 62, .rw, .reset⟩]⟩,
  ⟨0xc00030, 0x100, 64, 0, 1, 32,
    [⟨.CUE_DBG_SEL_SPACE, 28, 4, .rw, .reset⟩, ⟨.CUE_DBG_SEL_INDEX, 0, 15, .rw, .reset⟩]⟩,
  ⟨0xc00038, 0x100, 64, 0, 1, 64,
    [⟨.CUE_DBG_DATA, 0, 64, .rw, .reset⟩]⟩,
  ⟨0xc00040, 0x100, 64, 0, 1, 32,
    [⟨.CUE_CAUSE_CAUSE, 24, 8, .ro, .reset⟩, ⟨.CUE_CAUSE_COUNT, 0, 16, .ro, .reset⟩]⟩,
  ⟨0xc00044, 0x100, 64, 0, 1, 32,
    [⟨.CUE_STRETCH_MAX_NS, 0, 32, .ro, .reset⟩]⟩,
  ⟨0xc00048, 0x100, 64, 0, 1, 32,
    [⟨.CUE_OVERRUN_COUNT, 0, 32, .ro, .reset⟩]⟩,
  ⟨0xc0004c, 0x100, 64, 0, 1, 32,
    [⟨.CUE_RETIRED_COUNT, 0, 32, .ro, .reset⟩]⟩,
  ⟨0xc00050, 0x100, 64, 0, 1, 32,
    [⟨.CUE_CLR_CLEAR, 0, 1, .wo, .reset⟩]⟩,
  ⟨0xc04000, 0x0, 1, 0, 1, 32,
    [⟨.CUE_ISA_MAJOR, 8, 8, .ro, .reset⟩, ⟨.CUE_ISA_MINOR, 0, 8, .ro, .reset⟩]⟩]

/-- The SEC registers. -/
def regsSEC : List RegDesc := [
  ⟨0xd00000, 0x0, 1, 0, 1, 32,
    [⟨.SEC_CFG_LOCK, 31, 1, .w1s, .keep⟩]⟩,
  ⟨0xd00010, 0x4, 12, 0, 1, 32,
    [⟨.SEC_ANCHOR_DIGEST, 0, 32, .rl, .keep⟩]⟩,
  ⟨0xd00040, 0x0, 1, 0, 1, 32,
    [⟨.SEC_LINK_CTRL_GO, 31, 1, .w1s, .keep⟩, ⟨.SEC_LINK_CTRL_BUSY, 30, 1, .ro, .keep⟩, ⟨.SEC_LINK_CTRL_PORT, 0, 6, .rw, .keep⟩]⟩,
  ⟨0xd00050, 0x4, 4, 0, 1, 32,
    [⟨.SEC_MIG_CTRL_GO, 31, 1, .w1s, .reset⟩, ⟨.SEC_MIG_CTRL_STATE, 29, 2, .ro, .reset⟩, ⟨.SEC_MIG_CTRL_NODE, 0, 16, .rw, .reset⟩]⟩,
  ⟨0xd00060, 0x0, 1, 0, 1, 32,
    [⟨.SEC_PICKLE_BUSY, 31, 1, .ro, .reset⟩, ⟨.SEC_PICKLE_SLICE, 0, 12, .ro, .reset⟩]⟩,
  ⟨0xd00064, 0x0, 1, 0, 1, 32,
    [⟨.SEC_ERR_LAST, 29, 3, .ro, .reset⟩, ⟨.SEC_ERR_COUNT, 0, 16, .ro, .reset⟩]⟩]

/-- The TCH registers. -/
def regsTCH : List RegDesc := [
  ⟨0xe00000, 0x0, 1, 0, 1, 32,
    [⟨.TCH_LAST_PASSED, 24, 8, .ro, .keep⟩, ⟨.TCH_LAST_FAILED, 16, 8, .ro, .keep⟩, ⟨.TCH_LAST_UNIT, 0, 16, .ro, .keep⟩]⟩,
  ⟨0xe00004, 0x0, 1, 0, 1, 32,
    [⟨.TCH_COUNT_DEFERRED, 16, 16, .ro, .keep⟩, ⟨.TCH_COUNT_RUNS, 0, 16, .ro, .keep⟩]⟩,
  ⟨0xe00100, 0x4, 160, 0, 1, 32,
    [⟨.TCH_UNIT_LAST_TESTS, 24, 8, .ro, .keep⟩, ⟨.TCH_UNIT_LAST_FAILED, 16, 8, .ro, .keep⟩, ⟨.TCH_UNIT_RUNS, 0, 16, .ro, .keep⟩]⟩]

/-- Every register of the management space but the fault log (Table 18-1). -/
def regTable : List RegDesc :=
  regsBLKId ++ regsBLK ++ regsPRM ++ regsTMP ++ regsCIC ++ regsMBX ++ regsFLT ++ regsSLC ++ regsQCX ++ regsCST ++ regsSRV ++ regsMEM ++ regsCOH ++ regsFIL ++ regsTEN ++ regsCUE ++ regsSEC ++ regsTCH

end Sys2Proof.Machine
end

