-- ==== Sys2Proof/Machine/State.lean ====
section
/-!
DEFINITION. The state of the block: every register field (the register store), every queue, buffer, table, mode and
pin the spec gives it, what the block has sent, the time, and the queue of waiting commands. Plain data throughout.
-/

namespace Sys2Proof.Machine

/-- Why the block would stop with a fault: no command of the table does (every fault of the spec is a fault record,
R381, and the block goes on). -/
inductive Fault where
  /-- Raised by no meaning: it only makes the type inhabited. Safe. -/
  | unreached
deriving DecidableEq, Repr

/-- Why a command has no meaning. -/
inductive Refusal where
  /-- Raised by the dispatch of a command whose meaning is not written: safe (nothing is claimed of it). -/
  | notModelled (mnemonic : String)
deriving DecidableEq, Repr

/-- How a HOST entry of a slice leads to host memory (R258): the slice's function at a host port, its PASID, and whether the requests
are translated by ATS or go untranslated under the PASID. -/
structure HostPath where
  slice : Nat
  port : Nat
  pasid : Nat
  ats : Bool
deriving DecidableEq, Repr

/-- What the block sends through its ports, oldest first in `State.out`. -/
inductive Out where
  /-- A write to host memory at an address of a slice. -/
  | hostWrite (path : HostPath) (addr : Nat) (bytes : List Byte)
  /-- A read of host memory at an address of a slice. -/
  | hostRead (path : HostPath) (addr len : Nat)
  /-- A translation of a page requested of the host by ATS (R258). -/
  | atsRequest (path : HostPath) (page : Nat)
  /-- The completion of an ATS invalidation of a virtual function (R258). -/
  | atsInvalidated (port vf : Nat)
  /-- A write to memory of another node. -/
  | nodeWrite (addr : Nat) (bytes : List Byte)
  /-- A read of another node's memory. -/
  | remoteRead (addr len : Nat)
  /-- An MSI-X message of a function's vector (R358); `vf = none` is PF0. -/
  | msix (port : Nat) (vf : Option Nat) (vector : Nat)
  /-- An in-band interrupt on MGT, with its mandatory data byte: the vector (R354). -/
  | ibi (vector : Nat)
  /-- A back-invalidation snoop of a host port for a line (R272): BISnpInv, or BISnpData. -/
  | biSnp (port : Nat) (inv : Bool) (addr : Nat)
  /-- A coherence message between a member on the rings or at a host port and the ordering point above it (R275). -/
  | ring (member : Who) (m : Msg)
  /-- A message handed to a Filigree port's egress, as it leaves in a flit (R317). -/
  | flit (port : Nat) (f : Flit)
  /-- A PST packet: its header of 32 bytes (Table 2-7) and, of a DATA packet, its payload. -/
  | pst (header payload : List Byte)
  /-- A write of the management source that the primary of a two-block alloy hands to the secondary (R421). -/
  | secondWrite (offset size value : Nat)
  /-- A read of the management source that the primary hands to the secondary. -/
  | secondRead (offset size : Nat)
  /-- Self-refresh entry of a stack (R42). -/
  | selfRefresh (stack : Nat)
  /-- A training step requested of a stack PHY: TRN_REQ with TRN_CODE (R264). -/
  | trnReq (stack code : Nat)
  /-- Lane repair driven on LREP_CODE of a stack, LREP_EN set (Table 2-5, step 4 of Table 10-7). -/
  | lrep (stack code : Nat)
  /-- A read through a stack's WSP (Table 2-5): of its temperature (R263), or of its repair state (step 4 of Table 10-7). -/
  | wsp (stack : Nat) (repair : Bool)
  /-- A UCIe link power state requested on a module (R37). -/
  | iaPower (die module level : Nat)
  /-- A mailbox word read by a party. -/
  | mbxWord (party : Party) (channel value : Nat)
  /-- A mailbox access of a party refused: 1 DOMAIN_OFF, 2 DENIED (R359). -/
  | mbxRefused (party : Party) (channel kind : Nat)
  /-- The refusal of a path (R418). -/
  | pathRefused (path : Path) (meaning : Nat)
  /-- An SPDM message in the DOE mailbox of a host port's PF0 (R367): its data object type, 1 SPDM or 2 Secured SPDM, and its bytes. -/
  | spdm (port object : Nat) (bytes : List Byte)
  /-- An IDE_KM response (R373). -/
  | ideKm (port code value : Nat)
  /-- A TDISP response (R374): its code, its error code or 0, and its value. -/
  | tdisp (port vf code err value : Nat)
  /-- A record of the link monitor (Table 12-10). -/
  | monitor (words : List Nat)
  /-- A write of the dump well (R399), at an offset of it. -/
  | dumpUnit (unit status : Nat)
deriving DecidableEq, Repr

/-- The edge: pins, die-to-die modules, telemetry, persist channel, straps (chapters 02, 18). -/
structure Edge where
  pins : Pins
  vidFrom : Option Nat
  vidAt : Nat
  vidLate : Bool
  ia : Tbl IaModule
  tlm : Option TlmRec
  trefLostAt : Option Nat
  trefPast : List (Nat × Nat)
  i3cAddr : Option Nat
  pst : Pst
  straps : Straps
  build : Build
  hostUp : List Nat
  coreOut : Bool
  porAt : Nat
  splitW : Tbl Split
  splitR : Tbl Split
deriving DecidableEq, Repr

/-- Temper (chapters 03, 09): burnish history, grants, thermal bars, the stacks' own sensors as last read, hold-up coverage, durable pages. -/
structure Temper where
  staleAt : Option Nat
  staleLogged : Bool
  history : List (Nat × Nat)
  badMon : List Nat
  grants : Tbl Int
  barredTj : List Nat
  barredMs : List Nat
  holdBe : Bool
  admitShut : Bool
  quenchW : Nat
  own : List Int
  dur : Tbl DurPage
  atRisk : List Nat
deriving DecidableEq, Repr

/-- Work in hand (chapters 03–07): queues, items, engine operations, cue cores, ledgers, casts, backends. -/
structure Work where
  queues : Tbl QueueX
  items : Tbl Item
  ops : Tbl Op
  cores : Tbl Core
  cb : Tbl CbSlot
  tails : Tbl Nat
  meTail : Tbl Nat
  casts : Tbl CastVer
  castHi : Tbl Nat
  castPend : Option CastPending
  backends : Tbl Backend
  floorCredit : Tbl Credit
  deficit : Tbl Int
  touches : Tbl Touch
  subUs : Tbl Nat
  nextItem : Nat
  nextOp : Nat
deriving DecidableEq, Repr

/-- Serving (chapter 08). -/
structure Serve where
  models : Tbl ModelX
  load : Option Load
  chains : Tbl Chain
  seqs : Tbl Seq
  closed : List (Nat × Seq)
  seedAt : Option Nat
  stage : List Kept
deriving DecidableEq, Repr

/-- Slices and keys (chapters 13, 15) beside their registers; `drbg` counts the draws of the DRBG, `seeds` its seedings and `sinceSeed` the draws since the last (R364), `oneTime` the draw of the one-time key of each scrub job by its slice (R376), and `farLog` the
bytes of a dirty log's bitmap that another node has (R340). -/
structure Slices where
  ext : Tbl SliceX
  buckets : Tbl Bucket
  keys : Tbl KeySlot
  drbg : Nat
  seeds : Nat
  sinceSeed : Nat
  scrub : List Nat
  recScrub : List Nat
  scrubLeft : Tbl (List (Nat × Nat))
  farLog : Tbl Nat
  oneTime : Tbl Nat
deriving DecidableEq, Repr

/-- Pool memory and hot tier (chapter 10); `copies` is what caches of the block hold clean of lines whose owner is outside it. -/
structure Mem where
  cells : List Host.Cell
  lines : Tbl LineInfo
  dirty : Tbl DirtyLine
  copies : Tbl DirtyLine
  tlb : List TlbEnt
  holes : List Hole
  stks : Tbl StackX
deriving DecidableEq, Repr

/-- Coherence (chapter 11); `takes` are lines that holders outside the block must give up before a write, `discarded` counts the data of barred
members and of write-backs into holes, which no register shows (R292, R295). -/
structure Coh where
  l0 : Tbl LState
  l1 : Tbl LState
  ways : Tbl Nat
  dir : Tbl DirEnt
  txns : Tbl Txn
  tickets : Tbl Ticket
  ups : Tbl UpReq
  hpf : Tbl HpfEnt
  curs : Tbl Cur
  takes : List Nat
  restartLog : List Nat
  barred : List Nat
  walks : List Nat
  rejoins : List Nat
  recalled : List Nat
  peers : List Nat
  recallAt : Option Nat
  reopened : Bool
  discarded : Nat
  nextTxn : Nat
deriving DecidableEq, Repr

/-- Filigree (chapter 12) beside its registers: the ports, the flits that an injection has still to affect (R324), and the
link monitor's next record (R323). -/
structure Fil where
  ports : Tbl Port
  inject : Nat
  monPos : Nat
  discards : Tbl Nat
deriving DecidableEq, Repr

/-- Mailboxes and MSI-X vectors (chapter 14). -/
structure Mbx where
  dirs : Tbl MbxDir
  msix : Tbl MsixVec
  vmod : Tbl VMod
deriving DecidableEq, Repr

/-- Hallmark and isolation (chapter 15). -/
structure Sec where
  conns : List (SpdmPort × Conn)
  asks : List (SpdmPort × Ask)
  sessions : Tbl SpdmSession
  frags : List (SpdmPort × Frags)
  chunks : List (SpdmPort × List Byte)
  sends : List (SpdmPort × Frags)
  ide : Tbl IdeStream
  tdis : Tbl Tdi
  pairings : Tbl Pairing
  castLog : List LogEnt
  linkSetup : Option Nat
  measure2 : List Byte
  nextTxn : Nat
deriving DecidableEq, Repr

/-- Faults, resets, dump and start stages (chapters 16, 17). -/
structure Recov where
  faults : List FaultRec
  rstTimes : Tbl (List Nat)
  warmTimes : List Nat
  resets : Tbl Reset
  warm : Option WarmReset
  warmHeld : Option (Nat × Nat)
  dump : Option Dump
  stages : Tbl Stage
  pushed : List Byte
  image : Option Image
  goHeld : Bool
  announce : Bool
  pfServed : Bool
deriving DecidableEq, Repr

/-- The state of the block. -/
structure State where
  regs : Tbl Nat
  edge : Edge
  temper : Temper
  work : Work
  serve : Serve
  slices : Slices
  mem : Mem
  coh : Coh
  fil : Fil
  mbx : Mbx
  sec : Sec
  recov : Recov
  out : List Out
  now : Nat
  free : Nat
  pending : List Instr
deriving DecidableEq, Repr

/-- The number that stands for field `f` of unit `i` in the register store. -/
def fkey (f : Fld) (i : Nat) : Nat := i * 1024 + f.ctorIdx

/-- The edge while PORST_N is low and no supply is up (Table 2-8, step 1). -/
def Edge.reset : Edge :=
  { pins := ⟨false, false, false, true, false, false, 26⟩, vidFrom := none, vidAt := 0, vidLate := false, ia := [],
    tlm := none, trefLostAt := none, trefPast := [], i3cAddr := none, pst := ⟨.none, 0, 0, false⟩,
    straps := ⟨0, 0, 0, 0, false, false⟩, build := ⟨4, 1, .hbm3e, 0, 0, 0⟩, hostUp := [], coreOut := false,
    porAt := 0, splitW := [], splitR := [] }

/-- Temper before any record or reading (R407). -/
def Temper.reset : Temper :=
  { staleAt := some 0, staleLogged := false, history := [], badMon := [], grants := [], barredTj := [], barredMs := [],
    holdBe := false, admitShut := false, quenchW := 0, own := [], dur := [], atRisk := [] }

/-- No work in hand (R407). -/
def Work.reset : Work :=
  { queues := [], items := [], ops := [], cores := [], cb := [], tails := [], meTail := [], casts := [], castHi := [],
    castPend := none, backends := [], floorCredit := [], deficit := [], touches := [], subUs := [], nextItem := 0, nextOp := 0 }

/-- The fields of slice 0 that a reset leaves other than at the register's own reset value: LIVE, on key slot 0 that is LIVE,
placed in every section (R328). -/
def sliceZeroFields : List (Fld × Nat) := [(.SLC_STATE_STATE, 2), (.SLC_STATE_KEYST, 1), (.SLC_PLACE_SECTIONS, 0xFF)]

/-- The block right after a cold reset, with no supply yet up and no command waiting. Slice 0 is ACTIVE on key slot 0
from cold reset on (R328). -/
def State.reset : State :=
  { regs := (sliceZeroFields.foldl (fun t f => t.put (fkey f.1 0) f.2) [])
    edge := Edge.reset
    temper := Temper.reset
    work := Work.reset
    serve := ⟨[], none, [], [], [], none, []⟩
    slices := ⟨[], [], [(0, ⟨.live, false, 0, 1⟩)], 1, 1, 1, [], [], [], [], []⟩
    mem := ⟨[], [], [], [], [], [], []⟩
    coh := ⟨[], [], [], [], [], [], [], [], [], [], [], [], [], [], [], [], none, false, 0, 0⟩
    fil := ⟨[], 0, 0, []⟩
    mbx := ⟨[], [], []⟩
    sec := ⟨[], [], [], [], [], [], [], [], [], [], none, [], 0⟩
    recov := ⟨[], [], [], [], none, none, none, [], [], none, false, false, false⟩
    out := [], now := 0, free := 0, pending := [] }

/-! ### The register store -/

/-- The value a field holds (fields at reset value are not stored). -/
def State.getF (s : State) (f : Fld) (i : Nat) : Nat := s.regs.findD (fkey f i) f.reset

/-- Write a field, cut to its width; a field at its reset value is not stored. -/
def State.setF (s : State) (f : Fld) (i v : Nat) : State :=
  { s with regs := if v % 2 ^ f.width = f.reset then s.regs.del (fkey f i) else s.regs.put (fkey f i) (v % 2 ^ f.width) }

/-- A one-bit field as a flag. -/
def State.bitF (s : State) (f : Fld) (i : Nat) : Bool := s.getF f i == 1

/-- Add a time in ns to an exact counter of µs: the part of a µs that is left over is kept for the next one (R200, R225). -/
def State.addNs (s : State) (f : Fld) (i ns : Nat) : State :=
  let t := s.work.subUs.findD (fkey f i) 0 + ns
  let s := { s with work := { s.work with
    subUs := if t % 1000 = 0 then s.work.subUs.del (fkey f i) else s.work.subUs.put (fkey f i) (t % 1000) } }
  s.setF f i (s.getF f i + t / 1000)

/-- Clear an exact counter of µs with the part of a µs that it holds. -/
def State.clearNs (s : State) (f : Fld) (i : Nat) : State :=
  { s.setF f i 0 with work := { s.work with subUs := s.work.subUs.del (fkey f i) } }

/-- A counter's next value, saturating at its width (R17 and the register sections: counters saturate). -/
def State.bumpF (s : State) (f : Fld) (i : Nat) (by_ : Nat := 1) : State :=
  s.setF f i (min (s.getF f i + by_) (2 ^ f.width - 1))

/-- Send something through a port. -/
def State.emit (s : State) (o : Out) : State := { s with out := s.out ++ [o] }

end Sys2Proof.Machine
end

