-- ==== Sys2Proof/Machine/Ops.lean ====
section
/-!
DEFINITION. Operations that every chapter shares: free values, units and their sections, interrupt sources, manager
causes and vectors, fault records, routes and messages.
-/

namespace Sys2Proof.Machine

/-- What a command answers. -/
abbrev Result := Host.Outcome State Fault Refusal

/-! ### Free values and lists -/

/-- A 64-bit value that the spec leaves open, and the state with its counter advanced. -/
def State.freeWord (s : State) : Word × State := (Config.freeWord s.free, { s with free := s.free + 1 })

/-- `n` bytes that the spec leaves open. -/
def State.freeBytes (s : State) (n : Nat) : List Byte × State :=
  ((List.range n).map (fun i => Config.freeByte (s.free + i)), { s with free := s.free + n })

/-- Little-endian bytes of a number (R11). -/
def bytesLE (n v : Nat) : List Byte := (List.range n).map (fun i => BitVec.ofNat 8 (v >>> (8 * i)))

/-- The number that little-endian bytes spell (R11). -/
def natLE : List Byte → Nat
  | [] => 0
  | b :: t => b.toNat + 256 * natLE t

/-- Bits `lo` to `lo + w - 1` of a number. -/
def bits (v lo w : Nat) : Nat := (v >>> lo) % 2 ^ w

/-- The number with bit `b` set or cleared. -/
def putBit (v b : Nat) (x : Bool) : Nat :=
  if v.testBit b = x then v else if x then v + 2 ^ b else v - 2 ^ b

/-- A number of the list `l`, added at its end if absent. -/
def addNew (l : List Nat) (n : Nat) : List Nat := if l.contains n then l else l ++ [n]

/-- Apply an operation for each element of a list, in order. -/
def State.each {α : Type} (s : State) (l : List α) (f : State → α → State) : State := l.foldl f s

/-- Set or clear bit `b` of a field. -/
def State.setBit (s : State) (f : Fld) (i b : Nat) (x : Bool) : State := s.setF f i (putBit (s.getF f i) b x)

/-- Bit `b` of a field. -/
def State.bitOf (s : State) (f : Fld) (i b : Nat) : Bool := (s.getF f i).testBit b

/-! ### Time, build and units -/

/-- TREF nanoseconds since cold reset (R381, BLK_TIME). -/
def State.time (s : State) : Nat := s.now - s.edge.porAt

/-- Section of a cue core (Table 1-2). -/
def secOfCore (c : Nat) : Nat := c / 8
/-- Cores of a section. -/
def coresOfSec (k : Nat) : List Nat := (List.range 8).map (8 * k + ·)
/-- Section of a tensor engine (Table 1-2). -/
def secOfTe (t : Nat) : Nat := t / 6
/-- Section of a move engine (Table 1-2). -/
def secOfMe (m : Nat) : Nat := m / 4

/-- First home stack of section `k` (R21). -/
def firstStack (n k : Nat) : Nat := k * (n / 8) + min k (n % 8)
/-- Number of stacks that section `k` homes (R21). -/
def homeStacks (n k : Nat) : Nat := n / 8 + (if k < n % 8 then 1 else 0)
/-- The section that homes a stack (R21). -/
def secOfStack (n st : Nat) : Nat :=
  ((List.range 8).find? (fun k => decide (firstStack n k ≤ st ∧ st < firstStack n k + homeStacks n k))).getD 0

/-- A block is compact with at most 8 stacks and 2 I/O dies, otherwise full (R28). -/
def State.isFull (s : State) : Bool := !(decide (s.edge.build.stks ≤ 8) && decide (s.edge.build.dies ≤ 2))

/-- The unit number of FLT_RSTu: tensor engines 0–47, attention units 48–55, cores 56–119, move engines 120–151,
sections 152–159 (R401). -/
def unitOfTe (t : Nat) : Nat := t
/-- FLT_RSTu number of an attention unit. -/
def unitOfAtt (k : Nat) : Nat := 48 + k
/-- FLT_RSTu number of a core. -/
def unitOfCore (c : Nat) : Nat := 56 + c
/-- FLT_RSTu number of a move engine. -/
def unitOfMe (m : Nat) : Nat := 120 + m
/-- The FLT_RSTu number of a unit that runs operations. -/
def UnitId.number : UnitId → Nat
  | .te t => unitOfTe t
  | .att k => unitOfAtt k
  | .me m => unitOfMe m
/-- FLT_RSTu number of a section. -/
def unitOfSec (k : Nat) : Nat := 152 + k

/-- The section that a unit of FLT_RSTu lies in. -/
def secOfUnit (u : Nat) : Nat :=
  if u < 48 then secOfTe u else if u < 56 then u - 48 else if u < 120 then secOfCore (u - 56)
  else if u < 152 then secOfMe (u - 120) else u - 152

/-- Whether section `k` is out of service (BLK_OOS_SEC). -/
def State.secOos (s : State) (k : Nat) : Bool := s.bitOf .BLK_OOS_SEC_SECTIONS 0 k
/-- Whether a tensor engine is out of service. -/
def State.teOos (s : State) (t : Nat) : Bool := s.bitOf .BLK_OOS_TE_UNITS 0 t || s.secOos (secOfTe t)
/-- Whether an attention unit is out of service. -/
def State.attOos (s : State) (k : Nat) : Bool := s.bitOf .BLK_OOS_SEC_ATT 0 k || s.secOos k
/-- Whether a core is out of service. -/
def State.coreOos (s : State) (c : Nat) : Bool := s.bitOf .BLK_OOS_CUE_UNITS 0 c || s.secOos (secOfCore c)
/-- Whether a move engine is out of service. -/
def State.meOos (s : State) (m : Nat) : Bool := s.bitOf .BLK_OOS_ME_UNITS 0 m || s.secOos (secOfMe m)

/-- Whether a unit of FLT_RSTu is out of service. -/
def State.unitOos (s : State) (u : Nat) : Bool :=
  if u < 48 then s.teOos u else if u < 56 then s.attOos (u - 48) else if u < 120 then s.coreOos (u - 56)
  else if u < 152 then s.meOos (u - 120) else s.secOos (u - 152)

/-- Whether a unit is in reset: its own domain's, or its section's (R386, R388). -/
def State.inReset (s : State) (u : Nat) : Bool :=
  (s.recov.resets.find u).isSome || (s.recov.resets.find (unitOfSec (secOfUnit u))).isSome

/-- Whether the core is out of reset and powered (R54). -/
def State.coreOn (s : State) : Bool := s.edge.coreOut && s.edge.pins.corePwrOk

/-- Whether the edge is out of cold reset: PORST_N high and the edge powered (Table 2-10). -/
def State.edgeUp (s : State) : Bool := s.edge.pins.porstN && s.edge.pins.edgePwrOk

/-- Whether a core is in service and not in reset. -/
def State.coreUp (s : State) (c : Nat) : Bool := !s.coreOos c && !s.inReset (unitOfCore c) && s.coreOn

/-- BLK_STATE.STATE values (R401). -/
def stOff : Nat := 0
/-- STARTING. -/
def stStarting : Nat := 1
/-- SERVICE. -/
def stService : Nat := 2
/-- DEGRADED. -/
def stDegraded : Nat := 3
/-- RECOVERING. -/
def stRecovering : Nat := 4
/-- FENCED. -/
def stFenced : Nat := 5

/-- The block state. -/
def State.blkState (s : State) : Nat := s.getF .BLK_STATE_STATE 0

/-- Whether PST is open: not in reset, and not while the block is starting (Table 2-11). -/
def State.pstUp (s : State) : Bool := s.edgeUp && s.blkState != stOff && s.blkState != stStarting

/-! ### Interrupt sources (R350, R351) -/

/-- A source's event: its pending bit is set, merging with one already set (R351). -/
def State.cicEvent (s : State) (core src : Nat) : State :=
  if core < 64 then s.setBit .CIC_PEND (core * 4 + src / 32) (src % 32) true else s

/-- The event at each core of a section. -/
def State.cicSection (s : State) (sec src : Nat) : State :=
  s.each ((List.range 8).map (fun i => 8 * sec + i)) (fun s c => s.cicEvent c src)

/-- The event at every core. -/
def State.cicAll (s : State) (src : Nat) : State := s.each (List.range 64) (fun s c => s.cicEvent c src)

/-! ### Routes and messages (R302, R303, R305) -/

/-- This block's node number: 0xFFFF until FIL_NODE.LOCK is set (R301). -/
def State.node (s : State) : Nat := if s.bitF .FIL_NODE_LOCK 0 then s.getF .FIL_NODE_NODE 0 else 0xFFFF

/-- Where a destination leads (R303). -/
inductive Route where
  | here
  | unroutable
  | via (entry : Nat)
deriving DecidableEq, Repr

/-- Position of the lowest set bit of a mask. -/
def lowBit (m : Nat) : Nat := ((List.range 16).find? (fun i => m.testBit i)).getD 0

/-- The level walk of R303, from level `n` on. -/
def State.routeLevels (s : State) (d : Nat) : List Nat → Route
  | [] => .unroutable
  | n :: rest =>
    let m := s.getF .FIL_LEVEL_MASK n
    if m = 0 then .unroutable
    else if (d ^^^ s.node) &&& m ≠ 0 then
      let e := s.getF .FIL_ROUTE_ENTRY (s.getF .FIL_LEVEL_BASE n + (d &&& m) >>> lowBit m)
      if e.testBit 63 then .via e else .unroutable
    else s.routeLevels d rest

/-- Resolve a destination node; `fromPort` says whether the message arrived on a port (R303). -/
def State.route (s : State) (d : Nat) (fromPort : Bool) : Route :=
  if d = s.node ∨ (fromPort ∧ s.edge.straps.bothEnds ∧ d = s.getF .FIL_BE_BE_NODE 0) then .here
  else s.routeLevels d (List.range 8)

/-- Whether a port is ACTIVE or DEGRADED. -/
def State.portLive (s : State) (p : Nat) : Bool :=
  s.getF .FIL_PORT_STAT_STATE p == 2 || s.getF .FIL_PORT_STAT_STATE p == 3

/-- The ports that a route entry names (Table 12-1). -/
def entryPorts (e : Nat) : List Nat := (List.range (bits e 58 2 + 1)).map (fun i => bits e (6 * i) 6)

/-- The live port of a route entry that a message for a line takes (R303). -/
def State.pickPort (s : State) (e d addr : Nat) : Option Nat :=
  let live := (entryPorts e).filter s.portLive
  live[Config.routeHash d (bits addr 12 36) % live.length]?

/-- Every valid route entry of the levels that has a destination of its own, with that destination (R302, R303). -/
def State.ringEntries (s : State) : List (Nat × Nat) :=
  (List.range 8).flatMap (fun n =>
    let mask := s.getF .FIL_LEVEL_MASK n
    if mask = 0 then []
    else
      let sh := lowBit mask
      (List.range (mask >>> sh + 1)).filterMap (fun v =>
        let e := s.getF .FIL_ROUTE_ENTRY (s.getF .FIL_LEVEL_BASE n + v)
        let d := (s.node ^^^ (s.node &&& mask)) + v <<< sh
        if e.testBit 63 then some (d, e) else none))

/-- Whether the block is one of a two-block alloy (R27). -/
def State.allied (s : State) : Bool := s.edge.straps.alloyRole == 1 || s.edge.straps.alloyRole == 2

/-- Whether the other block of an alloy homes a pool offset of the node (R298). -/
def State.otherHomes (s : State) (off : Nat) : Bool :=
  s.allied && decide (off < 0x080000000000) && (Config.secondHomes off == (s.edge.straps.alloyRole == 1))

/-- Whether an address is of this node and homed in this block. -/
def State.ownsAddr (s : State) (addr : Nat) : Bool := addr >>> 48 == s.node && !s.otherHomes (addr % 2 ^ 48)

/-- The route entry by which messages for the node's own number leave the block: in both-ends mode that of BE_NODE (R322), in a two-block
alloy the one that reaches the alloy's ring (R298; DESIGN CHOICE, log entry 101). -/
def State.selfEntry (s : State) : Option Nat :=
  if s.edge.straps.bothEnds then
    (match s.routeLevels (s.getF .FIL_BE_BE_NODE 0) (List.range 8) with | .via e => some e | _ => none)
  else if s.allied then
    match s.ringEntries.find? (fun x => x.2.testBit 60) with
    | some x => some x.2
    | none => (s.ringEntries.find? (fun x => x.2.testBit 61)).map (·.2)
  else none

/-- The port by which a message for a node leaves the block (R303). -/
def State.exitPort (s : State) (d addr : Nat) : Option Nat :=
  match s.route d false with
  | .via e => s.pickPort e d addr
  | .here => s.selfEntry.bind (fun e => s.pickPort e d addr)
  | .unroutable => none

/-- Whether a node's route entry carries TRUST (R314). -/
def State.trusted (s : State) (d : Nat) : Bool :=
  match s.route d false with
  | .via e => e.testBit 62
  | _ => false

/-- The class of a message (Tables 11-3, 12-4, 12-5): 0 REQ, 1 SNP, 2 WBK, 3 DAT, 4 RSP, 5 MGT. -/
def msgCls : MsgKind → Nat
  | .rdShr | .rdOwn | .upg | .rdCur | .wrFull | .wrPart | .cleanLine => 0
  | .snpShr | .snpInv | .snpCur => 1
  | .wbDirty | .evictClean => 2
  | .data | .snpData => 3
  | .rspI | .rspS | .rspEvicting | .rspLost | .gnt | .cmp | .ack | .nackStake | .refuse | .expired => 4
  | .dead | .homeReset | .recallDone | .rejoin | .dbWr | .dbRd | .mgWr | .mgRd | .mgRsp | .signal | .spdmMsg => 5

/-- Whether a message is a request (class REQ). -/
def isReq (k : MsgKind) : Bool := msgCls k == 0

/-- The egress queue of a message: the order of R317, 0 first. -/
def egressQueue (m : Msg) : Nat :=
  match msgCls m.kind with
  | 5 => 0 | 4 => 1 | 3 => 2 | 2 => 3 | 1 => 4 | _ => if m.lc then 5 else 6

/-- A message of this block with every field zero but the given ones (R305: unused fields are zero; SLICE is 0xFFF in
what the block sends). -/
def State.mkMsg (s : State) (k : MsgKind) (dst addr : Nat) : Msg :=
  { kind := k, src := .fabric, srcNode := s.node, dst := dst, addr := addr, key := 0, allow := 0, late := 0, txn := 0, slice := 0xFFF,
    ticket := 0, aux := 0, mask := 0, data := [], own := false, keep := false, poison := false, grant := 0, lc := false }

/-- A port's link layer at rest: nothing sent, every credit of Table 12-4 held. -/
def Port.fresh : Port :=
  { txSeq := 0, ackedTx := 0, rxSeq := 0, nakSent := false, lastSeq := 0, outSeq := 0, unsunk := [], unacked := 0, rxAt := 0, credits := [64, 32, 32, 128, 96, 16],
    rxUsed := [0, 0, 0, 0, 0, 0], replay := [], authRun := 0, epochTx := 0, epochRx := 0, countTx := 0, countRx := 0, keyTx := [], keyRx := [],
    rekeyNext := false, session := none, retryAt := none, trainFails := 0, trainAt := 0, egress := [], rounds := [],
    passed := [0, 0, 0, 0, 0, 0, 0], unnumbered := false }

/-! ### CRC-32C -/

/-- One bit of the CRC-32C of the reflected polynomial 0x82F63B78. -/
def crcBit (c : Nat) : Nat := if c.testBit 0 then (c / 2).xor 0x82F63B78 else c / 2
/-- One byte of the CRC. -/
def crcByte (c : Nat) (b : Byte) : Nat := (List.range 8).foldl (fun c _ => crcBit c) (c.xor b.toNat)
/-- CRC-32C of a byte string (R11). -/
def crc32c (b : List Byte) : Nat := (b.foldl crcByte (2 ^ 32 - 1)).xor (2 ^ 32 - 1)

/-- A port's link layer. -/
def State.port (s : State) (p : Nat) : Port := s.fil.ports.findD p Port.fresh

/-- Change a port's link layer. -/
def State.setPort (s : State) (p : Nat) (x : Port) : State := { s with fil := { s.fil with ports := s.fil.ports.put p x } }

/-- The route entry by which a message for a node leaves, 0 where there is none. -/
def State.exitEntry (s : State) (d : Nat) : Nat :=
  match s.route d false with
  | .via e => e
  | .here => s.selfEntry.getD 0
  | .unroutable => 0

/-- Queue a message at a port's egress, in its class queue and sub-queue (R317, R318). -/
def State.toPort (s : State) (p sub : Nat) (m : Msg) : State :=
  s.setPort p { s.port p with egress := (s.port p).egress ++ [⟨egressQueue m, sub, m, s.now, s.exitEntry m.dst⟩] }

/-- Send a message to its destination node by route; `sub` is its REQ sub-queue. `none` when it cannot be routed. -/
def State.send? (s : State) (sub : Nat) (m : Msg) : Option State := (s.exitPort m.dst m.addr).map (fun p => s.toPort p sub m)

/-- Send a message; one that cannot be routed is dropped. -/
def State.send (s : State) (m : Msg) : State := (s.send? 0xFFF m).getD s

/-! ### Manager vectors (R354) -/

/-- Number of a function's MSI-X vector in the table of vectors: port, PF0 (none) or VF, entry. -/
def msixKey (port : Nat) (vf : Option Nat) (entry : Nat) : Nat := (port * 513 + (match vf with | none => 0 | some v => v + 1)) * 64 + entry

/-- A vector as PCIe leaves it at reset: masked, nothing pending (PRESUMED, log entry 10). -/
def MsixVec.fresh : MsixVec := ⟨0, 0, true, false⟩

/-- Send a message-signalled interrupt, or set its pending bit while the vector is masked (R355). -/
def State.sendMsix (s : State) (port : Nat) (vf : Option Nat) (entry : Nat) : State :=
  let k := msixKey port vf entry
  let v := s.mbx.msix.findD k MsixVec.fresh
  if v.masked then { s with mbx := { s.mbx with msix := s.mbx.msix.put k { v with pba := true } } }
  else (s.emit (.msix port vf entry)).bumpF .CIC_MSTAT_SENT 0

/-- A manager vector as a SIGNAL to the partner of a port; on a port that is not live it is dropped (R354). -/
def State.signalVector (s : State) (port : Option Nat) (v : Nat) : State :=
  match port.filter s.portLive with
  | some p => (s.toPort p 0xFFF { s.mkMsg .signal (s.getF .FIL_PORT_STAT_PARTNER p) (2 ^ 20 + v) with slice := 0xFFF }).bumpF .CIC_MSTAT_SENT 0
  | none => s.bumpF .CIC_MSTAT_DROPPED 0

/-- The port by which an alloy's secondary reaches the primary, its management source (R421, log entry 101). -/
def State.primaryPort (s : State) : Option Nat := s.selfEntry.bind (fun e => s.pickPort e s.node 0)

/-- Send manager vector `v` to the management source (R354). An alloy's secondary ignores MGT_SRC: its vectors go to the primary
(R421), as SIGNALs over the alloy's link (DESIGN CHOICE, log entry 105). -/
def State.managerVector (s : State) (v : Nat) : State :=
  if s.edge.straps.alloyRole = 2 then s.signalVector s.primaryPort v
  else match s.edge.straps.mgtSrc with
  | 0 => s.sendMsix 0 none v
  | 1 => s.signalVector (some s.edge.straps.mgtFp) v
  | 2 => (s.emit (.ibi v)).bumpF .CIC_MSTAT_SENT 0
  | _ => s

/-- Raise manager cause `v` (1–8): set its bit, and send its vector once on the rising edge when enabled (R354). -/
def State.managerCause (s : State) (v : Nat) : State :=
  if s.bitOf .CIC_MCAUSE_CAUSE 0 (v - 1) then s
  else
    let s' := s.setBit .CIC_MCAUSE_CAUSE 0 (v - 1) true
    if s.bitOf .CIC_MEN_EN 0 (v - 1) then s'.managerVector v else s'

/-- Change the block state; a change raises manager cause STATE (Table 14-3). -/
def State.setBlkState (s : State) (v : Nat) : State :=
  if s.blkState = v then s else (s.setF .BLK_STATE_STATE 0 v).managerCause 3

/-- From SERVICE the block enters DEGRADED (R266, R389). -/
def State.degrade (s : State) : State := if s.blkState = stService then s.setBlkState stDegraded else s

/-! ### Fault records (R381, R382) -/

/-- A record with every field at its "none" value (Table 16-1). -/
def FaultRec.blank (reason action domain : Nat) : FaultRec :=
  { index := 0, domain := domain, action := action, reason := reason, time := 0, slice := 0xFFFF, queue := 0xFFFF, castId := 0xFFFF,
    castVer := 0, castNode := 0xFFFF, core := 0xFF, te := 0xFF, unit := 0xFFFF, count := 0, pc := 0, addr := 0, aux0 := 0,
    aux1 := 0, status := 0, creason := 0 }

/-- The section that a record names, by its core, engine or unit (Table 16-1, source FAULT of Table 14-1). -/
def FaultRec.section? (r : FaultRec) : Option Nat :=
  if r.core ≠ 0xFF then some (secOfCore r.core)
  else if r.te ≠ 0xFF then some (secOfTe r.te)
  else if r.unit = 0xFFFF then none
  else if r.domain = 0 ∧ r.reason = 0x1D ∧ r.unit < 8 then some r.unit
  else if r.domain = 2 ∨ r.domain = 5 then some r.unit
  else if r.domain = 4 then some (secOfMe r.unit)
  else none

/-- The INDEX that the next record will carry. -/
def State.nextIndex (s : State) : Nat := s.getF .FLT_HEAD_INDEX 0

/-- Write a record: INDEX and TIME are the block's; slot INDEX mod 1,024 of the ring is overwritten; manager cause
FAULT and source FAULT of the section named follow (R381, Table 14-1). -/
def State.fault (s : State) (r : FaultRec) : State :=
  let r' := { r with index := s.nextIndex, time := s.time }
  let s := { s with recov := { s.recov with faults := s.recov.faults.filter (fun (x : FaultRec) => x.index % 1024 != s.nextIndex % 1024) ++ [r'] } }
  let s := s.setF .FLT_HEAD_INDEX 0 (r'.index + 1)
  let s := match r.section? with
    | some k => s.cicSection k 0
    | none => s
  s.managerCause 2

end Sys2Proof.Machine
end

