-- ==== Sys2Proof/Machine/Irq.lean ====
section
/-!
DEFINITION. Interrupts and mailboxes (chapter 14): the vector moderator, queue vectors, the sides of channels, and
the commands of the chapter.
-/

namespace Sys2Proof.Machine

/-! ### Queue vectors and their moderator (R354, R355) -/

/-- A queue's context beside its QCX_ fields as creation leaves it. -/
def QueueX.fresh : QueueX :=
  { fetched := [], chain := none, ordered := [], held := [], reserved := 0, unfreed := 0, readyAt := none, posted := [], destroyItem := none,
    discarded := 0, cancelled := 0, count := 0, timer := none, unbound := false, watch := none, cqFailed := false }

/-- A queue's context beside its QCX_ fields. -/
def State.qx (s : State) (q : Nat) : QueueX := s.work.queues.findD q QueueX.fresh

/-- Change a queue's context. -/
def State.setQx (s : State) (q : Nat) (x : QueueX) : State := { s with work := { s.work with queues := s.work.queues.put q x } }

/-- Send the vector of a queue by the queue's path (R354). -/
def State.sendQueueVector (s : State) (q : Nat) : State :=
  if q = 0 then s.managerVector 0
  else
    let slice := s.getF .QCX_OWNER_SLICE q
    if s.getF .QCX_OWNER_PORT q = 8 then
      let m := { s.mkMsg .signal (s.getF .SLC_NODE_NODE slice) (q + s.getF .QCX_OWNER_SLOT q * 2 ^ 14) with
        slice := slice, data := bytesLE 64 (s.getF .QCX_CQ_PTRS_TAIL q) }
      match s.send? slice m with
      | some s' => s'.bumpF .CIC_MSTAT_SENT 0
      | none => s.bumpF .CIC_MSTAT_DROPPED 0
    else if s.bitF .QCX_OWNER_PF q then s.managerVector (32 + q % 32)
    else s.sendMsix (s.getF .QCX_OWNER_PORT q) (some (s.getF .QCX_OWNER_VF q)) (s.getF .QCX_OWNER_SLOT q)

/-- The moderator settings of a queue's vector: THRESH 1 and DELAY_US 0 until CIC_VMOD is written. -/
def State.vmod (s : State) (q : Nat) : VMod := s.mbx.vmod.findD q ⟨1, 0⟩

/-- An event of a queue vector: a completion without NO_IRQ, or SIGNAL in mode QUEUE (R355). A parked queue bypasses
moderation and is no longer parked (R102); a destroyed queue, a TOMBSTONE, sends nothing more. -/
def State.queueEvent (s : State) (q : Nat) : State :=
  let x := s.qx q
  let v := s.vmod q
  if s.getF .QCX_STATE_STATE q = 4 then s
  else if s.bitF .QCX_STATE_PARKED q then
    ((s.sendQueueVector q).setF .QCX_STATE_PARKED q 0).setQx q { x with count := 0, timer := none }
  else
    let c := x.count + 1
    let timer := if c = 1 ∧ v.delayUs > 0 then some (s.now + v.delayUs * 1000) else x.timer
    if c ≥ v.thresh ∨ v.delayUs = 0 then (s.sendQueueVector q).setQx q { x with count := 0, timer := none }
    else s.setQx q { x with count := c, timer := timer }

/-- R355: a vector's timer expires and sends one message for the events counted. Before its time nothing happens. -/
def execModeratorTimerExpiry (queue : Nat) (s : State) : Result :=
  let x := s.qx queue
  match x.timer with
  | some t =>
    if t ≤ s.now then
      let s := if x.count > 0 then s.sendQueueVector queue else s
      .next (s.setQx queue { s.qx queue with count := 0, timer := none })
    else .next s
  | none => .next s

/-- Change a vector of a function's MSI-X table. -/
def State.setMsix (s : State) (port : Nat) (vf : Option Nat) (entry : Nat) (f : MsixVec → MsixVec) : State :=
  let k := msixKey port vf entry
  { s with mbx := { s.mbx with msix := s.mbx.msix.put k (f (s.mbx.msix.findD k MsixVec.fresh)) } }

/-- A vector is unmasked; a message that waited in its pending bit is sent once (R355). -/
def State.unmask (s : State) (port : Nat) (vf : Option Nat) (entry : Nat) : State :=
  let waited := (s.mbx.msix.findD (msixKey port vf entry) MsixVec.fresh).pba
  let s := s.setMsix port vf entry (fun v => { v with masked := false, pba := false })
  if waited then s.sendMsix port vf entry else s

/-- R355: a vector is unmasked; a message that waited in its pending bit is sent once. -/
def execMsixUnmask (port : Nat) (pf : Bool) (vf entry : Nat) (s : State) : Result :=
  .next (s.unmask port (if pf then none else some vf) entry)

/-! ### Interrupt controller registers (R350, R351, R354) -/

/-- Sources that a write of CIC_SET may set: 0–5 and 96–127 (Table 14-1). -/
def cicSettable (src : Nat) : Bool := decide (src < 6) || decide (96 ≤ src)

/-- R350: a CIC_SET write sets the named sources pending, for sources 0–5 and 96–127 only. -/
def execCicSet (core word : Nat) (value : W32) (s : State) : Result :=
  .next (s.each ((List.range 32).filter (fun i => value.toNat.testBit i && cicSettable (32 * word + i)))
    (fun s i => s.cicEvent core (32 * word + i)))

/-- R351: writing 1 to a pending bit clears it. -/
def execCicPendClear (core word : Nat) (value : W32) (s : State) : Result :=
  .next (s.setF .CIC_PEND (core * 4 + word) (s.getF .CIC_PEND (core * 4 + word) &&& (~~~value).toNat))

/-- R354: writing 1 to a CIC_MCAUSE bit clears that manager cause (the field is bits 8:1). -/
def execCicMcauseClear (value : W32) (s : State) : Result :=
  .next (s.setF .CIC_MCAUSE_CAUSE 0 (s.getF .CIC_MCAUSE_CAUSE 0 &&& (~~~value).toNat >>> 1))

/-- R354: a SIGNAL on its way to the bound node is forwarded by route; one that cannot be routed is dropped and counted
in CIC_MSTAT. One addressed to this node has no effect here. -/
def execFilSignal (port : Nat) (m : Msg) (s : State) : Result :=
  if m.dst = s.node then .next s
  else match s.send? (4096 + port) m with
    | some s' => .next s'
    | none => .next (s.bumpF .CIC_MSTAT_DROPPED 0)

/-! ### Mailbox channels (R356–R360) -/

/-- The identity of a party (Table 14-4). -/
def partyId : Party → Nat
  | .steward c => 0x10000000 + c * 65536
  | .guest c sl => 0x20000000 + c * 65536 + sl
  | .hostFn p pf vf => 0x30000000 + p * 65536 + (if pf then 0x8000 else vf)
  | .manager => 0x40000000

/-- The identity bound to side A (false) or B (true). -/
def State.mbxSide (s : State) (ch : Nat) (b : Bool) : Nat :=
  if b then s.getF .MBX_BIND_SIDE_B ch else s.getF .MBX_BIND_SIDE_A ch

/-- Whether a channel's binding counts: its sides differ, and neither has a reserved KIND. A side of KIND 0 is unbound, and the other
one bound all the same (R356). -/
def State.mbxBound (s : State) (ch : Nat) : Bool :=
  decide (bits (s.mbxSide ch false) 28 4 ≤ 4) && decide (bits (s.mbxSide ch true) 28 4 ≤ 4) && s.mbxSide ch false != s.mbxSide ch true

/-- The side of a channel that is bound to a party. -/
def State.sideOf (s : State) (ch : Nat) (p : Party) : Option Bool :=
  if !s.mbxBound ch then none
  else if s.mbxSide ch false = partyId p then some false
  else if s.mbxSide ch true = partyId p then some true
  else none

/-- Whether the management source is reachable: HP0's link, MGT_FP, or MGT itself (Table 17-1, EDGE); for an alloy's secondary, a live
port to the primary (R421). -/
def State.sourceUp (s : State) : Bool :=
  if s.edge.straps.alloyRole = 2 then s.primaryPort.isSome
  else match s.edge.straps.mgtSrc with
  | 0 => s.edge.hostUp.contains 0
  | 1 => decide (s.edge.straps.mgtFp < 8 * s.edge.build.dies) && s.portLive s.edge.straps.mgtFp
  | 2 => true
  | _ => false

/-- Whether the domain of an identity is off (R359). -/
def State.domainOff (s : State) (id : Nat) : Bool :=
  match bits id 28 4 with
  | 1 | 2 => !s.coreUp (bits id 16 6)
  | 3 => !s.edge.hostUp.contains (bits id 16 3)
  | 4 => !s.sourceUp
  | _ => false

/-- Whether the side other than `b` is off. -/
def State.farOff (s : State) (ch : Nat) (b : Bool) : Bool := s.domainOff (s.mbxSide ch (!b))

/-- One direction of a channel with nothing posted. -/
def MbxDir.fresh : MbxDir := ⟨Vector.replicate 8 0, 0, false⟩

/-- The direction out of side `b`. -/
def State.mbxDir (s : State) (ch : Nat) (b : Bool) : MbxDir := s.mbx.dirs.findD (2 * ch + b2n b) MbxDir.fresh

/-- Change the direction out of side `b`. -/
def State.setMbxDir (s : State) (ch : Nat) (b : Bool) (d : MbxDir) : State :=
  { s with mbx := { s.mbx with dirs := s.mbx.dirs.put (2 * ch + b2n b) d } }

/-- Record a refused or ignored access: 1 DOMAIN_OFF, 2 DENIED, 3 IGNORED (MBX_ERR). -/
def State.mbxErr (s : State) (ch kind : Nat) : State :=
  let s := (s.setF .MBX_ERR_LAST 0 kind).setF .MBX_ERR_CHANNEL 0 ch
  match kind with
  | 1 => s.bumpF .MBX_ERR_DOMAIN_OFF 0
  | 2 => s.bumpF .MBX_ERR_DENIED 0
  | _ => s.bumpF .MBX_ERR_IGNORED 0

/-- Tell a side that a message arrived or FULL cleared: source MBX of a core, manager cause MBX, nothing for a host
function that is not the manager (R357). -/
def State.mbxNotify (s : State) (ch : Nat) (b : Bool) : State :=
  let id := s.mbxSide ch b
  match bits id 28 4 with
  | 1 | 2 => s.cicEvent (bits id 16 6) 2
  | 4 => s.managerCause 7
  | _ => s

/-- Whether an offset of a channel window is one of a TX or RX register: an access there is refused while the far side is off; STATUS
stays readable (R359, Table 14-5). -/
def mbxTransfer (o : Nat) : Bool := decide (o < 0x48 ∨ 0x80 ≤ o ∧ o < 0xC0)

/-- What an access to a channel meets: the accessor's side, or 1 DOMAIN_OFF, 2 DENIED (R359). -/
def State.mbxAccess (s : State) (ch : Nat) (p : Party) : Sum Bool Nat :=
  match s.sideOf ch p with
  | none => .inr 2
  | some b => if s.farOff ch b then .inr 1 else .inl b

/-- What an access at an offset of a channel's window meets: no side bound to the accessor refuses every one (R359). -/
def State.mbxGate (s : State) (ch o : Nat) (p : Party) : Sum Bool Nat :=
  if mbxTransfer o then s.mbxAccess ch p
  else match s.sideOf ch p with
    | none => .inr 2
    | some b => .inl b

/-- Post the words held in the outgoing direction with a length; false means ignored (R357, Table 14-5). -/
def State.mbxPost (s : State) (ch : Nat) (b : Bool) (len : Nat) : State :=
  let d := s.mbxDir ch b
  if d.full ∨ len = 0 ∨ len > 8 then s.mbxErr ch 3
  else (s.setMbxDir ch b { d with len := len, full := true }).mbxNotify ch (!b)

/-- Take the message of the incoming direction of side `b`: FULL clears and the sender is told (R357). -/
def State.mbxTake (s : State) (ch : Nat) (b : Bool) : State :=
  let d := s.mbxDir ch (!b)
  if d.full then (s.setMbxDir ch (!b) { d with full := false }).mbxNotify ch (!b) else s

/-- R357: a TX_LEN write posts the message, sets FULL and notifies the receiver; refused or ignored as Table 14-6a and
R359 say. -/
def execMbxTxLen (party : Party) (channel : Nat) (value : W32) (s : State) : Result :=
  match s.mbxAccess channel party with
  | .inr k => .next ((s.mbxErr channel k).emit (.mbxRefused party channel k))
  | .inl b => .next (s.mbxPost channel b (value.toNat % 16))

/-- R357: the read that covers the last word returns it, clears FULL and notifies the sender. -/
def execMbxRxLastRead (party : Party) (channel : Nat) (s : State) : Result :=
  match s.mbxAccess channel party with
  | .inr k => .next ((s.mbxErr channel k).emit (.mbxRefused party channel k))
  | .inl b =>
    let d := s.mbxDir channel (!b)
    let w := (d.words.toList.getD (d.len - 1) 0).toNat
    .next ((s.mbxTake channel b).emit (.mbxWord party channel w))

/-- R356: MBX_LOCK locks every binding until cold reset. -/
def execMbxLock (s : State) : Result := .next (s.setF .MBX_LOCK 0 1)

/-- Clear both directions of a channel; each message held is counted in LOST (R360). -/
def State.mbxClear (s : State) (ch : Nat) : State :=
  let lost := b2n (s.mbxDir ch false).full + b2n (s.mbxDir ch true).full
  ((s.setMbxDir ch false MbxDir.fresh).setMbxDir ch true MbxDir.fresh).bumpF .MBX_STAT_LOST ch lost

/-- R360: the far side's domain returns, and both directions are cleared. -/
def execMbxDomainReturn (channel : Nat) (s : State) : Result := .next (s.mbxClear channel)

end Sys2Proof.Machine
end

