-- ==== Sys2Proof/Machine/Pool.lean ====
section
/-!
DEFINITION. Pool memory and hot tier (chapter 10): the offset map, the lines as stored and as held dirty, reading and
writing bytes under a key slot, holes and poison, and the translation of guest-virtual addresses.
-/

namespace Sys2Proof.Machine

/-! ### The byte store -/

/-- The byte stored at an offset; an unlisted offset holds 0 (log entry 5). -/
def cellGet : List Host.Cell → Nat → Byte
  | [], _ => 0
  | (k, v) :: t, n => if n = k then v else cellGet t n

/-- Store a byte, keeping the canonical form: offsets strictly rising, no zero byte listed. -/
def cellPut : List Host.Cell → Nat → Byte → List Host.Cell
  | [], n, b => if b = 0 then [] else [(n, b)]
  | (k, v) :: t, n, b =>
    if n < k then (if b = 0 then (k, v) :: t else (n, b) :: (k, v) :: t)
    else if n = k then (if b = 0 then t else (n, b) :: t)
    else (k, v) :: cellPut t n b

/-- Store consecutive bytes. -/
def cellsPut (c : List Host.Cell) (a : Nat) : List Byte → List Host.Cell
  | [] => c
  | b :: t => cellsPut (cellPut c a b) (a + 1) t

/-- Read consecutive bytes. -/
def cellsGet (c : List Host.Cell) (a n : Nat) : List Byte := (List.range n).map (fun i => cellGet c (a + i))

/-- The canonical form of a byte store. -/
def Memory.wf (c : List Host.Cell) : Bool := Tbl.rising c && c.all (fun kv => decide (kv.2 ≠ 0))

/-! ### The offset map (R249–R254) -/

/-- Pseudo-channels of a stack (R251). -/
def State.chans (s : State) : Nat := match s.edge.build.stackType with | .hbm3e => 32 | .hbm4 => 64
/-- Channels of the LC part (R251). -/
def State.lcChans (s : State) : Nat := s.getF .SRV_PART_LC_PC 0
/-- Stack capacity less the spare region, MiB. -/
def State.stackMib (s : State) : Nat := s.edge.build.stackGib * 1024 - s.getF .MEM_SPARE_RESV_MIB 0
/-- The shared size of a stack, MiB: its global and local parts together (R251). -/
def State.sharedMib (s : State) : Nat := (s.chans - s.lcChans) * s.stackMib / s.chans
/-- LC part of a stack, MiB (Table 10-2). -/
def State.lcMib (s : State) : Nat := s.lcChans * s.stackMib / s.chans
/-- Local part of a stack, MiB (Table 10-2). -/
def State.localMib (s : State) : Nat := s.getF .MEM_MAP_LOCAL_GIB 0 * 1024
/-- Global part of a stack, MiB (Table 10-2). -/
def State.globalMib (s : State) : Nat := s.sharedMib - s.localMib
/-- The map has taken effect (R250). -/
def State.mapped (s : State) : Bool := s.bitF .MEM_STATUS_MAPPED 0
/-- Stacks fitted. -/
def State.nStacks (s : State) : Nat := s.edge.build.stks

/-- 2^20 bytes. -/
def mib : Nat := 0x100000
/-- Base of the section-local windows, and their stride (Table 10-1). -/
def localBase (k : Nat) : Nat := 0x040000000000 + k * 0x004000000000
/-- Base of the LC-local windows. -/
def lcBase (k : Nat) : Nat := 0x060000000000 + k * 0x004000000000
/-- Base of the hot view of a model. -/
def hotViewBase (m : Nat) : Nat := 0xC00000000000 + m * 0x000800000000
/-- Base of the direct window of a hot-tier part. -/
def directBase (k : Nat) : Nat := 0xF00000000000 + k * 0x000100000000

/-- What an offset of this node falls in (Table 10-1). -/
inductive Region where
  | global
  | localTo (sec : Nat)
  | lcOf (sec : Nat)
  | hotView (model page byte : Nat)
  | direct (part byte : Nat)
  | none
deriving DecidableEq, Repr

/-- The window an offset falls in, sizes included (R249, R252). -/
def State.region (s : State) (off : Nat) : Region :=
  if off < 0x040000000000 then
    if s.mapped ∧ off < s.nStacks * s.globalMib * mib then .global else .none
  else if off < 0x060000000000 then
    let k := (off - 0x040000000000) / 0x004000000000
    if s.mapped ∧ off - localBase k < homeStacks s.nStacks k * s.localMib * mib then .localTo k else .none
  else if off < 0x080000000000 then
    let k := (off - 0x060000000000) / 0x004000000000
    if s.mapped ∧ off - lcBase k < homeStacks s.nStacks k * s.lcMib * mib then .lcOf k else .none
  else if off < 0xC00000000000 then .none
  else if off < 0xE00000000000 then
    let x := off - 0xC00000000000
    .hotView (x / 0x000800000000) (x % 0x000800000000 / 0x200000) (x % 0x200000)
  else if off < 0xF00000000000 then .none
  else if off < 0xF00800000000 then
    let x := off - 0xF00000000000
    .direct (x / 0x000100000000) (x % 0x000100000000)
  else .none

/-- Where a pool offset lies: stack, channel and row granule (R252). -/
def State.place (s : State) (off : Nat) : Option (Nat × Nat × Nat) :=
  let shared := s.chans - s.lcChans
  match s.region off with
  | .global =>
    let g := off / 4096
    let j := g / s.nStacks
    some (g % s.nStacks, j % shared, j / shared)
  | .localTo k =>
    let g := (off - localBase k) / 4096
    let j := g / homeStacks s.nStacks k
    some (firstStack s.nStacks k + g % homeStacks s.nStacks k, j % shared, j / shared + s.globalMib * 256 / shared)
  | .lcOf k =>
    let g := (off - lcBase k) / 4096
    let j := g / homeStacks s.nStacks k
    some (firstStack s.nStacks k + g % homeStacks s.nStacks k, shared + j % s.lcChans, j / s.lcChans)
  | _ => none

/-- The section that is home to an offset (R252, R253). -/
def State.homeOf (s : State) (off : Nat) : Nat :=
  match s.region off with
  | .direct k _ => k
  | _ => match s.place off with | some (st, _, _) => secOfStack s.nStacks st | none => 0

/-- Whether an offset is in one of the pool windows. -/
def State.inPool (s : State) (off : Nat) : Bool :=
  match s.region off with | .global | .localTo _ | .lcOf _ => true | _ => false

/-- Whether a whole range lies in one pool window of this node. -/
def State.poolRange (s : State) (off len : Nat) : Bool :=
  decide (0 < len) && s.inPool off && s.inPool (off + len - 1) && decide (s.region off = s.region (off + len - 1))

/-- The MiB of the pool windows (MEM_CAP_MAPPED). -/
def State.poolMib (s : State) : Nat :=
  s.nStacks * s.globalMib + ((List.range 8).map (fun k => homeStacks s.nStacks k * (s.localMib + s.lcMib))).foldl (· + ·) 0

/-- The hole that an offset lies in (R266). -/
def State.holeAt (s : State) (off : Nat) : Option Hole :=
  s.mem.holes.find? (fun h =>
    if h.stack then match s.place off with | some (st, _, _) => st == h.offset | none => false
    else if h.channel then
      match s.place off with
      | some (st, ch, _) => st == h.offset % 32 && ch == bits h.offset 8 7
      | none => false
    else if h.frame then off / 0x200000 == h.offset / 0x200000 && decide (0xF00000000000 ≤ off)
    else off / 4096 == h.offset / 4096)

/-- Whether an offset lies in a hole whose data is lost: it reads poison and takes no store (R266). -/
def State.holeLost (s : State) (off : Nat) : Bool := (s.holeAt off).any (fun h => !h.moved)

/-! ### Lines under key slots (R260, R261) -/

/-- A line that nothing has been written to: ciphertext of no key (Table 10-7, step 5; log entry 5). -/
def LineInfo.fresh : LineInfo := ⟨none, 0, false⟩

/-- A key slot as cold reset leaves it: slot 0 LIVE, the others FREE (R375). -/
def KeySlot.fresh (slot : Nat) : KeySlot := ⟨if slot = 0 then .live else .free, false, 0, 0⟩

/-- A key slot. -/
def State.keySlot (s : State) (k : Nat) : KeySlot := s.slices.keys.findD k (KeySlot.fresh k)

/-- Change a key slot. -/
def State.setKey (s : State) (k : Nat) (f : KeySlot → KeySlot) : State :=
  { s with slices := { s.slices with keys := s.slices.keys.put k (f (s.keySlot k)) } }

/-- Requests after which the DRBG is reseeded (R364). -/
def reseedEvery : Nat := 2 ^ 20

/-- A request to the DRBG, which is reseeded from the entropy source first when it is due (R364). -/
def State.draw (s : State) : State :=
  let due := decide (reseedEvery ≤ s.slices.sinceSeed)
  { s with slices := { s.slices with
    drbg := s.slices.drbg + 1, seeds := s.slices.seeds + b2n due, sinceSeed := if due then 1 else s.slices.sinceSeed + 1 } }

/-- A cold reset seeds the DRBG afresh and fills key slot 0 from it (R364, R375). -/
def State.fillSlotZero (s : State) : State :=
  let s := { s with slices := { s.slices with sinceSeed := reseedEvery } }.draw
  s.setKey 0 (fun _ => ⟨.live, false, s.now, s.slices.drbg⟩)

/-- What a line reads as: bytes, or poison. -/
inductive LineVal where
  | bytes (b : List Byte)
  | poison
deriving DecidableEq, Repr

/-- Read the current contents of a line under a key slot: what a cache of the block holds dirty, else what is stored; a
line under another key reads as bytes the spec leaves open (R260), a poisoned line or a hole as poison (R261, R266). -/
def State.loadLine (s : State) (off slot : Nat) : LineVal × State :=
  let ln := off / 64
  match s.mem.dirty.find ln with
  | some d =>
    if d.poison then (.poison, s)
    else if d.slot = slot then (.bytes d.data, s)
    else let (b, s) := s.freeBytes 64; (.bytes b, s)
  | none =>
    let li := s.mem.lines.findD ln LineInfo.fresh
    if li.poison || s.holeLost off then (.poison, s)
    else if li.slot = some slot ∧ li.draw = (s.keySlot slot).draw then (.bytes (cellsGet s.mem.cells (ln * 64) 64), s)
    else let (b, s) := s.freeBytes 64; (.bytes b, s)

/-- Write a whole line at the controller under a key slot, or poison it (R261, R262). A hole takes no store (R266). -/
def State.storeLine (s : State) (off slot : Nat) (b : List Byte) (poison : Bool) : State :=
  let ln := off / 64
  if s.holeLost off then s
  else { s with mem := { s.mem with
    cells := cellsPut s.mem.cells (ln * 64) (b.take 64),
    lines := s.mem.lines.put ln ⟨some slot, (s.keySlot slot).draw, poison⟩, copies := s.mem.copies.del ln } }

/-- Poison a stored line and drop what caches held of it (R292, R294). -/
def State.poisonLine (s : State) (off : Nat) : State :=
  let ln := off / 64
  { s with mem := { s.mem with
    lines := s.mem.lines.put ln { s.mem.lines.findD ln LineInfo.fresh with poison := true }, dirty := s.mem.dirty.del ln,
    copies := s.mem.copies.del ln } }

/-- Hold a line dirty in a cache of the block. -/
def State.dirtyLine (s : State) (off slot : Nat) (b : List Byte) (poison : Bool) : State :=
  { s with mem := { s.mem with dirty := s.mem.dirty.put (off / 64) ⟨b, slot, poison⟩, copies := s.mem.copies.del (off / 64) } }

/-- Write what a cache holds dirty back to memory (R292: poison is kept). -/
def State.writeBack (s : State) (off : Nat) : State :=
  match s.mem.dirty.find (off / 64) with
  | some d => { (s.storeLine off d.slot d.data d.poison) with mem := { (s.storeLine off d.slot d.data d.poison).mem with dirty := s.mem.dirty.del (off / 64) } }
  | none => s

/-- Replace bytes of a line from position `p` on. -/
def patch (line : List Byte) (p : Nat) (b : List Byte) : List Byte := line.take p ++ b ++ line.drop (p + b.length)

/-- Read `n` bytes from an offset under a key slot, line by line (`fuel` lines at most); poison in any line is poison. -/
def State.readLines (s : State) (slot : Nat) : Nat → Nat → Nat → LineVal × State
  | 0, _, _ => (.bytes [], s)
  | fuel + 1, off, n =>
    if n = 0 then (.bytes [], s)
    else
      let k := min n (64 - off % 64)
      match s.loadLine off slot with
      | (.poison, s) => (.poison, s)
      | (.bytes l, s) =>
        match s.readLines slot fuel (off + k) (n - k) with
        | (.poison, s) => (.poison, s)
        | (.bytes r, s) => (.bytes ((l.drop (off % 64)).take k ++ r), s)

/-- Read `n` bytes of this node's memory under a key slot. -/
def State.readMem (s : State) (off n slot : Nat) : LineVal × State := s.readLines slot (n / 64 + 2) off n

/-- Whether a host or a node may hold a line of a range dirty: an entry OWNED or EXCL whose OWNER is 8–16. -/
def State.outsideOwned (s : State) (off n : Nat) : Bool :=
  s.coh.dir.any (fun (kv : Nat × DirEnt) => decide (off / 64 ≤ kv.1 ∧ kv.1 * 64 < off + n) && !kv.2.lost &&
    (kv.2.sum == 1 || kv.2.sum == 2) && decide (8 ≤ kv.2.owner ∧ kv.2.owner ≤ 16))

/-- The number under which what a uncached requester of the block asked for is kept, by its tag and the line. -/
def curKey (tag line : Nat) : Nat := line * 1024 + tag

/-- The lines of a range that a holder outside the block may have changed, and that a requester has not been given yet (R271). -/
def State.needs (s : State) (tag off n : Nat) : List Nat :=
  ((s.coh.dir.filter (fun (kv : Nat × DirEnt) => decide (off / 64 ≤ kv.1 ∧ kv.1 * 64 < off + n))).map (·.1)).filter (fun l =>
    s.outsideOwned (l * 64) 64 && !(s.coh.curs.find (curKey tag l)).any (fun (c : Cur) => c.got.isSome))

/-- A requester has used what it was given. -/
def State.dropCurs (s : State) (tag : Nat) : State := { s with coh := { s.coh with curs := s.coh.curs.keep (fun k _ => k % 1024 != tag) } }

/-- Whether a write of a range would write part of a poisoned line (R292). -/
def State.partPoison (s : State) (off n slot : Nat) : Bool :=
  let bad (a : Nat) : Bool := match (s.loadLine a slot).1 with | .poison => true | .bytes _ => false
  (off % 64 != 0 && bad off) || ((off + n) % 64 != 0 && bad (off + n))

/-- The line that a write of part of it merges into: what a holder outside the block may have changed is left open here, as its answer is no
operand of the command. -/
def State.mergeLine (s : State) (off slot : Nat) : LineVal × State :=
  if s.outsideOwned off 1 then (let (b, s) := s.freeBytes 64; (.bytes b, s)) else s.loadLine off slot

/-- Write bytes to this node's memory under a key slot, performed at the controller; a line written in part keeps its
other bytes, as they read under that slot. What a cache held of the line is merged first (R281). -/
def State.writeLines (s : State) (slot : Nat) : Nat → Nat → List Byte → State
  | 0, _, _ => s
  | fuel + 1, off, b =>
    if b = [] then s
    else
      let k := min b.length (64 - off % 64)
      let s :=
        if k = 64 then (s.storeLine off slot (b.take 64) false)
        else match s.mergeLine off slot with
          | (.poison, s) => s.storeLine off slot (patch (List.replicate 64 0) (off % 64) (b.take k)) true
          | (.bytes l, s) => s.storeLine off slot (patch l (off % 64) (b.take k)) false
      let s := { s with mem := { s.mem with dirty := s.mem.dirty.del (off / 64) } }
      s.writeLines slot fuel (off + k) (b.drop k)

/-! ### Telemetry and Temper's state (R227, TMP_STATUS) -/

/-- The current record, if the last valid one is current (R227). -/
def State.tlmNow (s : State) : Option TlmRec :=
  match s.edge.tlm with
  | some r =>
    if s.now ≤ r.arrived + s.getF .TMP_TLM_STALE_US 0 * 1000 ∧ r.age ≤ s.getF .TMP_TLM_AGE_MAX 0 then some r else none
  | none => none

/-- Whether Temper is stale (R227). -/
def State.stale (s : State) : Bool := s.tlmNow.isNone

/-- TMP_STATUS.STATE: the Quench or flush in force (2 to 4, the field as it is stored), else 1 NORMAL while a record is current and the
core runs, else 0 STALE. -/
def State.tmpState (s : State) : Nat :=
  let v := s.getF .TMP_STATUS_STATE 0
  if 2 ≤ v then v else if s.coreOn && !s.stale then 1 else 0

/-- Whether the flush of a full Quench runs, or will run once its items have stopped: a warm reset is then held (Table 9-3, R246). -/
def State.flushAhead (s : State) : Bool :=
  s.edge.pst.epoch == .flushing || (s.getF .TMP_STATUS_STATE 0 == 3 && s.getF .TMP_FLUSH_STATE 0 != 3)

/-! ### Durable pages (R241–R243, R247) -/

/-- The coverage in force: zero while stale (R242). -/
def State.coverage (s : State) : Nat := if s.stale then 0 else s.getF .TMP_DUR_COVER_PAGES 0

/-- Dirty, in-flight and reserved pages. -/
def State.dirtyCount (s : State) : Nat := s.temper.dur.length + s.getF .TMP_DUR_RESV_PAGES 0

/-- Whether new durable pages fit within the coverage (R243, R244). -/
def State.holdupOk (s : State) (new : Nat) : Bool := decide (s.dirtyCount + new ≤ s.coverage)

/-- The enabled durable region that a node offset lies in. -/
def State.durRegion (s : State) (off : Nat) : Option Nat :=
  (List.range 64).find? (fun n => s.bitF .TMP_DUR_SIZE_EN n &&
    decide (s.getF .TMP_DUR_BASE n * 0x200000 ≤ s.node * 2 ^ 48 + off ∧
      s.node * 2 ^ 48 + off < (s.getF .TMP_DUR_BASE n + s.getF .TMP_DUR_SIZE_SIZE n) * 0x200000))

/-- The 4 KiB pages of a range that a store would make durable-dirty anew: in an enabled region, and clean or in flight. -/
def State.newDirty (s : State) (off n : Nat) : List Nat :=
  ((List.range ((off + n + 4095) / 4096 - off / 4096)).map (off / 4096 + ·)).filter (fun p =>
    (s.durRegion (p * 4096)).isSome && s.temper.dur.find p != some DurPage.dirty)

/-- Mark the durable pages of a range dirty (R247). -/
def State.dirtyPages (s : State) (off n : Nat) : State :=
  { s with temper := { s.temper with dur := (s.newDirty off n).foldl (fun t p => t.put p DurPage.dirty) s.temper.dur } }

/-- Whether a range has a page that the flush has sent: no store to it is admitted (Table 9-5). -/
def State.flushSent (s : State) (off n : Nat) : Bool :=
  (s.newDirty off n).any (fun p => match s.temper.dur.find p with | some (.flushing _) => true | _ => false)

/-- Cover a store that no item has reserved for: its durable pages are checked and become dirty (R243); `none` refuses it. -/
def State.coverStore (s : State) (off n : Nat) : Option State :=
  let new := (s.newDirty off n).length
  if new = 0 then some s else if s.flushSent off n || !s.holdupOk new then none else some (s.dirtyPages off n)

/-- Write bytes to this node's memory under a key slot; durable pages written become dirty. -/
def State.writeMem (s : State) (off slot : Nat) (b : List Byte) : State :=
  (s.writeLines slot (b.length / 64 + 2) off b).dirtyPages off b.length

/-! ### The hot tier (R253, R254) -/

/-- Frames of the hot-set area of a part. -/
def State.hotFrames (s : State) (k : Nat) : Nat := s.getF .SRV_HOT_AREA_MIB k / 2
/-- Whether a frame of a part lies in its quota area (R253). -/
def State.quotaFrame (s : State) (k f : Nat) : Bool := decide (s.hotFrames k ≤ f) && decide (f < if k = 0 then 2040 else 2048)
/-- Whether a model is RESIDENT (SRV_MDL_CTRL.STATE 2). -/
def State.resident (s : State) (m : Nat) : Bool := s.getF .SRV_MDL_CTRL_STATE m == 2
/-- The direct-window offset of a page of a resident model. -/
def State.hotPage (s : State) (m page : Nat) : Option Nat :=
  if s.resident m then
    match s.serve.models.find m with
    | some x => (x.frames[page]?).map (fun pf => directBase pf.1 + pf.2 * 0x200000)
    | none => none
  else none

/-- The key slot of an access at an offset: slot 0 on the frames of models, which the hot views show (R254). -/
def State.slotAt (s : State) (off slot : Nat) : Nat :=
  match s.region off with
  | .direct k b => if s.quotaFrame k (b / 0x200000) then slot else 0
  | _ => slot

/-! ### Translation (R255–R258) -/

/-- The reasons of Table 10-4, coded as in Table 4-6 (ST_XLATE). -/
def xNotMapped : Nat := 1
/-- PERMISSION. -/
def xPermission : Nat := 2
/-- ATS. -/
def xAts : Nat := 3

/-- What a guest-virtual address resolves to: a node and offset with the write right, the host's translation, or a
failure with its reason (Table 10-4); `poisoned` gives the address of a table entry that read as poison. -/
inductive Xlate where
  | mem (node off : Nat) (write : Bool) (pageBits : Nat)
  | host (path : HostPath)
  | fail (reason : Nat) (poisoned : Option Nat)
deriving DecidableEq, Repr

/-- The path of a slice's HOST entries (R258). -/
def State.hostPath (s : State) (slice : Nat) : HostPath :=
  ⟨slice, s.getF .MEM_XCTX_CFG_PORT slice, s.getF .MEM_XCTX_CFG_PASID slice, s.bitF .MEM_XCTX_CFG_ATS slice⟩

/-- One level of the walk (R255): the entry at `table`, and what it says at this level. Levels count 3, 2, 1, 0. -/
def State.walk (s : State) (slice va : Nat) : Nat → Nat → Xlate × State
  | 0, _ => (.fail xNotMapped none, s)
  | fuel + 1, table =>
    let ea := table + 8 * bits va (12 + 9 * fuel) 9
    if table >>> 48 ≠ s.node ∨ !s.inPool (ea % 2 ^ 48) then (.fail xNotMapped none, s)
    else
      match (if s.otherHomes (ea % 2 ^ 48) || s.outsideOwned (ea % 2 ^ 48) 8 then (let (b, s) := s.freeBytes 8; (.bytes b, s)) else s.readMem (ea % 2 ^ 48) 8 0) with
      | (.poison, s) => (.fail xNotMapped (some ea), s)
      | (.bytes b, s) =>
        let e := natLE b
        if !e.testBit 0 then (.fail xNotMapped none, s)
        else if e.testBit 5 then (.host (s.hostPath slice), s)
        else if bits e 6 6 ≠ 0 ∨ e.testBit 2 then (.fail xNotMapped none, s)
        else
          let leaf := e.testBit 3
          if fuel ≥ 2 then (if leaf then (.fail xNotMapped none, s) else s.walk slice va fuel (bits e 12 52 * 4096))
          else if fuel = 1 ∧ !leaf then s.walk slice va fuel (bits e 12 52 * 4096)
          else if !leaf then (.fail xNotMapped none, s)
          else
            let pb := if fuel = 1 then 21 else if e.testBit 4 then 16 else 12
            if fuel = 1 ∧ bits e 12 9 ≠ 0 then (.fail xNotMapped none, s)
            else (.mem (bits e 48 16) (bits e 12 36 * 4096 + (if fuel = 1 then va % 2 ^ 21 else va % 2 ^ 12)) (e.testBit 1) pb, s)

/-- The TLB entry of a section that covers a guest-virtual address (R257). -/
def State.tlbHit (s : State) (sec slice va : Nat) : Option TlbEnt :=
  s.mem.tlb.find? (fun t => t.sec == sec && t.slice == slice && t.page == va >>> t.bits)

/-- Translate a guest-virtual address of a slice at a section: its TLB, or a walk whose result the TLB caches (R255,
R257); the host's translation is requested and cached where ATS is enabled (R258). A section's TLB holds 8,192 entries; the oldest makes room (DESIGN CHOICE, log entry 12). A poisoned table entry
is recorded as WALK_POISON naming the slice. -/
def State.xlate (s : State) (sec slice va : Nat) : Xlate × State :=
  if va ≥ 2 ^ 48 then (.fail xNotMapped none, s)
  else if !s.bitF .MEM_XCTX_ROOT_EN slice then (.fail xNotMapped none, s)
  else
    match s.tlbHit sec slice va with
    | some t =>
      if t.host then (.host (s.hostPath slice), s)
      else (.mem t.node (t.frame + va % 2 ^ t.bits) t.write t.bits, s)
    | none =>
      match s.walk slice va 4 (s.getF .MEM_XCTX_ROOT_ROOT slice * 4096) with
      | (.fail r (some ea), s) =>
        (.fail r none, s.fault { FaultRec.blank 0x0012 0 6 with slice := slice, addr := ea })
      | (.fail r none, s) => (.fail r none, s)
      | (x, s) =>
        let ent : TlbEnt :=
          match x with
          | .mem n off w pb => ⟨sec, slice, va >>> pb, pb, false, w, n, off - va % 2 ^ pb⟩
          | _ => ⟨sec, slice, va >>> 12, 12, true, true, 0, 0⟩
        if ent.host ∧ !(s.hostPath slice).ats then (x, s) else
        let s := if ent.host then s.emit (.atsRequest (s.hostPath slice) (va >>> 12)) else s
        let mine := s.mem.tlb.filter (fun t => t.sec == sec)
        let tlb := if mine.length ≥ 8192 then s.mem.tlb.erase (mine.headD ent) else s.mem.tlb
        (x, { s with mem := { s.mem with tlb := tlb ++ [ent] } })

/-- A request by ATS, or one made under its answer, failed (R258): the slice's HOST entries are dropped. -/
def State.atsFailed (s : State) (p : HostPath) : State :=
  { s with mem := { s.mem with tlb := s.mem.tlb.filter (fun t => !(t.slice == p.slice && t.host)) } }

/-- An access to host memory that has its answer: where the host's translation failed, what it gave is dropped. -/
def State.hostAnswered (s : State) (p : HostPath) (e : Ext) : State := match e with | .atsFail => s.atsFailed p | _ => s

/-- Where an access ends up. -/
inductive Target where
  | pool (off : Nat)
  | hot (off : Nat)
  | remote (addr : Nat)
  | host (path : HostPath)
  | stage (va : Nat)
  | fail (reason : Nat)
deriving DecidableEq, Repr

/-- Who makes an access: its slice, the model its cast names, and whether it is at steward privilege with
cw.xctx.PHYS (R254). -/
structure Accessor where
  slice : Nat
  model : Option Nat
  phys : Bool
deriving DecidableEq, Repr

/-- The checks on a target in this node (R249, R254). -/
def State.targetHere (s : State) (a : Accessor) (off : Nat) (write : Bool) : Target :=
  match s.region off with
  | .global | .localTo _ | .lcOf _ => .pool off
  | .hotView m page byte =>
    if write ∨ !(a.slice == 0 || a.model == some m) then .fail xPermission
    else match s.hotPage m page with | some o => .hot (o + byte) | none => .fail xNotMapped
  | .direct k byte =>
    let f := byte / 0x200000
    let mine := decide (s.getF .SLC_HOT_PART a.slice = k ∧ s.getF .SLC_HOT_FIRST a.slice ≤ f ∧
      f < s.getF .SLC_HOT_FIRST a.slice + s.getF .SLC_HOT_COUNT a.slice)
    if a.phys ∨ (mine && s.quotaFrame k f) then .hot off else .fail xPermission
  | .none => .fail xNotMapped

/-- Resolve a global address (R249): this node, or another. -/
def State.targetOf (s : State) (a : Accessor) (addr : Nat) (write : Bool) : Target :=
  if addr >>> 48 = s.node ∧ !(s.otherHomes (addr % 2 ^ 48) && s.inPool (addr % 2 ^ 48)) then s.targetHere a (addr % 2 ^ 48) write else .remote addr

/-- Bytes that a staged place covers. -/
def Kept.size (x : Kept) : Nat :=
  match x.body with
  | .bytes b => b.length
  | .pages l => l.length * 65536

/-- The staged place that covers an address of slice 0. -/
def State.staged (s : State) (va : Nat) : Option Kept :=
  s.serve.stage.find? (fun x => decide (x.base ≤ va ∧ va < x.base + x.size))

/-- Read `n` staged bytes. -/
def State.stageRead (s : State) (va n : Nat) : List Byte :=
  match s.staged va with
  | some ⟨_, base, .bytes b⟩ => (b.drop (va - base) ++ List.replicate n 0).take n
  | _ => List.replicate n 0

/-- Write staged bytes. -/
def State.stageWrite (s : State) (va : Nat) (new : List Byte) : State :=
  match s.staged va with
  | some ⟨m, base, .bytes b⟩ =>
    let o := va - base
    let y : Kept := ⟨m, base, .bytes ((b.take o ++ new ++ b.drop (o + new.length)).take b.length)⟩
    { s with serve := { s.serve with stage := s.serve.stage.map (fun z => if z = ⟨m, base, .bytes b⟩ then y else z) } }
  | _ => s

/-- Give up what is kept for a model's steps. -/
def State.clearStage (s : State) (m : Nat) : State := { s with serve := { s.serve with stage := s.serve.stage.filter (fun x => x.model != m) } }

/-- Where an address of slice 0 leads that the firmware keeps for a running step (R213, R214). -/
def State.stageTarget (s : State) (a : Accessor) (va : Nat) : Option Target :=
  if a.slice = 0 then (s.staged va).map (fun x => match x.body with
    | .bytes _ => .stage va
    | .pages l => .pool (l.getD ((va - x.base) / 65536) 0 + (va - x.base) % 65536))
  else none

/-- Resolve an access at a section: a global address at steward privilege with PHYS, else a guest-virtual address of
the accessor's slice, the write right checked (Table 10-4); what the firmware keeps for a running step lies before the tables. -/
def State.resolve (s : State) (sec : Nat) (a : Accessor) (va : Nat) (write : Bool) : Target × State :=
  if a.phys then (s.targetOf a va write, s)
  else match s.stageTarget a va with
  | some t => (t, s)
  | none =>
    match s.xlate sec a.slice va with
    | (.fail r _, s) => (.fail r, s)
    | (.host p, s) => (.host p, s)
    | (.mem n off w _, s) =>
      if write ∧ !w then (.fail xPermission, s) else (s.targetOf a (n <<< 48 + off) write, s)

/-- The key slot of a slice's accesses (R260): slot 0 for slice 0, else SLC_STATE.KEY. -/
def State.sliceKey (s : State) (slice : Nat) : Nat := if slice = 0 then 0 else s.getF .SLC_STATE_KEY slice

/-! ### The dirty log (R340) -/

/-- Whether an offset lies in the range of the dirty log. -/
def State.logged (s : State) (off : Nat) : Bool :=
  let lo := s.getF .SLC_DLOG_LO 0 * 4096
  decide (lo ≤ off) && decide (off < lo + s.getF .SLC_DLOG_PAGES 0 * 4096)

/-- Byte and bit of the bitmap for a logged offset; the byte by its global address. -/
def State.logBit (s : State) (off : Nat) : Nat × Nat :=
  let i := off / 4096 - s.getF .SLC_DLOG_LO 0
  (s.getF .SLC_DLOG_BASE 0 * 64 + i / 8, i % 8)

/-- A byte of the bitmap under key slot 0; `none`: it is no byte of this node's memory, or it reads poisoned. Of a bitmap at another node the block
takes its own copy, which is empty when the log starts (DESIGN CHOICE, log entry 45). -/
def State.mapByte (s : State) (a : Nat) : Option Nat × State :=
  if a / 2 ^ 48 ≠ s.node then (some (s.slices.farLog.findD a 0), s)
  else if !s.inPool (a % 2 ^ 48) then (none, s)
  else match s.readMem (a % 2 ^ 48) 1 0 with
  | (.bytes x, s) => (some (natLE x), s)
  | (.poison, s) => (none, s)

/-- Write a byte of the bitmap under key slot 0: at another node with WR_PART. -/
def State.putLogByte (s : State) (a v : Nat) : State :=
  if a / 2 ^ 48 = s.node then match s.coverStore (a % 2 ^ 48) 1 with
    | some s => s.writeMem (a % 2 ^ 48) 0 (bytesLE 1 v)
    | none => s
  else
    let s := { s with slices := { s.slices with farLog := s.slices.farLog.put a v } }
    s.send { s.mkMsg .wrPart (a / 2 ^ 48) (a / 64 * 64) with
      src := .node s.node, slice := 0, mask := 1 <<< (a % 64),
      data := List.replicate (a % 64) 0 ++ bytesLE 1 v ++ List.replicate (63 - a % 64) 0 }

/-- Set or clear the bit of a logged offset. -/
def State.setLogBit (s : State) (off : Nat) (v : Bool) : State :=
  let (a, b) := s.logBit off
  match s.mapByte a with
  | (some x, s) => s.putLogByte a (putBit x b v)
  | (none, s) => s

/-- The tag of the page mover's reads. -/
def moverTag : Nat := 300
/-- The tag of the PST reader. -/
def pstTag : Nat := 301
/-- The tag of a model's load. -/
def loadTag : Nat := 302
/-- The tag of the copies of a step's outputs. -/
def stepTag : Nat := 303

/-- A line may become dirty under a key slot: while the log runs on the slot's slice, its page's bit is set (R340), and what the page mover
was given of it is read again. -/
def State.dlog (s : State) (off slot : Nat) : State :=
  let s := { s with coh := { s.coh with curs := s.coh.curs.del (curKey moverTag (off / 64)) } }
  if s.bitF .SLC_DLOG_CTRL_EN 0 ∧ s.logged off ∧ slot = s.sliceKey (s.getF .SLC_DLOG_CTRL_SLICE 0) then s.setLogBit off true else s

/-- Every page of a written range. -/
def State.dlogRange (s : State) (off n slot : Nat) : State :=
  if s.bitF .SLC_DLOG_CTRL_EN 0 then
    s.each (List.range ((off + n + 4095) / 4096 - off / 4096)) (fun s i => s.dlog ((off / 4096 + i) * 4096) slot)
  else s

/-! ### Messages to members, and writes of uncached requesters (R275, R287) -/

/-- The members outside the block that an entry names: host ports, and nodes (all through the fabric gateway when there
are more than two). -/
def DirEnt.outside (e : DirEnt) : List Who :=
  ((List.range 8).filter (fun d => e.pres.testBit (8 + d))).map Who.host ++
    (if e.fab then (if e.nptr = 3 then [.fabric] else ([Who.node e.node0, Who.node e.node1].take e.nptr)) else [])

/-- The address by which a node beyond the block names a line: in both-ends mode the block's own lines are BE_NODE's (R322). -/
def State.addrFor (s : State) (n addr : Nat) : Nat :=
  if s.edge.straps.bothEnds ∧ n = s.node ∧ addr >>> 48 = s.node then s.getF .FIL_BE_BE_NODE 0 * 2 ^ 48 + addr % 2 ^ 48 else addr

/-- The lines of a range that a holder outside the block has, and must give up before a write of them counts as done (R271, R281). -/
def State.outsideHeld (s : State) (off n : Nat) : List Nat :=
  (s.coh.dir.filter (fun (kv : Nat × DirEnt) => decide (off / 64 ≤ kv.1 ∧ kv.1 * 64 < off + n) && !kv.2.outside.isEmpty)).map (·.1)

/-- Send a coherence message to a member: over a link for a node, to a host port as CXL maps it (R272), else on the rings. -/
def State.tell (s : State) (w : Who) (m : Msg) : State :=
  match w with
  | .node n => s.send { m with src := .node s.node, srcNode := s.node, dst := n, addr := s.addrFor n m.addr }
  | .host d => match m.kind with
    | .snpInv => s.emit (.biSnp d true m.addr)
    | .snpShr | .snpCur => s.emit (.biSnp d false m.addr)
    | _ => s.emit (.ring w { m with src := w })
  | _ => s.emit (.ring w { m with src := w })

/-- The global address of an offset of this node (R249). -/
def State.gaddr (s : State) (off : Nat) : Nat := s.node * 2 ^ 48 + off

/-- A write of a whole block range by an uncached requester takes the lines from every holder (Table 11-6, WR_FULL and
WR_PART): holders outside are sent SNP_INV, entries are freed, and caches of the block drop their copies. -/
def State.takeLines (s : State) (off n : Nat) : State :=
  let hit (l : Nat) : Bool := decide (off / 64 ≤ l ∧ l * 64 < off + n)
  let s := s.each (s.coh.dir.filter (fun (kv : Nat × DirEnt) => hit kv.1)) (fun s kv =>
    s.each kv.2.outside (fun s w => s.tell w (s.mkMsg .snpInv s.node (s.gaddr (kv.1 * 64)))))
  { s with coh := { s.coh with
    dir := s.coh.dir.keep (fun l _ => !hit l), l0 := s.coh.l0.keep (fun k _ => !hit (k / 64)),
    l1 := s.coh.l1.keep (fun k _ => !hit (k / 8)), hpf := s.coh.hpf.keep (fun k _ => !hit (k % 2 ^ 42)) } }

/-- The home stores bytes that the block itself writes under a key slot: holders elsewhere lose the lines, and the dirty log of a slice
with that slot is kept (R340). Durable coverage and holes are the caller's to check. -/
def State.writeHome (s : State) (off slot : Nat) (b : List Byte) : State :=
  ((s.writeMem off (s.slotAt off slot) b).takeLines off b.length).dlogRange off b.length slot

end Sys2Proof.Machine
end

