-- ==== Sys2Proof/Machine/Items.lean ====
section
/-!
DEFINITION. Items and their completions (chapters 03, 04): allowances and the terms of a promise, the completion write,
what an item's end releases, and how an item is stopped or withdrawn.
-/

namespace Sys2Proof.Machine

/-! ### Allowances (R62, R63) -/

/-- An allowance in ns; none for UNIT 3 (R62). -/
def allowNs (v : Nat) : Option Nat :=
  match bits v 30 2 with
  | 0 => some (v % 2 ^ 30)
  | 1 => some (v % 2 ^ 30 * 1000)
  | 2 => some (v % 2 ^ 30 * 1000000)
  | _ => none

/-- A duration encoded in the finest unit that fits, rounded up (R63: a PROMISE). -/
def encodeUp (ns : Nat) : Nat :=
  if ns < 2 ^ 30 then ns
  else if ceilDiv ns 1000 < 2 ^ 30 then 2 ^ 30 + ceilDiv ns 1000
  else 2 ^ 31 + min (ceilDiv ns 1000000) (2 ^ 30 - 1)

/-- A duration encoded in the finest unit that fits, rounded down (R63: a forwarded allowance). -/
def encodeDown (ns : Nat) : Nat :=
  if ns < 2 ^ 30 then ns
  else if ns / 1000 < 2 ^ 30 then 2 ^ 30 + ns / 1000
  else 2 ^ 31 + min (ns / 1000000) (2 ^ 30 - 1)

/-- The PROMISE field of a completion: exact for slice 0, in µs or ms rounded up for the others (R70, Table 15-6). -/
def encodePromise (slice ns : Nat) : Nat :=
  if slice = 0 then encodeUp ns
  else if ceilDiv ns 1000 < 2 ^ 30 then 2 ^ 30 + ceilDiv ns 1000
  else 2 ^ 31 + min (ceilDiv ns 1000000) (2 ^ 30 - 1)

/-- The RESIDENCE field: rounded up to 1,000 ns for slices other than 0, then saturated (Table 15-6). -/
def residence (slice ns : Nat) : Nat := min (if slice = 0 then ns else ceilDiv ns 1000 * 1000) (2 ^ 32 - 1)

/-! ### Terms of the bound (R67) -/

/-- A product with a speed factor in 1/1024, rounded up to the next ns (R67). -/
def scale (sg ns : Nat) : Nat := ceilDiv (sg * ns) 1024
/-- T_block (Table 3-2). -/
def tBlock (sg : Nat) : Nat := scale sg 100000
/-- T_done (Table 3-2). -/
def tDone (sg : Nat) : Nat := 1000 + scale sg 500
/-- T_exec = (S_g × BOUND_CORE + BOUND_FIX) ÷ ρ, ρ = num ÷ den, rounded up. -/
def tExec (sg core fix num den : Nat) : Nat := ceilDiv ((scale sg core + fix) * den) num

/-- The speed guard S_g in 1/1024 (R60). -/
def State.sg (s : State) : Nat := s.getF .PRM_STATUS_S_G 0

/-! ### Items -/

/-- A class as the number of the descriptor (0 LC, 1 BE). -/
def clsNum : Cls → Nat | .lc => 0 | .be => 1

/-- The ledger of a slice, class and section group (R68). -/
def ledgerKey (slice : Nat) (c : Cls) (group : Nat) : Nat := (slice * 2 + clsNum c) * 256 + group

/-- Whether an item holds a model: a launch of a cast that names it, a request of a step on it, or a step of it (R203). -/
def Item.holds (x : Item) (m : Nat) : Bool := x.model == some m && x.desc.opc != 0xA0

/-- Write an item. -/
def State.setItem (s : State) (i : Nat) (x : Item) : State := { s with work := { s.work with items := s.work.items.put i x } }
/-- Change an item, if it is open. -/
def State.updItem (s : State) (i : Nat) (f : Item → Item) : State := { s with work := { s.work with items := s.work.items.upd i f } }
/-- An open item. -/
def State.item (s : State) (i : Nat) : Option Item := s.work.items.find i
/-- An open item with its context as it stands: what its core holds while it is loaded. -/
def State.itemNow (s : State) (i : Nat) : Option Item :=
  (s.item i).map (fun x => match s.work.cores.find x.core with
    | some k => if k.item = some i then { x with ctx := k.ctx } else x
    | none => x)
/-- The open items that satisfy a test, with their numbers, in acceptance order. -/
def State.itemsWhere (s : State) (p : Item → Bool) : List (Nat × Item) := s.work.items.filter (fun kv => p kv.2)
/-- Change an engine operation, if it exists. -/
def State.updOp (s : State) (o : Nat) (f : Op → Op) : State := { s with work := { s.work with ops := s.work.ops.upd o f } }
/-- Remove an engine operation. -/
def State.delOp (s : State) (o : Nat) : State := { s with work := { s.work with ops := s.work.ops.del o } }
/-- The operations of an item. -/
def State.opsOf (s : State) (i : Nat) : List (Nat × Op) := s.work.ops.filter (fun (kv : Nat × Op) => kv.2.item == i)

/-- A counter that wraps at its width. -/
def State.incF (s : State) (f : Fld) (i : Nat) : State := s.setF f i (s.getF f i + 1)

/-- Count on a queue: QCX_CNTn (0 fetched, 1 completions, 2 not admitted, 3 timeouts, 4 cancelled). -/
def State.countQ (s : State) (q n : Nat) : State := s.incF .QCX_CNT_COUNT (q * 5 + n)

/-- Entries of a queue's rings. -/
def State.entries (s : State) (q : Nat) : Nat := 2 ^ s.getF .QCX_CFG_LOG2_ENTRIES q
/-- QCX_STATE.STATE: 0 FREE, 1 ACTIVE, 2 PAUSED, 3 FROZEN, 4 TOMBSTONE. -/
def State.qState (s : State) (q : Nat) : Nat := s.getF .QCX_STATE_STATE q
/-- Owner of a queue. -/
def State.qSlice (s : State) (q : Nat) : Nat := s.getF .QCX_OWNER_SLICE q
/-- The section of a queue's bound core. -/
def State.qSec (s : State) (q : Nat) : Nat := secOfCore (s.getF .QCX_BIND_CORE q)

/-- Pause a queue on an access failure: LAST_ERR, and manager vector QUEUE_ERR (Table 4-12). A FROZEN queue stays FROZEN, and THAW
returns it to PAUSED (DESIGN CHOICE, log entry 77). -/
def State.pauseOnError (s : State) (q err : Nat) : State :=
  ((if s.qState q = 3 then s.setF .QCX_STATE_PRIOR q 2 else s.setF .QCX_STATE_STATE q 2).setF .QCX_ERR_LAST_ERR q err).managerCause 1

/-- The same for the write of a CQ entry: until RESUME_QUEUE the queue's completions are held (R424). -/
def State.cqError (s : State) (q err : Nat) : State := (s.setQx q { s.qx q with cqFailed := true }).pauseOnError q err

/-! ### Cores -/

/-- A context with every register zero, p0 reading 1, every handle FREE (Table 5-1). -/
def Ctx.fresh : Ctx :=
  { g := Vector.replicate 32 0, p := Vector.replicate 8 false, h := Vector.replicate 16 .free, pc := 0, rerr := 0,
    remoteRt := 0, lsBase := 0, lsSize := 0, xctx := 0, forced := [] }

/-- A core as reset leaves it: no item, the firmware's own window (R116); the steward control words, for which the spec gives no reset value, are zero
(DESIGN CHOICE, log entry 3). -/
def Core.fresh : Core :=
  { item := none, ctx := { Ctx.fresh with lsSize := 0x40000 }, priv := true, exl := false, ie := false, ppriv := false, epc := 0, cause := 0, badaddr := 0,
    tvec := 0, ivec := 0, stack := [], store := [], stretchAt := 0, serviceAt := none, ahead := false, turn := none, lcTurns := 0, rrLast := 0, rrBe := 0,
    yielded := false, reading := none, access := none }

/-- A core. -/
def State.core (s : State) (c : Nat) : Core := s.work.cores.findD c Core.fresh
/-- Change a core. -/
def State.setCore (s : State) (c : Nat) (x : Core) : State := { s with work := { s.work with cores := s.work.cores.put c x } }

/-- A core whose item has left it: it is at steward privilege with the firmware's own window (R116). -/
def Core.unloaded (k : Core) : Core :=
  { k with item := none, priv := true, exl := false, serviceAt := none, ahead := false, reading := none, access := none, ctx := { k.ctx with lsBase := 0, lsSize := 0x40000, xctx := 0 } }

/-! ### Stretches and what they are charged to (R128, R219–R221, R234) -/

/-- A model's step chain. -/
def State.chain (s : State) (m : Nat) : Chain := s.serve.chains.findD m ⟨[], 0, 0, []⟩
/-- Change a model's step chain. -/
def State.setChain (s : State) (m : Nat) (c : Chain) : State := { s with serve := { s.serve with chains := s.serve.chains.put m c } }

/-- Most credit that a floor holds: 200,000 ns, in 1/4,096 ns. -/
def creditCap : Int := 200000 * 4096

/-- A slice's floor credit in a section, brought up to now while it holds BE items there. -/
def State.creditNow (s : State) (k : Nat) : Credit :=
  match s.work.floorCredit.find k with
  | some c => ⟨min creditCap (c.value + (s.getF .SLC_PLACE_BE_FLOOR (k % 4096) * (s.now - c.at_) : Nat)), s.now⟩
  | none => ⟨0, s.now⟩

/-- The time that P_run divides an item's energy by: S_adm × BOUND_CORE + BOUND_FIX, in ns (R234). -/
def Item.runTime (x : Item) : Nat := scale x.sAdm x.boundCore + x.boundFix

/-- Deficit of a slice on a core, in ns (R220). -/
def State.deficitOf (s : State) (c slice : Nat) : Int := s.work.deficit.findD (c * 4096 + slice) 0

/-- Charge a BE stretch: the slice's floor credit, its deficit, and the grant it ran on (R219, R220, R234). -/
def State.chargeBe (s : State) (c len : Nat) (x : Item) : State :=
  let sec := secOfCore c
  let k := sec * 4096 + x.slice
  let cr := s.creditNow k
  let s := { s with work := { s.work with
    floorCredit := s.work.floorCredit.put k ⟨cr.value - (len * 4096 : Nat), s.now⟩
    deficit := s.work.deficit.put (c * 4096 + x.slice) (s.deficitOf c x.slice - (len : Nat)) } }
  if (s.core c).ahead then
    { s with temper := { s.temper with
      grants := s.temper.grants.put sec (s.temper.grants.findD sec 0 - (ceilDiv (len * x.energy * 1000000) (max 1 x.runTime) : Nat)) } }
  else s

/-- Report the part of a stretch beyond the yield grain (R221): SRV_SLC_OVERRUN in µs and CUE_OVERRUN; an LC item's
ledger tail, or a step's chain, moves later by it. -/
def State.overrun (s : State) (c excess : Nat) (x : Item) : State :=
  let s := (s.addNs .SRV_SLC_OVERRUN_COUNT x.slice excess).incF .CUE_OVERRUN_COUNT c
  match x.step, x.model, x.cls with
  | true, some m, _ => s.setChain m { s.chain m with nextStart := (s.chain m).nextStart + excess }
  | _, _, .lc =>
    let k := ledgerKey x.slice .lc x.group
    { s with work := { s.work with tails := s.work.tails.upd k (· + excess) } }
  | _, _, .be => s

/-- Close the open stretch of a core's context (R128): its length leaves out steward interrupt service. -/
def State.closeStretch (s : State) (c : Nat) : State :=
  let k := s.core c
  match k.item with
  | none => s
  | some i => match s.item i with
    | none => s
    | some x =>
      let len := k.serviceAt.getD s.now - k.stretchAt
      let s := s.setF .CUE_STRETCH_MAX_NS c (max (s.getF .CUE_STRETCH_MAX_NS c) (min len (2 ^ 32 - 1)))
      let s := if x.cls = .be then s.chargeBe c len x else s
      let grain := scale x.sAdm 100000
      let s := if grain < len then s.overrun c (len - grain) x else s
      s.setCore c { s.core c with stretchAt := s.now }

/-- Take an item off the core that runs it: its open stretch closes, and is charged (R219–R221, R234). -/
def State.unload (s : State) (i : Nat) : State :=
  match s.work.cores.find? (fun (kv : Nat × Core) => kv.2.item == some i) with
  | some (c, _) =>
    let s := s.closeStretch c
    s.setCore c (s.core c).unloaded
  | none => s

/-- Whether an item's context is interrupted by steward service (Table 5-11). -/
def State.inService (s : State) (i : Nat) : Bool :=
  s.work.cores.any (fun (kv : Nat × Core) => kv.2.item == some i && kv.2.serviceAt.isSome)

/-! ### The completion write (R85, R98, R101, R424) -/

/-- The 32 bytes of a completion (Table 4-4). -/
def completionBytes (c : Completion) (phase : Nat) : List Byte :=
  bytesLE 4 c.tag ++ [BitVec.ofNat 8 c.status, BitVec.ofNat 8 c.reason,
    BitVec.ofNat 8 (phase + 2 * b2n c.linked + 4 * b2n c.faultRef.isSome), 0] ++
  bytesLE 8 c.result.toNat ++ bytesLE 4 c.residence ++ bytesLE 4 c.promise ++ bytesLE 4 (c.faultRef.getD 0) ++ bytesLE 4 0

/-- Close a sequence: its context and pages are free (R215, R217). -/
def State.closeSeq (s : State) (key : Nat) : State := { s with serve := { s.serve with seqs := s.serve.seqs.del key } }

/-- The step of a model that used closed sequences is over: their pages are free (R217). -/
def State.freeClosed (s : State) (m : Nat) : State :=
  { s with serve := { s.serve with closed := s.serve.closed.filter (fun kv => kv.2.model != m) } }

/-- Close a sequence once no request of it is on the chain: now, or at the end of the step that serves the last one (R215). -/
def State.closeIdle (s : State) (key : Nat) : State :=
  if s.work.items.any (fun (kv : Nat × Item) => kv.2.seqKey == some key) then
    { s with serve := { s.serve with seqs := s.serve.seqs.upd key (fun q => { q with closing := true }) } }
  else s.closeSeq key

/-- Take the durable pages that an item's store dirties from its reservation; `none` when it would pass the reservation, or meets a
page that the flush has sent (R243, Table 9-5). Stores that no item reserves for are held to the coverage. -/
def State.takeDurable (s : State) (item : Option Nat) (off n : Nat) : Option State :=
  match item.bind (fun i => (s.item i).map (fun x => (i, x))) with
  | some (i, x) =>
    let new := (s.newDirty off n).length
    if new = 0 then some s
    else if new ≤ x.durResv ∧ !s.flushSent off n then
      some (((s.updItem i (fun x => { x with durResv := x.durResv - new })).setF .TMP_DUR_RESV_PAGES 0 (s.getF .TMP_DUR_RESV_PAGES 0 - new)).dirtyPages off n)
    else none
  | none => s.coverStore off n

/-- What the write of a CQ entry gives: a failure with its LAST_ERR code; a wait, while no port of the route to its node is live, its
durable page is not covered or its line is held outside the block; a write in memory of this node; or one that has left the block, for a host or, on a port, for another node. -/
inductive CqWrite where
  | failed (err : Nat)
  | waits
  | here
  | left (port : Option Nat)
deriving DecidableEq, Repr

/-- Lines that a write waits for are kept, and as time passes the holders outside the block are made to give them up (R281). -/
def State.takeFrom (s : State) (l : List Nat) : State := { s with coh := { s.coh with takes := l.foldl addNew s.coh.takes } }

/-- Write bytes at a guest-virtual address of a slice, from a section. A line that holders outside the block have is taken from them first, and
a part of a poisoned line cannot be written (R281, R292). -/
def State.writeGuest (s : State) (sec slice va : Nat) (b : List Byte) : CqWrite × State :=
  match s.resolve sec ⟨slice, none, false⟩ va true with
  | (.fail _, s) => (.failed 2, s)
  | (.host p, s) => (.left none, s.emit (.hostWrite p va b))
  | (.remote a, s) =>
    match s.exitPort (a >>> 48) a with
    | some p => (.left (some p), s.emit (.nodeWrite a b))
    | none => (.waits, s)
  | (.pool off, s) =>
    if s.holeLost off then (.failed 7, s)
    else if s.outsideHeld off b.length ≠ [] then (.waits, s.takeFrom (s.outsideHeld off b.length))
    else if s.partPoison off b.length (s.sliceKey slice) then (.failed 7, s)
    else match s.coverStore off b.length with
      | none => (.waits, s)
      | some s => (.here, s.writeHome off (s.sliceKey slice) b)
  | (.hot off, s) => (.here, s.writeHome off (s.sliceKey slice) b)
  | (.stage a, s) => (.here, s.stageWrite a b)

/-- Close the sequence that a completion closes (R215). -/
def State.closeFor (s : State) (p : Posting) : State := match p.close with | some k => s.closeSeq k | none => s

/-- A completion has landed: its interrupt is raised (R98), and a sequence that it closes is closed (R215). -/
def State.landed (s : State) (q : Nat) (p : Posting) : State :=
  let s := s.closeFor p
  if p.comp.noIrq then s else s.queueEvent q

/-- Hold a completion behind those that are held (R424). -/
def State.hold (s : State) (q : Nat) (p : Posting) : State :=
  let x := s.qx q
  s.setQx q { x with held := x.held ++ [p] }

/-- A CQ entry is written: the tail moves on, and PHASE with it at the wrap (R101). -/
def State.advanceCq (s : State) (q : Nat) : State :=
  let t' := (s.getF .QCX_CQ_PTRS_TAIL q + 1) % s.entries q
  let s := s.setF .QCX_CQ_PTRS_TAIL q t'
  let s := if t' = 0 then s.setF .QCX_STATE_CQ_PHASE q (1 - s.getF .QCX_STATE_CQ_PHASE q) else s
  let x := s.qx q
  (s.setQx q { x with unfreed := x.unfreed + 1, reserved := x.reserved - 1 }).countQ q 1

/-- Write the next CQ entry of a queue. A failed write pauses the queue and holds the completion (R424); so is one held for whose node
no port is live, with no pause (Table 16-4), and one whose durable page is not covered (R243; DESIGN CHOICE, log entry 97). In this node's memory the completion lands at once; one that leaves the block lands when
time next passes, unless its write fails before (DESIGN CHOICE, log entry 57). -/
def State.writeCq (s : State) (q : Nat) (p : Posting) : State :=
  let va := s.getF .QCX_CQ_BASE q * 4096 + 32 * s.getF .QCX_CQ_PTRS_TAIL q
  match s.writeGuest (s.qSec q) (s.qSlice q) va (completionBytes p.comp (s.getF .QCX_STATE_CQ_PHASE q)) with
  | (.failed e, s) => (s.cqError q e).hold q p
  | (.waits, s) => s.hold q p
  | (.here, s) => (s.advanceCq q).landed q p
  | (.left port, s) =>
    let s := s.advanceCq q
    let x := s.qx q
    s.setQx q { x with posted := x.posted ++ [{ p with port := port }] }

/-- Write a completion of a queue, or hold it behind the completions already held (R424). A FREE or TOMBSTONE queue
receives none (R108). -/
def State.writeCompletion (s : State) (q : Nat) (p : Posting) : State :=
  if s.qState q = 0 ∨ s.qState q = 4 then s.closeFor p
  else if (s.qx q).held ≠ [] then s.hold q p
  else s.writeCq q p

/-- Write the held completions of a queue in order until one cannot be written (R424). -/
def State.writeHeld (s : State) (q : Nat) : Nat → State
  | 0 => s
  | n + 1 =>
    let x := s.qx q
    match x.held with
    | [] => s
    | p :: rest =>
      let s := (s.setQx q { x with held := [] }).writeCq q p
      let y := s.qx q
      if y.held = [] then (s.setQx q { y with held := rest }).writeHeld q n else s.setQx q { y with held := y.held ++ rest }

/-- Take back the completions whose writes have left the block and failed: they are held first, and their CQ entries are reserved again
(R424). -/
def State.unpost (s : State) (q : Nat) : State :=
  let x := s.qx q
  let k := x.posted.length
  let t := s.getF .QCX_CQ_PTRS_TAIL q
  let s := if t < k then s.setF .QCX_STATE_CQ_PHASE q (1 - s.getF .QCX_STATE_CQ_PHASE q) else s
  let s := s.setF .QCX_CQ_PTRS_TAIL q ((t + s.entries q - k) % s.entries q)
  let s := s.setF .QCX_CNT_COUNT (q * 5 + 1) (s.getF .QCX_CNT_COUNT (q * 5 + 1) + 2 ^ 32 - k)
  s.setQx q { x with posted := [], held := x.posted ++ x.held, unfreed := x.unfreed - k, reserved := x.reserved + k }

/-- The writes of a queue that have left the block land. -/
def State.landQueue (s : State) (q : Nat) : State :=
  let x := s.qx q
  (s.setQx q { x with posted := [] }).each x.posted (fun s p => s.landed q p)

/-- Whether a queue waits for RESUME_QUEUE after a failed write of a CQ entry (R424). -/
def State.cqFailed (s : State) (q : Nat) : Bool := (s.qx q).cqFailed

/-- Time passes: what left the block has landed, and completions held for want of a route are tried again (R98, Table 16-4). -/
def State.landAll (s : State) : State :=
  s.each (s.work.queues.filter (fun (kv : Nat × QueueX) => kv.2.posted != [] || kv.2.held != [])) (fun s kv =>
    let s := s.landQueue kv.1
    if s.cqFailed kv.1 then s else s.writeHeld kv.1 (kv.2.held.length + 1))

/-- The number of the oldest open item of a queue, if any. -/
def State.oldestOf (s : State) (q : Nat) : Option Nat :=
  ((s.itemsWhere (fun x => x.queue == q && !x.step)).head?).map (·.1)

/-- What the holdover oscillator adds to a duration since `a`: 1% of the parts in which TREF is, or was, lost, rounded up (R52). -/
def State.holdover (s : State) (a : Nat) : Nat :=
  let past := (s.edge.trefPast.map (fun p => p.2 - max a p.1)).foldl (· + ·) 0
  ceilDiv (past + (match s.edge.trefLostAt with | some l => s.now - max a l | none => 0)) 100

/-- Fill in the residence of a completion at its write (R85): the first attempt at it, where that fails and the completion is held
(DESIGN CHOICE, log entry 108). -/
def State.stamped (s : State) (q : Nat) (p : Posting) : Posting :=
  { p with comp := { p.comp with residence := match p.at_ with | some a => residence (s.qSlice q) (s.now - a + s.holdover a) | none => 0 } }

/-- Put a completion among others in the order of their items (R99). -/
def insertPosting (p : Posting) : List Posting → List Posting
  | [] => [p]
  | x :: t => if p.num < x.num then p :: x :: t else x :: insertPosting p t

/-- Write the completions of an IN_ORDER queue that no open earlier item holds back any more, in ring order (R99). -/
def State.flushOrdered (s : State) (q : Nat) : State :=
  let x := s.qx q
  let ready (p : Posting) : Bool := match s.oldestOf q with | some n => decide (p.num < n) | none => true
  let s := s.setQx q { x with ordered := x.ordered.filter (fun p => !ready p) }
  s.each (x.ordered.filter ready) (fun s p => s.writeCompletion q (s.stamped q p))

/-- Give a queue a completion: at once, or in ring order on an IN_ORDER queue (R99). -/
def State.postCompletion (s : State) (q : Nat) (p : Posting) : State :=
  if s.bitF .QCX_CFG_IN_ORDER q then
    let x := s.qx q
    (s.setQx q { x with ordered := insertPosting p x.ordered }).flushOrdered q
  else s.writeCompletion q (s.stamped q p)

/-! ### Cast version slots (R153, R155) -/

/-- State of a version slot: 0 FREED, 1 LIVE, 2 SUPERSEDED. -/
def State.slotState (s : State) (cast slot : Nat) : Nat :=
  match slot with
  | 0 => s.getF .CST_VSLOT01_STATE_0 cast | 1 => s.getF .CST_VSLOT01_STATE_1 cast
  | 2 => s.getF .CST_VSLOT23_STATE_2 cast | _ => s.getF .CST_VSLOT23_STATE_3 cast
/-- Version in a slot. -/
def State.slotVer (s : State) (cast slot : Nat) : Nat :=
  match slot with
  | 0 => s.getF .CST_VSLOT01_VER_0 cast | 1 => s.getF .CST_VSLOT01_VER_1 cast
  | 2 => s.getF .CST_VSLOT23_VER_2 cast | _ => s.getF .CST_VSLOT23_VER_3 cast
/-- Write a version slot. -/
def State.setSlot (s : State) (cast slot st ver : Nat) : State :=
  match slot with
  | 0 => (s.setF .CST_VSLOT01_STATE_0 cast st).setF .CST_VSLOT01_VER_0 cast ver
  | 1 => (s.setF .CST_VSLOT01_STATE_1 cast st).setF .CST_VSLOT01_VER_1 cast ver
  | 2 => (s.setF .CST_VSLOT23_STATE_2 cast st).setF .CST_VSLOT23_VER_2 cast ver
  | _ => (s.setF .CST_VSLOT23_STATE_3 cast st).setF .CST_VSLOT23_VER_3 cast ver

/-- KiB that an image takes of the cast store (CST_STORE_USED). -/
def storeKib (len : Nat) : Nat := ceilDiv len 1024

/-- The number that stands for no version slot. -/
def noSlot : Nat := 2 ^ 18

/-- Steps that every member has left keep the version that they resolved to no longer than it lasts: no request joins them afterwards (R212). -/
def State.forgetVersion (s : State) (key : Nat) : State :=
  { s with serve := { s.serve with chains := s.serve.chains.mapVals (fun _ c =>
    { c with steps := c.steps.map (fun (st : Step) => if st.castSlot = key ∧ !st.started then { st with castSlot := noSlot } else st) }) } }

/-- Free a SUPERSEDED version with no pins: its store space and slot are released, and a cast with no version left
loses VALID (R155). The version that a running step executes stays for that step, which is no LAUNCH and pins nothing, even when every
member has been withdrawn (DESIGN CHOICE, log entry 80). -/
def State.freeVersion (s : State) (cast slot : Nat) : State :=
  match s.work.casts.find (cast * 4 + slot) with
  | some v =>
    if s.slotState cast slot = 2 ∧ v.pins = 0 ∧
        !s.work.items.any (fun (kv : Nat × Item) => kv.2.step && kv.2.started && kv.2.castSlot == some (cast * 4 + slot)) then
      let s := s.setSlot cast slot 0 0
      let s := { s with work := { s.work with casts := s.work.casts.del (cast * 4 + slot) } }
      let s := s.setF .CST_STORE_USED_USED_KIB 0 (s.getF .CST_STORE_USED_USED_KIB 0 - storeKib v.len)
      let s := s.forgetVersion (cast * 4 + slot)
      if (List.range 4).all (fun k => s.slotState cast k == 0) then
        ((s.setF .CST_CAST_VALID cast 0).setF .CST_CAST_OWNER cast 0) else s
    else s
  | none => s

/-- Release a pin of a version (R155). -/
def State.unpin (s : State) (key : Nat) : State :=
  let s := { s with work := { s.work with casts := s.work.casts.upd key (fun v => { v with pins := v.pins - 1 }) } }
  s.freeVersion (key / 4) (key % 4)

/-! ### Commitments (R230, R231, R243) -/

/-- Committed power in mW: TMP_BASE, the open items and the load in progress (R230, R231). -/
def State.pCommit (s : State) : Nat :=
  s.getF .TMP_BASE_BASE_W 0 * 1000 + (s.work.items.map (fun (kv : Nat × Item) => kv.2.power)).foldl (· + ·) 0 +
    (match s.serve.load with | some l => l.power | none => 0)

/-- Sections of a group mask. -/
def secsOf (mask : Nat) : List Nat := (List.range 8).filter (fun k => mask.testBit k)

/-- Grants that a tensor engine carries (R192): its items', and those of the steps that are reserved or run (R211). -/
def State.teGrants (s : State) (t : Nat) : Nat :=
  (s.itemsWhere (fun x => !x.step && x.teGrant.testBit t)).length +
    (s.serve.chains.map (fun (kv : Nat × Chain) => (kv.2.steps.filter (fun st => st.tes.testBit t && (st.started || st.members != []))).length)).foldl
      (· + ·) 0

/-! ### Reservations of sequences (R216, R217) -/

/-- Undo the reservation of a step request: an OPEN leaves no sequence, another request gives back its new pages. -/
def State.unreserve (s : State) (d : Dropped) : State :=
  if d.isOpen then s.closeSeq d.key
  else { s with serve := { s.serve with seqs := s.serve.seqs.upd d.key (fun q => { q with pages := q.pages.filter (fun p => !d.pages.contains p) }) } }

/-- Whether an item is a member of a running step (R216). -/
def State.inRunningStep (s : State) (i : Nat) : Bool :=
  s.serve.chains.any (fun (kv : Nat × Chain) => kv.2.steps.any (fun st => st.started && st.members.contains i))

/-- A step without a member; `d` keeps its reservation until the step ends (R216). -/
def Step.without (st : Step) (i : Nat) (d : List Dropped) : Step :=
  if st.members.contains i then { st with members := st.members.filter (· != i), dropped := st.dropped ++ d } else st

/-- Take an item out of the steps of every chain; a running step still has its completion to be written (R213). -/
def State.unmember (s : State) (i : Nat) (d : List Dropped) : State :=
  { s with serve := { s.serve with
    chains := s.serve.chains.mapVals (fun _ c =>
      { c with steps := c.steps.map (fun st => st.without i d), last := if c.steps.any (fun st => st.started && st.members.contains i) then c.last ++ [i] else c.last }) } }

/-- A step request leaves before its step ends: at once outside a running step; a running step keeps its new pages until it
ends, and a sequence whose OPEN was in it stays open (R216, R217). -/
def State.leaveStep (s : State) (i : Nat) (d : Dropped) : State :=
  if s.inRunningStep i then s.unmember i [{ d with isOpen := false }] else (s.unmember i []).unreserve d

/-- A member of a step that ended badly leaves its sequence open at its KV_LEN, without the pages it had reserved (R215). -/
def State.keepSeq (s : State) (i : Nat) : State :=
  match s.item i with
  | some x => match x.seqKey with
    | some key => (s.unreserve ⟨key, false, x.newPages⟩).updItem i (fun y => { y with seqKey := none })
    | none => s
  | none => s

/-! ### Floor credit (R219) -/

/-- The slice's last BE item in the section ends: the credit is 0 unless it is negative. -/
def State.endCredit (s : State) (k : Nat) : State :=
  let c := s.creditNow k
  { s with work := { s.work with floorCredit := if c.value < 0 then s.work.floorCredit.put k c else s.work.floorCredit.del k } }

/-- A BE item is accepted in a section: credit counts from here when it is the slice's first there. -/
def State.startCredit (s : State) (k : Nat) (first : Bool) : State :=
  if first then
    { s with work := { s.work with floorCredit := s.work.floorCredit.put k ⟨(s.work.floorCredit.findD k ⟨0, 0⟩).value, s.now⟩ } }
  else s

/-! ### The end of an item (R74, R141) -/

/-- Forget an item: its engine grants, ledger entry, energy, links and reservations go with it; its version is unpinned,
its core and window are free, its model's hold ends, and its slice's floor credit in the section, and its deficit on the core, drop to 0
unless they are negative when it was the slice's last BE item there (R219, R220). -/
def State.dropItem (s : State) (i : Nat) : State :=
  match s.item i with
  | none => s
  | some x =>
    let s := s.unload i
    let s := { s with work := { s.work with
      items := s.work.items.del i, touches := s.work.touches.del i,
      backends := s.work.backends.mapVals (fun (b : Nat) (be : Backend) =>
        { be with reserved := be.reserved - ((x.bkOps.filter (fun (p : Nat × Nat) => p.1 == b)).map (fun (p : Nat × Nat) => p.2)).foldl (· + ·) 0 }) } }
    let s := s.setF .TMP_DUR_RESV_PAGES 0 (s.getF .TMP_DUR_RESV_PAGES 0 - x.durResv)
    let s : State := s.each x.links (fun s p =>
      (s.setF .FIL_PORT_RES_IN_MBPS p.1 (s.getF .FIL_PORT_RES_IN_MBPS p.1 - p.2)).setF .FIL_PORT_RES_OUT_MBPS p.1
        (s.getF .FIL_PORT_RES_OUT_MBPS p.1 - p.2))
    let s : State := match x.castSlot with
      | some k => if x.step then s.freeVersion (k / 4) (k % 4) else s.unpin k
      | none => s
    let s : State := match x.model with
      | some m =>
        let s : State := if x.holds m then { s with serve := { s.serve with models := s.serve.models.upd m (fun y => { y with lastHeld := s.now }) } } else s
        if x.step then s.clearStage m else s
      | none => s
    let s : State := match x.seqKey with
      | some key => s.leaveStep i ⟨key, x.isOpen, x.newPages⟩
      | none => if x.req.isSome then s.unmember i [] else s
    let sec := secOfCore x.core
    let k := sec * 4096 + x.slice
    let turn := x.core * 4096 + x.slice
    let idle := (s.itemsWhere (fun (y : Item) => y.slice == x.slice && y.cls == Cls.be && y.core == x.core)) = []
    let s : State := if x.cls = .be ∧ idle ∧ 0 < s.work.deficit.findD turn 0 then
        { s with work := { s.work with deficit := s.work.deficit.del turn } }
      else s
    if x.cls = .be ∧ (s.itemsWhere (fun (y : Item) => y.slice == x.slice && y.cls == Cls.be && secOfCore y.core == sec)) = [] then
      s.endCredit k
    else s

/-- Statuses of Table 4-5 that stand for an item not admitted: ST_NO_PROMISE, ST_PRIV, ST_BAD_DESC, ST_CAST_STALE. -/
def notAdmitted (status : Nat) : Bool := status == 1 || status == 6 || status == 7 || status == 0x0C

/-- The completion of an item (Table 4-4); RESIDENCE is filled in at the write. -/
def itemCompletion (x : Item) (status reason : Nat) (faultRef : Option Nat) (result : Word) : Completion :=
  { tag := x.desc.tag, status := status, reason := reason, linked := x.desc.linked, faultRef := faultRef, result := result,
    residence := 0, promise := if notAdmitted status then 0 else encodePromise x.slice x.promise, noIrq := x.desc.flags.testBit 0 }

/-- Count a completion's status on its queue: items not admitted, timeouts, withdrawals (QCX_CNTn). -/
def State.countStatus (s : State) (q status : Nat) : State :=
  if notAdmitted status then s.countQ q 2 else if status = 2 then s.countQ q 3 else if status = 0x0B then s.countQ q 4 else s

/-- When the effective timeout of an item that ends with a status elapses, where it still counts while its completion waits: an item
that was refused, voided or withdrawn is not broken, and one that a halt has broken is not broken again (R74, R76, R103). -/
def Item.deadline (x : Item) (status : Nat) : Option Nat :=
  if x.broken || notAdmitted status || [2, 4, 9, 0x0A, 0x0B].contains status || x.cause.any (fun c => c.void.isSome) then none
  else some (x.acceptAt + x.timeout)

/-- End an item with a completion on its queue (R74), and release what it held; `close` is the sequence that closes once the completion
is written (R215). A refusal counts in PRM_REFUSEDn (R77). -/
def State.finishWith (s : State) (i status reason : Nat) (faultRef : Option Nat) (result : Word) (close : Option Nat) : State :=
  match s.item i with
  | none => s
  | some x =>
    let s := if status = 1 then s.incF .PRM_REFUSED_COUNT (reason - 1) else s
    ((s.dropItem i).countStatus x.queue status).postCompletion x.queue
      { num := i, at_ := if notAdmitted status then none else some x.acceptAt, ends := x.acceptAt + x.promise, deadline := x.deadline status, close := close, port := none,
        comp := itemCompletion x status reason faultRef result }

/-- End an item with a completion on its queue (R74). -/
def State.finishItem (s : State) (i status reason : Nat) (faultRef : Option Nat) (result : Word) : State :=
  s.finishWith i status reason faultRef result none

/-- End an item ST_OK with a result. -/
def State.finishOk (s : State) (i : Nat) (result : Word) : State := s.finishItem i 0 0 none result

/-- End an item by its cause: with the completion the cause requires, or none (R141). -/
def State.finishCause (s : State) (i : Nat) (c : EndCause) : State :=
  if c.complete then s.finishItem i c.status c.reason c.faultRef 0
  else match s.item i with
    | some x => (s.dropItem i).flushOrdered x.queue
    | none => s

/-- Abandon the backend operations of an item: their tokens stay until their reports or W_BOUND (R170). -/
def State.abandon (s : State) (i : Nat) : State :=
  { s with work := { s.work with backends := s.work.backends.mapVals (fun _ (b : Backend) =>
    { b with tokens := b.tokens.mapVals (fun _ (t : Token) => if t.item = i then { t with abandoned := true } else t) }) } }

/-- The operations on a unit, oldest first. -/
def State.onUnit (s : State) (u : UnitId) : List (Nat × Op) := s.work.ops.filter (fun (kv : Nat × Op) => kv.2.on == u)

/-- Whether an operation is running, or finishing, on a unit. -/
def Op.active (o : Op) : Bool := o.phase == .running || o.phase == .finishing

/-- A unit that has become free resumes its suspended operation, unless an LC one waits (R193). -/
def State.resumeOn (s : State) (u : UnitId) : State :=
  let l := s.onUnit u
  if l.any (fun kv => kv.2.active || (kv.2.phase == .waiting && kv.2.cls == Cls.lc)) then s
  else match l.find? (fun kv => kv.2.phase == .suspended) with
    | some (o, _) => s.updOp o (fun y => { y with phase := .running, startedAt := s.now, progressAt := s.now })
    | none => s

/-- Release the codebook slots that an operation holds; a slot invalidated meanwhile goes when none holds it (R179). -/
def State.cbRelease (s : State) (op : Nat) : State :=
  let cb := s.work.cb.mapVals (fun _ (c : CbSlot) => { c with heldBy := c.heldBy.filter (· ≠ op) })
  { s with work := { s.work with cb := cb.keep (fun _ (c : CbSlot) => !(c.stale && c.heldBy.isEmpty)) } }

/-- Cancel an item's engine operations: those waiting or suspended are released at once, with their codebook slots, those running at the
end of their unit; its backend operations are abandoned (R141, R170, R195). -/
def State.cancelOps (s : State) (i : Nat) : State :=
  let s := s.abandon i
  s.each (s.opsOf i) (fun s kv =>
    match kv.2.phase with
    | .waiting | .suspended => (((s.delOp kv.1).cbRelease kv.1).dropCurs kv.2.on.number).resumeOn kv.2.on
    | _ => s.updOp kv.1 (fun o => { o with cancelled := true }))

/-- Stop an item for a cause: it runs no further instruction, its handles are cancelled, and ITEM_END writes its
completion once they have released (R141). A step request whose step has not started leaves it at once (Table 8-5). A cause already
taken stands. -/
def State.stopItem (s : State) (i : Nat) (c : EndCause) : State :=
  match s.item i with
  | none => s
  | some x =>
    if x.cause.isSome then s
    else
      let s := match c.void with | some r => if x.broken then s else s.incF .PRM_VOIDED_COUNT r | none => s
      let s := (s.updItem i (fun x => { x with cause := some c, phase := .stopping, stopAt := some (x.stopAt.getD s.now) })).cancelOps i
      let s := match x.seqKey with
        | some key =>
          if s.inRunningStep i then s else (s.leaveStep i ⟨key, x.isOpen, x.newPages⟩).updItem i (fun x => { x with seqKey := none })
        | none => s
      if s.inService i then s else s.unload i

/-- Whether the item's context is the one running on its core. -/
def State.isRunning (s : State) (i : Nat) : Bool :=
  s.work.cores.any (fun (kv : Nat × Core) => kv.2.item == some i)

/-- Withdraw an item: one that runs stops at its next YIELD, a member of a running step is dropped at the step's next
yield point (Table 8-5), another item stops at once (R104, R108). -/
def State.withdrawItem (s : State) (i : Nat) (c : EndCause) : State :=
  if s.isRunning i || s.inRunningStep i then
    s.updItem i (fun x => { x with withdrawn := some (x.withdrawn.getD c), stopAt := some (x.stopAt.getD s.now) })
  else s.stopItem i c

/-- Whether every operation of an item has released (R141). -/
def State.released (s : State) (i : Nat) : Bool := (s.opsOf i).isEmpty

/-- Whether the step whose context an item is still runs. -/
def State.stepRuns (s : State) (x : Item) : Bool :=
  s.serve.chains.any (fun (kv : Nat × Chain) => x.model == some kv.1 && kv.2.steps.any (fun st => st.started))

/-- End a stopped item whose handles have all released: its completion is written, and its window and record are free (R141). A context
that steward service interrupted ends when that is over (Table 5-11); the context of a step ends with the step, and so does a member
that a slice reset stopped while the step ran (STEP_END, Table 8-5). -/
def State.endStopped (s : State) (i : Nat) : State :=
  match s.item i with
  | some x =>
    match x.cause with
    | some c =>
      if !s.released i || s.isRunning i then s
      else if x.step then (if s.stepRuns x then s else s.dropItem i)
      else if s.inRunningStep i && c.status == 9 then s
      else s.finishCause i c
    | none => s
  | none => s

/-- R141: once every cancelled handle of a stopped item has released, its completion is written and its window and
record are free. Before that, nothing happens. -/
def execItemEnd (item : Nat) (s : State) : Result := .next (s.endStopped item)

end Sys2Proof.Machine
end

