-- ==== Sys2Proof/Machine/Access.lean ====
section
/-!
DEFINITION. Reads and writes through a slice's translation, with what comes from outside the block handed in as
answers; little-endian fields of byte blocks; the cores' records.
-/

namespace Sys2Proof.Machine

/-- What a read gives: bytes, poison, a failed translation with its reason, a refusal with STATUS and REASON, an expiry. -/
inductive Read where
  | bytes (b : List Byte)
  | poison
  | xlate (reason : Nat)
  | refused (status reason : Nat)
  | expired
deriving DecidableEq, Repr

/-- Exactly `n` bytes of an answer; bytes that an answer lacks are zero (log entry 20). -/
def fit (n : Nat) (b : List Byte) : List Byte := (b ++ List.replicate n 0).take n

/-- What an answer from outside gives to a read of `n` bytes. -/
def extRead (n : Nat) : Ext → Read
  | .ok b => .bytes (fit n b)
  | .poison => .poison
  | .refused 8 r => .xlate r
  | .refused 4 _ => .poison
  | .refused st r => .refused st r
  | .expired => .expired
  | .atsFail => .xlate xAts

/-- The answer at the head of the list; without one the access expires (log entry 20). -/
def headExt : List Ext → Ext
  | [] => .expired
  | e :: _ => e

/-! ### Lines held outside the block (R270, R272, R287) -/

/-- The line numbers of a range. -/
def linesOf (off n : Nat) : List Nat := (List.range ((off + n + 63) / 64 - off / 64)).map (off / 64 + ·)

/-- Read `n` bytes of this node's memory line by line for an uncached requester; of a line that a holder outside the block may have changed
it has what its home gave it (R271). -/
def State.readMixed (s : State) (tag off n slot : Nat) : LineVal × State :=
  if !s.outsideOwned off n then s.readMem off n slot
  else (linesOf off n).foldl (fun (r : LineVal × State) l =>
    let lo := max off (64 * l)
    let k := min (off + n) (64 * l + 64) - lo
    let given := if r.2.outsideOwned lo k then (r.2.coh.curs.find (curKey tag l)).bind (fun (c : Cur) => c.got) else none
    let (v, s) := match given with
      | some (b, p) => (if p then LineVal.poison else LineVal.bytes ((b.drop (lo % 64)).take k), r.2)
      | none => r.2.readMem lo k slot
    (match r.1, v with | .bytes a, .bytes b => LineVal.bytes (a ++ b) | _, _ => LineVal.poison, s)) (LineVal.bytes [], s)

/-- Whether the caches of the block hold a line of another node, by its number: the fabric gateway serves an uncached requester from them
(R269, R279). -/
def State.farHeld (s : State) (l : Nat) : Bool :=
  (List.range 8).any (fun k => match s.coh.l1.findD (l * 8 + k) .i with | .i | .evicting => false | _ => true)

/-- Number in the tables of members of a line of another node. -/
def farLine (addr : Nat) : Nat := 2 ^ 58 + addr / 64

/-- Bytes of another node's memory as an uncached requester of the block reads them: `b` of the line's home, and of a line that the block
holds what its caches hold. -/
def State.overlay (s : State) (addr n slot : Nat) (b : List Byte) : LineVal × State :=
  (linesOf addr n).foldl (fun (r : LineVal × State) l =>
    let lo := max addr (64 * l)
    let k := min (addr + n) (64 * l + 64) - lo
    let far : LineVal × State := (.bytes ((b.drop (lo - addr)).take k), r.2)
    let (v, s) := if !r.2.farHeld (farLine (64 * l)) then far else match r.2.mem.dirty.find (farLine (64 * l)) with
      | none => far
      | some d => if d.poison then (LineVal.poison, r.2)
        else if d.slot = slot then (LineVal.bytes ((d.data.drop (lo % 64)).take k), r.2)
        else (let (x, s) := r.2.freeBytes k; (LineVal.bytes x, s))
    (match r.1, v with | .bytes x, .bytes y => LineVal.bytes (x ++ y) | _, _ => LineVal.poison, s)) (LineVal.bytes [], s)

/-- Read `n` bytes of another node: what the caches of the block hold throughout needs no answer of the line's home. -/
def State.readFar (s : State) (a n slot : Nat) (rs : List Ext) : Read × List Ext × State :=
  let mix (b : List Byte) (rs : List Ext) (s : State) : Read × List Ext × State := match s.overlay a n slot b with
    | (.bytes b, s) => (.bytes b, rs, s)
    | (.poison, s) => (.poison, rs, s)
  if (linesOf a n).all (fun l => s.farHeld (farLine (64 * l))) then mix [] rs s
  else match extRead n (headExt rs) with
    | .bytes b => mix b (rs.drop 1) (s.emit (.remoteRead a n))
    | r => (r, rs.drop 1, s.emit (.remoteRead a n))

/-- Read `n` bytes at a resolved target. An access that leaves the block takes the first answer; so does a read of a
line that a holder outside may have changed, where the answer `ok []`, or none, says that the holder had it clean. -/
def State.readTarget (s : State) (t : Target) (slot va n : Nat) (rs : List Ext) : Read × List Ext × State :=
  match t with
  | .fail r => (.xlate r, rs, s)
  | .pool off | .hot off =>
    let here (rs : List Ext) : Read × List Ext × State :=
      match s.readMem off n (s.slotAt off slot) with
      | (.poison, s) => (.poison, rs, s)
      | (.bytes b, s) => (.bytes b, rs, s)
    if s.outsideOwned off n then
      match rs with
      | [] => here []
      | .ok [] :: rs => here rs
      | e :: rs => (extRead n e, rs, s)
    else here rs
  | .remote a => s.readFar a n slot rs
  | .host p => (extRead n (headExt rs), rs.drop 1, (s.emit (.hostRead p va n)).hostAnswered p (headExt rs))
  | .stage a => (.bytes (s.stageRead a n), rs, s)

/-- Read `n` bytes at a guest-virtual address, page by page of 4 KiB (R255). -/
def State.readPages (s : State) (sec : Nat) (a : Accessor) : Nat → Nat → Nat → List Ext → Read × List Ext × State
  | 0, _, _, rs => (.bytes [], rs, s)
  | fuel + 1, va, n, rs =>
    if n = 0 then (.bytes [], rs, s)
    else
      let k := min n (4096 - va % 4096)
      let (t, s) := s.resolve sec a va false
      match s.readTarget t (s.sliceKey a.slice) va k rs with
      | (.bytes b, rs, s) =>
        match s.readPages sec a fuel (va + k) (n - k) rs with
        | (.bytes b', rs, s) => (.bytes (b ++ b'), rs, s)
        | r => r
      | r => r

/-- Read `n` bytes at a guest-virtual address of an accessor. -/
def State.readGuest (s : State) (sec : Nat) (a : Accessor) (va n : Nat) (rs : List Ext) : Read × List Ext × State :=
  s.readPages sec a (n / 4096 + 2) va n rs

/-- Write bytes at a resolved target. -/
def State.writeTarget (s : State) (t : Target) (slot va : Nat) (b : List Byte) : Option Nat × State :=
  match t with
  | .fail r => (some r, s)
  | .pool off | .hot off => (none, s.writeHome off slot b)
  | .remote a => (none, s.emit (.nodeWrite a b))
  | .host p => (none, s.emit (.hostWrite p va b))
  | .stage a => (none, s.stageWrite a b)

/-- The lines of this node's pool under a range of guest-virtual addresses that holders outside the block must give up before a write of
the range is done (R271, R281). -/
def State.heldPages (s : State) (sec : Nat) (a : Accessor) : Nat → Nat → Nat → List Nat × State
  | 0, _, _ => ([], s)
  | fuel + 1, va, n =>
    if n = 0 then ([], s)
    else
      let k := min n (4096 - va % 4096)
      let (t, s) := s.resolve sec a va true
      let l := match t with | .pool off => s.outsideHeld off k | _ => []
      let (r, s) := s.heldPages sec a fuel (va + k) (n - k)
      (l ++ r, s)

/-- What a write at guest-virtual addresses gives: done; the reason of the first translation that failed; the first address whose
durable page the item has not reserved, or the coverage does not hold (R243); or that it met a hole, which takes no store (R266). -/
inductive Wrote where
  | done
  | xlate (reason : Nat)
  | uncovered (va : Nat)
  | hole
deriving DecidableEq, Repr

/-- Write bytes at a guest-virtual address, page by page of 4 KiB, for an item or for the block itself. -/
def State.writePages (s : State) (sec : Nat) (a : Accessor) (item : Option Nat) : Nat → Nat → List Byte → Wrote × State
  | 0, _, _ => (.done, s)
  | fuel + 1, va, b =>
    if b = [] then (.done, s)
    else
      let k := min b.length (4096 - va % 4096)
      let (t, s) := s.resolve sec a va true
      if (match t with | .pool off | .hot off => s.holeLost off | _ => false) then (.hole, s) else
      match (match t with | .pool off | .hot off => s.takeDurable item off k | _ => some s) with
      | none => (.uncovered va, s)
      | some s => match s.writeTarget t (s.sliceKey a.slice) va (b.take k) with
        | (none, s) => s.writePages sec a item fuel (va + k) (b.drop k)
        | (some r, s) => (.xlate r, s)

/-- Write bytes at a guest-virtual address of an accessor, for an item or for the block itself. -/
def State.writeBytes (s : State) (sec : Nat) (a : Accessor) (item : Option Nat) (va : Nat) (b : List Byte) : Wrote × State :=
  s.writePages sec a item (b.length / 4096 + 2) va b

/-- Whether every page of a range translates (`write`: with the write right) to a target that satisfies a test. -/
def State.pagesOk (s : State) (sec : Nat) (a : Accessor) (write : Bool) (ok : Target → Bool) : Nat → Nat → Nat → Bool × State
  | 0, _, _ => (true, s)
  | fuel + 1, va, n =>
    if n = 0 then (true, s)
    else
      let k := min n (4096 - va % 4096)
      let (t, s) := s.resolve sec a va write
      if ok t then s.pagesOk sec a write ok fuel (va + k) (n - k) else (false, s)

/-- Whether a range translates throughout to targets that satisfy a test. -/
def State.rangeOk (s : State) (sec : Nat) (a : Accessor) (write : Bool) (ok : Target → Bool) (va n : Nat) : Bool × State :=
  s.pagesOk sec a write ok (n / 4096 + 2) va n

/-- A target that is not a failed translation. -/
def Target.good : Target → Bool
  | .fail _ => false
  | _ => true

/-- The little-endian field of `n` bytes at an offset of a block. -/
def fieldLE (b : List Byte) (o n : Nat) : Nat := natLE ((b.drop o).take n)

/-- Whether the `n` bytes at an offset are all zero. -/
def zeroAt (b : List Byte) (o n : Nat) : Bool := fieldLE b o n == 0

/-! ### Cores -/

/-- Whether the block is in Anvil mode (R163). -/
def State.anvil (s : State) : Bool := s.blkState == stStarting || s.blkState == stRecovering || s.blkState == stFenced

/-- Whether a start stage is complete (BLK_STAGE.DONE). -/
def State.stageDone (s : State) (n : Nat) : Bool := s.bitOf .BLK_STAGE_DONE 0 (n - 1)

/-- Whether the block answers arrivals by Table 16-7: RECOVERING or FENCED, until the homes reopen, and while the core has no power
(R54). -/
def State.closed (s : State) : Bool := !s.edge.pins.corePwrOk || ((s.blkState == stRecovering || s.blkState == stFenced) && !s.stageDone 6)

/-- Whether queue 0 is handled as usual: from step 12 of Table 16-8 on (Table 16-7, R402). -/
def State.queueZeroOpen (s : State) : Bool :=
  if !s.edge.pins.corePwrOk then false
  else if s.blkState = stRecovering then s.stageDone 6 else if s.blkState = stFenced then s.stageDone 5 else true

/-- Context records in use on a core (R117): its open items and the descriptors fetched for it. -/
def State.records (s : State) (c : Nat) : Nat :=
  (s.itemsWhere (fun (x : Item) => x.core == c)).length +
    (s.work.queues.map (fun (kv : Nat × QueueX) => if s.getF .QCX_BIND_CORE kv.1 = c then kv.2.fetched.length else 0)).foldl (· + ·) 0

/-- Window bytes in use on a core. -/
def State.windowUse (s : State) (c : Nat) : Nat :=
  ((s.itemsWhere (fun (x : Item) => x.core == c && x.hasWindow)).map (fun (kv : Nat × Item) => kv.2.winSize)).foldl (· + ·) 0

/-- Queues bound to a core. -/
def State.boundCount (s : State) (c : Nat) : Nat :=
  (s.work.queues.filter (fun (kv : Nat × QueueX) => s.qState kv.1 != 0 && !kv.2.unbound && s.getF .QCX_BIND_CORE kv.1 == c)).length

/-- LC_SHARE of a slice in a section, in 1/64 (Table 13-1). -/
def State.lcShare (s : State) (slice k : Nat) : Nat :=
  match k with
  | 0 => s.getF .SLC_LC_LO_SHARE0 slice | 1 => s.getF .SLC_LC_LO_SHARE1 slice
  | 2 => s.getF .SLC_LC_LO_SHARE2 slice | 3 => s.getF .SLC_LC_LO_SHARE3 slice
  | 4 => s.getF .SLC_LC_HI_SHARE4 slice | 5 => s.getF .SLC_LC_HI_SHARE5 slice
  | 6 => s.getF .SLC_LC_HI_SHARE6 slice | 7 => s.getF .SLC_LC_HI_SHARE7 slice
  | _ => 0

/-- A core with fewest bound queues among candidates with room, the lowest index on a tie (R159). -/
def State.leastBound (s : State) (cands : List Nat) : Option Nat :=
  (cands.filter (fun c => decide (s.boundCount c < 512))).foldl
    (fun best c => match best with
      | none => some c
      | some b => if s.boundCount c < s.boundCount b then some c else some b) none

/-- The core that R159 binds a queue to: among the cores of the placement's sections (with non-zero LC_SHARE for an
LC-allowed queue; every section for slice 0), c0 only when no other candidate has room. -/
def State.bindCore (s : State) (slice : Nat) (lcOk : Bool) : Option Nat :=
  let secs := (secsOf (s.getF .SLC_PLACE_SECTIONS slice)).filter (fun k => slice == 0 || !lcOk || s.lcShare slice k != 0)
  let cands := (secs.flatMap (fun k => (List.range 8).map (8 * k + ·))).filter (fun c => !s.coreOos c)
  match s.leastBound (cands.filter (· ≠ 0)) with
  | some c => some c
  | none => s.leastBound (cands.filter (· = 0))

/-- The fallback of R160: any in-service core of any section, c0 last. -/
def State.rebindCore (s : State) (slice : Nat) (lcOk : Bool) : Option Nat :=
  match s.bindCore slice lcOk with
  | some c => some c
  | none =>
    let all := (List.range 64).filter (fun c => !s.coreOos c)
    match s.leastBound (all.filter (· ≠ 0)) with
    | some c => some c
    | none => s.leastBound (all.filter (· = 0))

end Sys2Proof.Machine
end

