-- ==== Sys2Proof/Machine/Queue.lean ====
section
/-!
DEFINITION. Phina queues (chapter 04): doorbell-page writes, the fetch of descriptors, the queue state machine and
the commands of queue management.
-/

namespace Sys2Proof.Machine

/-! ### Doorbell-page writes (R92–R95, R102, R104) -/

/-- Whether a path is the management source (R57, R314): PF0 of HP0, the port MGT_FP, or I3C. An alloy's secondary takes the
primary as its source (R421); `hostPf 0` stands for the primary's accesses there (DESIGN CHOICE, log entry 70). -/
def State.managerPath (s : State) (p : Path) : Bool :=
  if s.edge.straps.alloyRole = 2 then p == .hostPf 0
  else match p with
  | .hostPf 0 => s.edge.straps.mgtSrc == 0
  | .fil f _ => s.edge.straps.mgtSrc == 1 && f == s.edge.straps.mgtFp
  | .i3c => s.edge.straps.mgtSrc == 2
  | _ => false

/-- Whether a doorbell access arrives through the function and port recorded for the queue; for QueueID 0, through the
management source; for PORT 8, from the node bound to the slice (R93, R314). -/
def State.queuePath (s : State) (q : Nat) (p : Path) : Bool :=
  if q = 0 then s.managerPath p
  else match p with
    | .hostPf d => s.getF .QCX_OWNER_PORT q == d && s.bitF .QCX_OWNER_PF q
    | .hostVf d v => s.getF .QCX_OWNER_PORT q == d && !s.bitF .QCX_OWNER_PF q && s.getF .QCX_OWNER_VF q == v
    | .fil _ n => s.getF .QCX_OWNER_PORT q == 8 && s.getF .SLC_NODE_NODE (s.qSlice q) == n
    | _ => false

/-- Count an ignored doorbell-page access (R92). -/
def State.ignoreDoorbell (s : State) (q : Nat) : State := s.bumpF .QCX_ERR_DB_IGNORED q

/-- The TDI of a virtual function, if one is kept. -/
def State.tdiOf (s : State) (port vf : Nat) : Option Tdi := s.sec.tdis.find (port * 512 + vf)

/-- Whether a path's memory requests meet a completer abort: PF0 until the IMAGE start stage has completed (Table 2-11), and
the BARs of a TDI in ERROR (R374). -/
def State.pathShut (s : State) (p : Path) : Bool :=
  match p with
  | .hostPf _ | .pfBar45 _ => !s.recov.pfServed && s.edge.straps.alloyRole != 2
  | .hostVf d v | .vfBar23 d v => (s.tdiOf d v).any (fun t => t.state == TdiState.error)
  | _ => false

/-- Refuse an access on its path (R418): 6 stands for ST_PRIV, 0xE for ST_DOMAIN_OFF on Filigree. -/
def State.refusePath (s : State) (p : Path) (meaning : Nat) : State := s.emit (.pathRefused p meaning)

/-- Run a doorbell-page write where it acts: not through another path, not on a FREE or TOMBSTONE queue (Table 4-12),
and not while Table 16-7 answers doorbells; `held` is what a write to queue 0 does before step 12 there. -/
def State.doorbell (s : State) (path : Path) (q : Nat) (held act : State → State) : State :=
  if s.pathShut path then s.refusePath path 6
  else if s.closed && !(q == 0 && s.queueZeroOpen) then (if q = 0 ∧ s.queuePath q path then held s else s)
  else if s.qState q = 0 ∨ s.qState q = 4 ∨ !s.queuePath q path then s.ignoreDoorbell q
  else act s

/-- Mark a queue ready when its tail has moved beyond HEAD (R161); queue 0 becoming ready is source MGMT of c0 (Table 14-1). -/
def State.markReady (s : State) (q : Nat) : State :=
  let x := s.qx q
  if s.getF .QCX_SQ_PTRS_TAIL q ≠ s.getF .QCX_SQ_PTRS_HEAD q ∧ x.readyAt.isNone then
    let s := s.setQx q { x with readyAt := some s.now }
    if q = 0 then s.cicEvent 0 4 else s
  else s

/-- Record a new SQ tail: a value of entries or more sets TAIL_RANGE and is ignored (R94, R90). -/
def State.recordTail (s : State) (q v : Nat) : State :=
  if v ≥ s.entries q then s.setF .QCX_ERR_LAST_ERR q 4 else s.setF .QCX_SQ_PTRS_TAIL q v

/-- Take a new SQ tail: it is recorded, and the queue is ready when it announces descriptors (R94, R90, R161). -/
def State.newTail (s : State) (q v : Nat) : State := (s.recordTail q v).markReady q

/-- A write of SQ_TAIL: KIND 2 and 3 ignore it (Table 4-8a). -/
def State.tailWrite (s : State) (path : Path) (queue v : Nat) : State :=
  s.doorbell path queue (fun s => s.recordTail queue v)
    (fun s => if s.getF .QCX_CFG_KIND queue ≥ 2 then s else s.newTail queue v)

/-- R94: an SQ_TAIL write records the new tail and marks the queue ready; KIND 2 and 3 ignore it (Table 4-8a). -/
def execSqTailWrite (path : Path) (queue : Nat) (value : W32) (s : State) : Result := .next (s.tailWrite path queue (value.toNat % 2 ^ 16))

/-- A write of CQ_HEAD: it acts when the value is below entries and frees no unwritten entry (R95). -/
def State.headWrite (s : State) (path : Path) (queue v : Nat) : State :=
  s.doorbell path queue id (fun s =>
    let n := s.entries queue
    let x := s.qx queue
    let d := (v + n - s.getF .QCX_CQ_PTRS_HEAD queue) % n
    if v ≥ n ∨ d > x.unfreed then (s.setF .QCX_ERR_LAST_ERR queue 6).ignoreDoorbell queue
    else (s.setF .QCX_CQ_PTRS_HEAD queue v).setQx queue { x with unfreed := x.unfreed - d })

/-- R95: a CQ_HEAD write frees the entries before it, if the value is below entries and frees no unwritten entry. -/
def execCqHeadWrite (path : Path) (queue : Nat) (value : W32) (s : State) : Result := .next (s.headWrite path queue (value.toNat % 2 ^ 16))

/-- A write of IDLE_HINT. -/
def State.hintWrite (s : State) (path : Path) (queue v : Nat) : State :=
  s.doorbell path queue id (fun s => s.setF .QCX_STATE_PARKED queue (v % 2))

/-- R102: an IDLE_HINT write sets PARKED. -/
def execIdleHintWrite (path : Path) (queue : Nat) (value : W32) (s : State) : Result := .next (s.hintWrite path queue value.toNat)

/-- The cause of a withdrawal by CANCEL (R104). -/
def causeCancel : EndCause := ⟨0x0B, 0, true, none, none⟩
/-- The cause of a withdrawal by destruction (R108): no completion. -/
def causeDestroy : EndCause := ⟨0, 0, false, none, none⟩

/-- Whether an accepted item older than `i` with a TAG has ended on an IN_ORDER queue and its completion, committed to be written, waits
its turn. -/
def State.tagWaits (s : State) (queue i tag : Nat) : Bool :=
  (s.qx queue).ordered.any (fun p => p.at_.isSome && decide (p.num < i) && p.comp.tag == tag)

/-- A write of CANCEL, ignored while CANCEL is disabled (Table 4-10). The oldest item with the TAG that is still open by R74 is the one
meant: where its completion already waits its turn, the write does nothing (DEDUCED, log entry 110). -/
def State.cancelWrite (s : State) (path : Path) (queue tag : Nat) : State :=
  s.doorbell path queue id (fun s =>
    if !s.bitF .QCX_STATE_CANCEL_EN queue then s
    else match s.itemsWhere (fun (x : Item) => x.queue == queue && !x.step && x.desc.tag == tag) with
      | (i, x) :: _ => if x.cause.isSome || s.tagWaits queue i tag then s else s.withdrawItem i causeCancel
      | [] => s)

/-- R104: a CANCEL write withdraws the oldest open accepted item of the queue with that TAG; while CANCEL is disabled
it is ignored (Table 4-10). -/
def execCancelWrite (path : Path) (queue : Nat) (value : W32) (s : State) : Result := .next (s.cancelWrite path queue value.toNat)

/-! ### The doorbell page (R92, Tables 4-8a and 4-10) -/

/-- A write of `size` bytes at an offset of a queue's doorbell page: only aligned 4-byte accesses act (R92). Of
PHN_FEATURE_EN only bit 6 can be written. -/
def State.pageWrite (s : State) (path : Path) (q o size v : Nat) : State :=
  if s.pathShut path then s.refusePath path 6
  else if size ≠ 4 ∨ o % 4 ≠ 0 then s.ignoreDoorbell q
  else match o with
    | 0x000 => s.tailWrite path q (v % 2 ^ 16)
    | 0x008 => s.headWrite path q (v % 2 ^ 16)
    | 0x010 => s.hintWrite path q v
    | 0x018 => s.cancelWrite path q (v % 2 ^ 32)
    | 0x808 => s.doorbell path q id (fun s => s.setF .QCX_STATE_CANCEL_EN q (bits v 6 1))
    | _ => s

/-- A read at an offset of a queue's doorbell page; during recovery and FENCED as Table 16-7 gives. -/
def State.pageRead (s : State) (q o size : Nat) : Nat × State :=
  let free := s.closed && !(q == 0 && s.queueZeroOpen)
  if size ≠ 4 ∨ o % 4 ≠ 0 then (0, s.ignoreDoorbell q)
  else match o with
    | 0x010 => (s.getF .QCX_STATE_PARKED q, s)
    | 0x800 => (0x0201, s)
    | 0x804 => (0x7F, s)
    | 0x808 => (s.getF .QCX_STATE_CANCEL_EN q * 64, s)
    | 0x80C => (if free then 0 else
        s.qState q * 2 ^ 29 + s.getF .QCX_CFG_KIND q * 2 ^ 24 + s.getF .QCX_CFG_BE_OK q * 2 ^ 23 + s.getF .QCX_CFG_LC_OK q * 2 ^ 22 +
          s.getF .QCX_CFG_IN_ORDER q * 2 ^ 21 + s.getF .QCX_CFG_LOG2_ENTRIES q, s)
    | 0x810 => (if free then 0 else s.getF .QCX_SQ_PTRS_HEAD q, s)
    | _ => (0, s)

/-! ### Failed ring accesses (R107, R424) -/

/-- R107: a ring slot, tail line or CQ write fails: an ACTIVE or PAUSED queue pauses with LAST_ERR, and QUEUE_ERR is raised. The CQ
writes that have left the block and not landed are taken back and held (R424), those of a FROZEN queue too. -/
def execRingAccessFailure (queue : Nat) (failure : RingFail) (s : State) : Result :=
  let q := s.qState queue
  if q = 1 ∨ q = 2 ∨ q = 3 then
    match failure with
    | .cqXlate => .next ((s.unpost queue).cqError queue 2)
    | .cqRefused => .next ((s.unpost queue).cqError queue 8)
    | .sqXlate => .next (if q = 3 then s else s.pauseOnError queue 1)
    | .tailXlate => .next (if q = 3 then s else s.pauseOnError queue 3)
    | .poison => .next (if q = 3 then s else s.pauseOnError queue 7)
    | .refused => .next (if q = 3 then s else s.pauseOnError queue 8)
  else .next s

/-! ### FENCE, NOP and queue management (R84, R106–R112, R424) -/

/-- An open item of an opcode that nothing has stopped. -/
def State.live (s : State) (i opc : Nat) : Option Item :=
  match s.item i with
  | some x => if x.desc.opc = opc ∧ x.cause.isNone ∧ !x.step then some x else none
  | none => none

/-- R84: FENCE completes after every item of the queue accepted before it; before that, nothing happens. -/
def execFence (item : Nat) (s : State) : Result :=
  match s.live item 3 with
  | some x => if s.oldestOf x.queue = some item then .next (s.finishOk item 0) else .next s
  | none => .next s

/-- R84: NOP completes with no work. -/
def execNop (item : Nat) (s : State) : Result :=
  match s.live item 4 with
  | some _ => .next (s.finishOk item 0)
  | none => .next s

/-- The operand bytes of INLINE. -/
def Item.inl (x : Item) : Nat := x.desc.inl0.toNat + x.desc.inl1.toNat * 2 ^ 64

/-- End a management item by what the read of its operands met (Tables 4-5, 3-6; log entry 21). -/
def State.readFailed (s : State) (i : Nat) (r : Read) : State :=
  match r with
  | .bytes _ => s
  | .xlate reason => s.finishItem i 8 reason none 0
  | .poison => (s.incF .PRM_VOIDED_COUNT 0).finishItem i 4 0 none 0
  | .refused 5 _ => s.finishItem i 5 0 none 0
  | _ => s.finishItem i 3 5 none 0

/-- ST_BAD_DESC with a reason: 5 ARG, 8 STATE (R106). -/
def State.badDesc (s : State) (i reason : Nat) : State := s.finishItem i 7 reason none 0

/-- Run a management operation on its argument block of `n` bytes, read at slice 0's address ARG_PTR at c0's section; a
length other than `n` breaks the block's table (R106). -/
def State.withArgs (s : State) (i n : Nat) (x : Item) (rs : List Ext) (f : List Byte → List Ext → State → State) : State :=
  if x.desc.argLen ≠ n ∨ x.desc.flags.testBit 2 then s.badDesc i 5
  else match x.resv.map (fun r => r.block) with
  | some b => f b rs s
  | none => match s.readGuest 0 ⟨0, none, false⟩ x.desc.argPtr n rs with
    | (.bytes b, rs, s) => f b rs s
    | (r, _, s) => s.readFailed i r

/-- The fields of a queue context. -/
def qcxFields : List Fld :=
  [.QCX_STATE_STATE, .QCX_STATE_PRIOR, .QCX_STATE_PARKED, .QCX_STATE_CQ_PHASE, .QCX_STATE_CANCEL_EN, .QCX_CFG_KIND, .QCX_CFG_BE_OK,
    .QCX_CFG_LC_OK, .QCX_CFG_IN_ORDER, .QCX_CFG_LOG2_ENTRIES, .QCX_OWNER_SLICE, .QCX_OWNER_SLOT, .QCX_OWNER_PORT, .QCX_OWNER_PF,
    .QCX_OWNER_VF, .QCX_BIND_CORE, .QCX_SQ_BASE, .QCX_CQ_BASE, .QCX_TIMEOUT, .QCX_SQ_PTRS_TAIL, .QCX_SQ_PTRS_HEAD,
    .QCX_CQ_PTRS_HEAD, .QCX_CQ_PTRS_TAIL, .QCX_TAIL_LINE, .QCX_ERR_LAST_ERR, .QCX_ERR_DB_IGNORED]

/-- Clear a queue context to FREE. -/
def State.clearQueue (s : State) (q : Nat) : State :=
  let s := s.each qcxFields (fun s f => s.setF f q f.reset)
  let s := s.each (List.range 5) (fun s n => s.setF .QCX_CNT_COUNT (q * 5 + n) 0)
  { s with work := { s.work with queues := s.work.queues.del q } }

/-- The moderator settings of a queue's vector as creation leaves them: THRESH 1, DELAY_US 0 (R355). -/
def State.freshVector (s : State) (q : Nat) : State := { s with mbx := { s.mbx with vmod := s.mbx.vmod.del q } }

/-- Queues of a slice that are not FREE. -/
def State.sliceQueues (s : State) (slice : Nat) : List Nat :=
  (s.work.queues.map (fun (kv : Nat × QueueX) => kv.1)).filter (fun q => s.qState q != 0 && s.qSlice q == slice)

/-- The block of Table 4-11 as numbers. -/
structure NewQueue where
  id : Nat
  slice : Nat
  slot : Nat
  kind : Nat
  log2 : Nat
  flags : Nat
  sq : Nat
  cq : Nat
  tail : Nat
  timeout : Nat
  port : Nat
  func : Nat
deriving DecidableEq, Repr

/-- Read the fields of Table 4-11. -/
def NewQueue.parse (b : List Byte) : NewQueue :=
  ⟨fieldLE b 0 2, fieldLE b 2 2, fieldLE b 4 1, fieldLE b 5 1, fieldLE b 6 1, fieldLE b 7 1, fieldLE b 8 8, fieldLE b 0x10 8,
    fieldLE b 0x18 8, fieldLE b 0x20 4, fieldLE b 0x24 1, fieldLE b 0x26 2⟩

/-- Whether a block keeps Table 4-11. -/
def State.queueBlockOk (s : State) (b : List Byte) : Bool :=
  let n := NewQueue.parse b
  decide (0 < n.id ∧ n.id < 2 ^ 14 ∧ n.slice < 2 ^ 12 ∧ n.slot < 64 ∧ ¬(n.slice = 0 ∧ n.slot = 0) ∧ n.kind < 4 ∧ 4 ≤ n.log2 ∧
    n.log2 ≤ 16 ∧ n.flags < 16 ∧ n.flags % 4 ≠ 0 ∧ n.sq % 4096 = 0 ∧ n.cq % 4096 = 0 ∧
    (if n.kind = 3 then n.tail % 64 = 0 else n.tail = 0) ∧ bits n.timeout 30 2 ≠ 3 ∧ n.port ≤ 9 ∧
    (n.port < 8 → n.port < s.edge.build.dies) ∧ (n.kind = 0 → n.port < 8) ∧ (n.port = 9 → n.kind = 2) ∧ bits n.func 9 6 = 0) &&
    zeroAt b 0x25 1 && zeroAt b 0x28 24

/-- Whether the rings and the tail line lie in the memory the kind requires (R89, Table 4-7). -/
def State.ringsOk (s : State) (sec slice kind port log2 sq cq tail : Nat) : Bool × State :=
  let ok (t : Target) : Bool :=
    match kind, t with
    | 0, .host p => p.port == port
    | 1, .remote _ => true
    | 0, _ => false
    | _, .pool _ => true
    | _, _ => false
  let a : Accessor := ⟨slice, none, false⟩
  let (o1, s) := s.rangeOk sec a false ok sq (64 * 2 ^ log2)
  let (o2, s) := s.rangeOk sec a true ok cq (32 * 2 ^ log2)
  let (o3, s) := if kind = 3 then s.rangeOk sec a false ok tail 64 else (true, s)
  (o1 && o2 && o3, s)

/-- Fill the context of a new queue (Table 4-12, FREE): counters cleared, CQ_PHASE 1. -/
def State.fillQueue (s : State) (n : NewQueue) (core state : Nat) : State :=
  let q := n.id
  let s := (s.clearQueue q).freshVector q
  let s := s.setQx q QueueX.fresh
  let s := ((((s.setF .QCX_STATE_STATE q state).setF .QCX_STATE_CQ_PHASE q 1).setF .QCX_CFG_KIND q n.kind).setF .QCX_CFG_LC_OK q (bits n.flags 0 1)).setF
    .QCX_CFG_BE_OK q (bits n.flags 1 1)
  let s := (((s.setF .QCX_CFG_IN_ORDER q (bits n.flags 2 1)).setF .QCX_CFG_LOG2_ENTRIES q n.log2).setF .QCX_OWNER_SLICE q n.slice).setF
    .QCX_OWNER_SLOT q n.slot
  let s := (((s.setF .QCX_OWNER_PORT q n.port).setF .QCX_OWNER_PF q (bits n.func 15 1)).setF .QCX_OWNER_VF q (bits n.func 0 9)).setF
    .QCX_BIND_CORE q core
  let s := ((s.setF .QCX_SQ_BASE q (n.sq / 4096)).setF .QCX_CQ_BASE q (n.cq / 4096)).setF .QCX_TIMEOUT q n.timeout
  s.setF .QCX_TAIL_LINE q (n.tail / 64)

/-- Mark a queue TOMBSTONE: its descriptors and held completions are discarded and its items withdrawn without completion; completion
writes under way land (R108, R424), and its vector's count and timer go (R355). The ring slot of a list that is being read does not count as unstarted again. -/
def State.tombstone (s : State) (q : Nat) (by_ : Option Nat) : State :=
  let x := s.qx q
  let n := s.entries q
  let ring := (s.getF .QCX_SQ_PTRS_TAIL q + n - s.getF .QCX_SQ_PTRS_HEAD q) % n - b2n x.chain.isSome
  let mine := s.itemsWhere (fun (y : Item) => y.queue == q && !y.step)
  let s := s.landQueue q
  let s := s.each (x.held ++ x.ordered) State.closeFor
  let s := (s.setF .QCX_STATE_STATE q 4).setF .QCX_STATE_PRIOR q 0
  let x := s.qx q
  let s := s.setQx q { x with fetched := [], chain := none, held := [], ordered := [], destroyItem := by_, readyAt := none,
                              discarded := x.fetched.length + ring, cancelled := mine.length, count := 0, timer := none }
  s.each mine (fun s kv => (s.withdrawItem kv.1 causeDestroy).updItem kv.1 (fun y => { y with stopAt := some s.now }))

/-- R108: DESTROY_QUEUE marks the context TOMBSTONE and withdraws its work; it completes when the queue is FREE
(QUEUE_RELEASE_DONE). QueueID 0, and a FREE or TOMBSTONE queue, complete ST_BAD_DESC, STATE. -/
def execDestroyQueue (item : Nat) (s : State) : Result :=
  match s.live item 0x89 with
  | some x =>
    let q := x.inl % 2 ^ 14
    if (s.qx q).destroyItem = some item then .next s
    else if q = 0 ∨ s.qState q = 0 ∨ s.qState q = 4 then .next (s.badDesc item 8)
    else .next (s.tombstone q (some item))
  | none => .next s

/-- Whether a backend operation of a queue's work is still without its report (R170). -/
def State.tokensOpen (s : State) (q : Nat) : Bool :=
  s.work.backends.any (fun (kv : Nat × Backend) => kv.2.tokens.any (fun (t : Nat × Token) => t.2.queue == q))

/-- R108: the last release of a TOMBSTONE queue arrives: its context becomes FREE, and the DESTROY_QUEUE that took it
completes with the counts of Table 4-8. -/
def execQueueReleaseDone (queue : Nat) (s : State) : Result :=
  if s.qState queue = 4 ∧ (s.itemsWhere (fun (y : Item) => y.queue == queue && !y.step)) = [] ∧ !s.tokensOpen queue then
    let x := s.qx queue
    let s := s.clearQueue queue
    match x.destroyItem with
    | some i => .next (s.finishOk i (BitVec.ofNat 64 (x.discarded + x.cancelled * 2 ^ 32)))
    | none => .next s
  else .next s

/-- R107: PAUSE_QUEUE stops fetch of an ACTIVE queue; on a PAUSED one it completes and changes nothing. -/
def execPauseQueue (item : Nat) (s : State) : Result :=
  match s.live item 0x8A with
  | some x =>
    let q := x.inl % 2 ^ 14
    if q = 0 ∨ (s.qState q ≠ 1 ∧ s.qState q ≠ 2) then .next (s.badDesc item 8)
    else .next ((s.setF .QCX_STATE_STATE q 2).finishOk item 0)
  | none => .next s

/-- RESUME_QUEUE on a PAUSED queue: a queue without a core is bound first (R160); LAST_ERR is cleared, the held completions
are written, and fetch resumes. -/
def State.resumeQueue (s : State) (i q : Nat) : State :=
  let x := s.qx q
  let bound := if x.unbound then s.rebindCore (s.qSlice q) (s.bitF .QCX_CFG_LC_OK q) else some (s.getF .QCX_BIND_CORE q)
  match bound with
  | none => s.badDesc i 8
  | some c =>
    let s := ((s.setF .QCX_BIND_CORE q c).setF .QCX_STATE_STATE q 1).setF .QCX_ERR_LAST_ERR q 0
    let s := s.setQx q { x with unbound := false, cqFailed := false }
    (s.writeHeld q x.held.length).finishOk i 0

/-- R424: RESUME_QUEUE writes the held completions in order, each followed by its interrupt, before fetch resumes. -/
def execResumeQueue (item : Nat) (s : State) : Result :=
  match s.live item 0x8B with
  | some x =>
    let q := x.inl % 2 ^ 14
    if q = 0 ∨ (s.qState q ≠ 1 ∧ s.qState q ≠ 2) then .next (s.badDesc item 8)
    else if s.qState q = 1 then .next (s.finishOk item 0)
    else .next (s.resumeQueue item q)
  | none => .next s

/-- R112: ACTIVATE checks the context that the manager wrote into queue 0 while FREE and moves it to ACTIVE on c0; a failed
check sets CONFIG. OWNER.PORT follows MGT_SRC. -/
def execQcxActivate (s : State) : Result :=
  if s.qState 0 ≠ 0 then .next s
  else
    let kind := s.getF .QCX_CFG_KIND 0
    let k := s.getF .QCX_CFG_LOG2_ENTRIES 0
    let src := s.edge.straps.mgtSrc
    let sq := s.getF .QCX_SQ_BASE 0 * 4096
    let cq := s.getF .QCX_CQ_BASE 0 * 4096
    let shape := decide (kind ≤ 1 ∧ 4 ≤ k ∧ k ≤ 16 ∧ bits (s.getF .QCX_TIMEOUT 0) 30 2 ≠ 3 ∧ (kind = 0 → src = 0)) &&
      (s.bitF .QCX_CFG_LC_OK 0 || s.bitF .QCX_CFG_BE_OK 0)
    let (ok, s) := if shape then s.ringsOk 0 0 kind 0 k sq cq 0 else (false, s)
    if ok then
      let n : NewQueue := ⟨0, 0, 0, kind, k, s.getF .QCX_CFG_LC_OK 0 + 2 * s.getF .QCX_CFG_BE_OK 0 + 4 * s.getF .QCX_CFG_IN_ORDER 0,
        sq, cq, 0, s.getF .QCX_TIMEOUT 0, match src with | 0 => 0 | 1 => 8 | _ => 10, if src = 0 then 0x8000 else 0⟩
      .next (s.fillQueue n 0 1)
    else .next (s.setF .QCX_ERR_LAST_ERR 0 5)

/-- R77: PRM_COUNT_CLR clears the promise counters. -/
def execPrmCountClr (s : State) : Result :=
  let s := s.each (List.range 8) (fun s n => s.setF .PRM_REFUSED_COUNT n 0)
  let s := s.each (List.range 4) (fun s n => s.setF .PRM_VOIDED_COUNT n 0)
  .next (((s.setF .PRM_BROKEN_COUNT 0 0).setF .PRM_REFUSED_REMOTE_EXPIRED 0 0).setF .PRM_REFUSED_REMOTE_SHORT 0 0)

end Sys2Proof.Machine
end

