-- ==== Sys2Proof/Machine/Models.lean ====
section
/-!
DEFINITION. Models, their windows and loads, sequences and step chains, as admission and the steps take them
(chapter 08, R201–R212, R223).
-/

namespace Sys2Proof.Machine

/-! ### Models (R201–R204) -/

/-- A model's pages. -/
def State.modelPages (s : State) (m : Nat) : Nat := s.getF .SRV_MDL_SIZE_PAGES m
/-- LC_SHARE of a model. -/
def State.modelShare (s : State) (m : Nat) : Nat := s.getF .SRV_MDL_SHAPE_LC_SHARE m
/-- Whether a model's entry is VALID. -/
def State.modelValid (s : State) (m : Nat) : Bool := decide (m < 1024) && s.bitF .SRV_MDL_CTRL_VALID m
/-- SRV_MDL_CTRL.STATE: 0 ABSENT, 1 LOADING, 2 RESIDENT. -/
def State.modelState (s : State) (m : Nat) : Nat := s.getF .SRV_MDL_CTRL_STATE m
/-- A model with nothing placed. -/
def ModelX.fresh : ModelX := ⟨[], 0, 0, 0⟩
/-- Where a model lies. -/
def State.modelX (s : State) (m : Nat) : ModelX := s.serve.models.findD m ModelX.fresh
/-- Change where a model lies. -/
def State.setModelX (s : State) (m : Nat) (x : ModelX) : State := { s with serve := { s.serve with models := s.serve.models.put m x } }

/-- The open sequences of a model. -/
def State.modelSeqs (s : State) (m : Nat) : List (Nat × Seq) := s.serve.seqs.filter (fun (kv : Nat × Seq) => kv.2.model == m)

/-- The sections of a model: those above the parts it occupies (R202). -/
def State.modelSecs (s : State) (m : Nat) : List Nat :=
  let x := s.modelX m
  (List.range x.parts).map (x.firstPart + ·)

/-- The core of a model's steps: the lowest-numbered cue core in service of the model's first section (R213). -/
def State.coreOfModel (s : State) (m : Nat) : Option Nat := (coresOfSec (s.modelX m).firstPart).find? (fun c => !s.coreOos c)

/-- The mask of a list of sections. -/
def maskOf (l : List Nat) : Nat := l.foldl (fun m k => putBit m k true) 0

/-- A model is held while an accepted launch or step request refers to it, a load of it is in progress or a step of it runs (R203). -/
def State.modelHeld (s : State) (m : Nat) : Bool :=
  s.work.items.any (fun (kv : Nat × Item) => kv.2.holds m) ||
    (match s.serve.load with | some l => l.model == m | none => false)

/-- Whether an accepted PIN_MODEL of a model is open: it is no hold (R203), but what it was admitted on stands until it runs (R72; DESIGN
CHOICE, log entry 112). -/
def State.pinOpen (s : State) (m : Nat) : Bool :=
  s.work.items.any (fun (kv : Nat × Item) => kv.2.model == some m && kv.2.desc.opc == 0xA0)

/-- Whether a model may be evicted: RESIDENT, unpinned and not held (R204). -/
def State.evictable (s : State) (m : Nat) : Bool :=
  s.resident m && !s.bitF .SRV_MDL_CTRL_PINNED m && !s.modelHeld m && !s.pinOpen m

/-- Frames of part `k`'s hot-set area that no hole takes (R202, R266). -/
def State.goodFrames (s : State) (k : Nat) : List Nat :=
  (List.range (s.hotFrames k)).filter (fun f => (s.holeAt (directBase k + f * 0x200000)).isNone)

/-- Frames that models hold in a part. -/
def State.usedFrames (s : State) (k : Nat) : List Nat :=
  s.serve.models.flatMap (fun (kv : Nat × ModelX) => (kv.2.frames.filter (fun f => f.1 == k)).map (·.2))

/-- Free frames of a part's hot-set area. -/
def State.freeFrames (s : State) (k : Nat) : List Nat := (s.goodFrames k).filter (fun f => !(s.usedFrames k).contains f)

/-- Pages of a model that the `i`-th of `p` parts takes, the pages dealt in turn (R202). -/
def shareOf (pages p i : Nat) : Nat := ceilDiv (pages - i) p

/-- Insert by last hold, the oldest first. -/
def byLastHeld (s : State) (m : Nat) : List Nat → List Nat
  | [] => [m]
  | x :: t => if (s.modelX m).lastHeld < (s.modelX x).lastHeld then m :: x :: t else x :: byLastHeld s m t

/-- The models that may be evicted from a window, in the order of R204. -/
def State.evictOrder (s : State) (k p : Nat) : List Nat :=
  ((s.serve.models.map (fun (kv : Nat × ModelX) => kv.1)).filter (fun m =>
    s.evictable m && (s.modelX m).frames.any (fun f => decide (k ≤ f.1 ∧ f.1 < k + p)))).foldl (fun l m => byLastHeld s m l) []

/-- Whether every part of a window has room for its share once some models are evicted. -/
def State.windowRoom (s : State) (k p pages : Nat) (gone : List Nat) : Bool :=
  (List.range p).all (fun i =>
    let freed := ((gone.flatMap (fun m => (s.modelX m).frames)).filter (fun f => f.1 == k + i)).length
    decide (shareOf pages p i ≤ (s.freeFrames (k + i)).length + freed))

/-- The models evicted for a window, one at a time until every part has room (R204); `none` when there is never room. -/
def State.evictFor (s : State) (k p pages : Nat) : List Nat → List Nat → Option (List Nat)
  | [], gone => if s.windowRoom k p pages gone then some gone else none
  | m :: rest, gone => if s.windowRoom k p pages gone then some gone else s.evictFor k p pages rest (gone ++ [m])

/-- What the open management operations have reserved (R72). -/
def State.resvs (s : State) : List Resv := s.work.items.filterMap (fun (kv : Nat × Item) => kv.2.resv)

/-- Σ LC_SHARE of the slices that are not EMPTY in a section, with what accepted operations have reserved of it (R72, R333). -/
def State.sliceShares (s : State) (k : Nat) : Nat :=
  ((List.range 4095).map (fun i => if s.getF .SLC_STATE_STATE (i + 1) = 0 then 0 else s.lcShare (i + 1) k)).foldl (· + ·) 0 +
    (s.resvs.map (fun r => r.shares.getD k 0)).foldl (· + ·) 0

/-- Σ LC_SHARE of the VALID models that count in a section, but for some (R203, R333). -/
def State.modelShares (s : State) (k : Nat) (but : List Nat) : Nat :=
  ((s.serve.models.map (fun (kv : Nat × ModelX) => kv.1)).filter (fun m =>
    s.modelValid m && !but.contains m && (s.modelState m != 0 || (s.modelSeqs m) != []) && (s.modelSecs m).contains k)).foldl (fun a m => a + s.modelShare m) 0

/-- LC_CAP (R333). -/
def State.lcCap (s : State) : Nat := s.getF .SRV_CTRL_LC_CAP 0

/-- The evictions a window needs, if it can be taken: room in every part, and the model's LC_SHARE within the sums of the
sections, counting only the models that would remain (R202, step 1). -/
def State.windowTake (s : State) (m k p : Nat) : Option (List Nat) :=
  match s.evictFor k p (s.modelPages m) (s.evictOrder k p) [] with
  | none => none
  | some gone =>
    let stays := gone.filter (fun g => (s.modelSeqs g) = [])
    if (List.range p).all (fun i =>
        decide (s.sliceShares (k + i) + s.modelShares (k + i) (m :: stays) + s.modelShare m ≤ s.lcCap)) then some gone else none

/-- The smallest number of adjacent parts whose hot-set areas, without their holes, can hold the shares of a model (R202, R266). -/
def State.windowParts (s : State) (m : Nat) : Option Nat :=
  ((List.range 8).map (· + 1)).find? (fun p => (List.range (9 - p)).any (fun k =>
    (List.range p).all (fun i => decide (shareOf (s.modelPages m) p i ≤ (s.goodFrames (k + i)).length))))

/-- A window with the evictions it needs. -/
structure Window where
  part : Nat
  parts : Nat
  evict : List Nat
deriving DecidableEq, Repr

/-- Bytes that a window's evictions drop. -/
def State.evictBytes (s : State) (w : Window) : Nat := w.evict.foldl (fun a m => a + s.modelPages m * 0x200000) 0

/-- Whether window `a` is preferred to `b` (R202, steps 2 to 4; `b` has the higher part). -/
def State.prefers (s : State) (b a : Window) : Bool :=
  let homed (w : Window) : Bool := (List.range w.parts).all (fun i => decide (0 < homeStacks s.nStacks (w.part + i)))
  if homed a ≠ homed b then homed b else decide (s.evictBytes b < s.evictBytes a)

/-- The window that a load of a model takes (R202): its claimed parts while it has open sequences (R223), else the
preferred one, a part claimed by another model only where no other window is possible (R203). -/
def State.window (s : State) (m : Nat) : Option Window :=
  let x := s.modelX m
  let take (p k : Nat) : Option Window := (s.windowTake m k p).map (fun g => ⟨k, p, g⟩)
  if (s.modelSeqs m) ≠ [] ∧ x.parts ≠ 0 then take x.parts x.firstPart
  else match s.windowParts m with
    | none => none
    | some p =>
      let all := (List.range (9 - p)).filterMap (take p)
      let claimed (w : Window) : Bool := s.serve.models.any (fun (kv : Nat × ModelX) =>
        kv.1 != m && (s.modelSeqs kv.1) != [] &&
          (List.range w.parts).any (fun i => decide (kv.2.firstPart ≤ w.part + i ∧ w.part + i < kv.2.firstPart + kv.2.parts)))
      let free := all.filter (fun w => !claimed w)
      (if free ≠ [] then free else all).foldl (fun best w => match best with
        | none => some w
        | some b => if s.prefers w b then some w else some b) none

/-- Set SRV_STATUS.RESIDENT and a model's state. -/
def State.setModelState (s : State) (m st : Nat) : State := s.setF .SRV_MDL_CTRL_STATE m st

/-- The PARTS mask of a model: parts it holds pages in or claims (R203). -/
def State.modelParts (s : State) (m : Nat) : Nat :=
  if s.modelState m = 0 ∧ (s.modelSeqs m) = [] then 0 else maskOf (s.modelSecs m)

/-- A model leaves the hot tier: ABSENT with no pages; open sequences keep its claim (R203, R204). -/
def State.evict (s : State) (m : Nat) : State :=
  (s.setModelX m { s.modelX m with frames := [] }).setModelState m 0

/-- Frames for a model's pages in page order: page `j` goes to part `k + j mod p`, each part giving its lowest free frames. -/
def State.dealFrames (s : State) (k p pages : Nat) : List (Nat × Nat) :=
  (List.range pages).map (fun j => (k + j % p, (s.freeFrames (k + j % p)).getD (j / p) 0))

/-! ### Loads (R205) -/

/-- The bytes of a model's load. -/
def State.loadBytes (s : State) (m : Nat) : Nat := s.modelPages m * 0x200000

/-- The node offset of a model's source. -/
def State.modelSrc (s : State) (m : Nat) : Nat := s.getF .SRV_MDL_SRC_BASE m * 0x200000

/-- Whether a model's source lies wholly within one of this node's pool windows (R205). -/
def State.sourceHere (s : State) (m : Nat) : Bool :=
  s.modelSrc m / 2 ^ 48 == s.node && s.poolRange (s.modelSrc m % 2 ^ 48) (s.loadBytes m)

/-- Stacks that hold a page of a model's source: a page covers every stack that its window interleaves over. -/
def State.sourceStacks (s : State) (m : Nat) : Nat :=
  match s.region (s.modelSrc m % 2 ^ 48) with
  | .localTo k | .lcOf k => homeStacks s.nStacks k
  | _ => s.nStacks

/-- T_load of a load in `n` sections (R67, R205): the larger of the move and stack terms, each rounded up. SHARE is capped by
the channels outside the LC partition. -/
def State.tLoad (s : State) (sg m n : Nat) : Nat :=
  let b := s.loadBytes m
  let move := ceilDiv (sg * b) (1024 * 2000 * n)
  let rate := s.sourceStacks m * 800 * min (s.getF .SRV_LOAD_RES_SHARE 0 * s.chans) (64 * (s.chans - s.lcChans))
  max move (ceilDiv (b * 64 * s.chans) rate)

/-- When a load in a list of sections starts: the later of now and the tails of their move-engine ledgers. -/
def State.loadStart (s : State) (secs : List Nat) : Nat := secs.foldl (fun t k => max t (s.work.meTail.findD k 0)) s.now

/-- Loads that a slice started in the last second (R205). -/
def State.recentLoads (s : State) (slice : Nat) : Nat :=
  match s.slices.ext.find slice with
  | some x => (x.loads.filter (fun t => decide (s.now < t + 1000000000))).length
  | none => 0

/-- A slice with nothing beside its registers. -/
def SliceX.fresh : SliceX := ⟨none, none, [], []⟩
/-- What a slice holds beside its registers. -/
def State.sliceX (s : State) (slice : Nat) : SliceX := s.slices.ext.findD slice SliceX.fresh
/-- Change what a slice holds beside its registers. -/
def State.setSliceX (s : State) (slice : Nat) (x : SliceX) : State := { s with slices := { s.slices with ext := s.slices.ext.put slice x } }

/-- The window of a new load, unless R205 refuses it; `slice` is none for PIN_MODEL and the seed list, to which the cold
limit does not apply. -/
def State.newLoad (s : State) (m : Nat) (slice : Option Nat) : Option Window :=
  if s.serve.load.isSome || !s.sourceHere m then none
  else if (match slice with
    | some sl => decide (s.getF .SRV_SLC_CFG_COLD_LIMIT sl ≤ s.recentLoads sl)
    | none => false) then none
  else s.window m

/-- Power of a load: 8 mJ per GB over T_load, in mW, rounded up (R231). -/
def loadPower (bytes tLoad : Nat) : Nat := ceilDiv (8 * bytes) tLoad

/-- Commit a load: evict, assign frames, hold the move engines until the planned end, and enter LOADING (R203–R205). -/
def State.commitLoad (s : State) (m : Nat) (w : Window) (slice : Option Nat) (sg : Nat) : State :=
  let secs := (List.range w.parts).map (w.part + ·)
  let s := s.each w.evict State.evict
  let start := s.loadStart secs
  let t := s.tLoad sg m w.parts
  let frames := s.dealFrames w.part w.parts (s.modelPages m)
  let s := s.setModelX m ⟨frames, w.part, w.parts, (s.modelX m).lastHeld⟩
  let s := s.setModelState m 1
  let s := { s with
    serve := { s.serve with load := some ⟨m, start, start + t, false, loadPower (s.loadBytes m) t, []⟩ }
    work := { s.work with meTail := secs.foldl (fun t' k => t'.put k (start + t)) s.work.meTail } }
  let s := (s.setF .SRV_STATUS_LOAD_BUSY 0 1).setF .SRV_STATUS_LOAD_MODEL 0 m
  match slice with
  | some sl =>
    let x := s.sliceX sl
    (s.setSliceX sl { x with loads := x.loads.filter (fun t => decide (s.now < t + 1000000000)) ++ [s.now] }).incF .SRV_SLC_COLD_COUNT sl
  | none => s

/-! ### Sequences (R210, R223) -/

/-- Key of a sequence: slice and SeqID. -/
def seqKeyOf (slice id : Nat) : Nat := slice * 65536 + id % 65536

/-- Size of a section's KV pool, in 64 KiB pages. -/
def State.kvSize (s : State) (lc : Bool) (k : Nat) : Nat := if lc then s.getF .SRV_KVLC_SIZE_PAGES k else s.getF .SRV_KVPOOL_SIZE_PAGES k

/-- Pages of a section's KV pool that sequences hold or have reserved, closed ones that a running step uses among them (R217). -/
def State.kvUsed (s : State) (lc : Bool) (k : Nat) : List Nat :=
  (s.serve.seqs ++ s.serve.closed).flatMap (fun (kv : Nat × Seq) => if kv.2.sec = k ∧ kv.2.lcPool = lc then kv.2.pages else [])

/-- Node offset base of a KV pool. -/
def State.kvBase (s : State) (lc : Bool) (k : Nat) : Nat :=
  (if lc then s.getF .SRV_KVLC_BASE k * 65536 else s.getF .SRV_KVPOOL_BASE k * 65536) % 2 ^ 48

/-- Whether a page of a KV pool holds a hole: it is out of its pool (R266). -/
def State.kvHole (s : State) (lc : Bool) (k p : Nat) : Bool :=
  !s.mem.holes.isEmpty && (List.range 16).any (fun g => (s.holeAt (s.kvBase lc k + p * 65536 + g * 4096)).isSome)

/-- Whether a page of a KV pool waits for the scrub of the slice whose sequence held it (R348). -/
def State.kvUnclean (s : State) (lc : Bool) (k p : Nat) : Bool :=
  s.slices.ext.any (fun (kv : Nat × SliceX) => kv.2.heldPages.contains (s.kvBase lc k + p * 65536))

/-- The lowest `n` free pages of a pool, if it has so many. -/
def State.kvTake (s : State) (lc : Bool) (k n : Nat) : Option (List Nat) :=
  let used := s.kvUsed lc k
  let free := ((List.range (s.kvSize lc k)).filter (fun p => !used.contains p && !s.kvHole lc k p && !s.kvUnclean lc k p)).take n
  if free.length = n then some free else none

/-- New KV pages that `q` more tokens take (R210). -/
def State.kvNeed (s : State) (m kvLen q : Nat) : Nat :=
  let t := s.getF .SRV_MDL_KV_KV_TOK m
  s.getF .SRV_MDL_KV_LAYERS m * (ceilDiv (kvLen + q) t - ceilDiv kvLen t)

/-- Distance of a section from a list of sections. -/
def nearTo (secs : List Nat) (k : Nat) : Nat := secs.foldl (fun d j => min d (max j k - min j k)) 8

/-- The section and pool that a new sequence of a model takes, given the model's sections (R223). -/
def State.placeSeq (s : State) (m : Nat) (secs : List Nat) (cls : Cls) : Option (Nat × Bool) :=
  let lcAt (k : Nat) : Bool := cls == Cls.lc && decide (0 < s.kvSize true k)
  let fits (k : Nat) : Bool := decide (0 < homeStacks s.nStacks k) && (lcAt k || decide (0 < s.kvSize false k))
  let count (k : Nat) : Nat := ((s.modelSeqs m).filter (fun kv => kv.2.sec == k)).length
  let best (f : Nat → Nat) (l : List Nat) : Option Nat := l.foldl (fun b k => match b with
    | none => some k
    | some j => if f k < f j then some k else some j) none
  let own := secs.filter fits
  let pick := if own ≠ [] then best count own else best (nearTo secs) ((List.range 8).filter fits)
  pick.map (fun k => (k, lcAt k))

/-- KiB of KV pages that a slice's sequences hold, in MiB rounded up (SLC_MEMUSE). -/
def State.kvMib (s : State) (slice extra : Nat) : Nat :=
  ceilDiv ((((s.serve.seqs.filter (fun (kv : Nat × Seq) => kv.1 / 65536 == slice)).map (fun kv => kv.2.pages.length)).foldl (· + ·) 0) + extra) 16

/-! ### Step chains (R211, R212) -/

/-- Query tokens of an item. -/
def State.qLenOf (s : State) (i : Nat) : Nat := match s.item i with | some x => (match x.req with | some r => r.qLen | none => 1) | none => 0
/-- Prefill tokens of an item. -/
def State.tokensOf (s : State) (i : Nat) : Nat := match s.item i with | some x => (match x.req with | some r => r.tokens | none => 0) | none => 0

/-- Whether a step holds a request of a sequence. -/
def State.stepHas (s : State) (st : Step) (key : Nat) : Bool := st.members.any (fun i => (s.item i).any (fun x => x.seqKey == some key))

/-- Whether a request may join a step (R212), as far as the step itself says. -/
def State.joinable (s : State) (m : Nat) (st : Step) (slot batch tokens key : Nat) : Bool :=
  !st.started && st.castSlot == slot && decide (st.members.length < min 512 batch) &&
    decide ((st.members.map s.tokensOf).foldl (· + ·) 0 + tokens ≤ s.getF .SRV_MDL_SHAPE_PREFILL_CAP m) && !s.stepHas st key

/-- The position of the earliest step that a request of a sequence may join: none from which on a request of the same sequence waits, so
that a sequence's requests are served in acceptance order (R212; DEDUCED, log entry 96). -/
def State.joinStep (s : State) (m : Nat) (steps : List Step) (slot batch tokens key : Nat) : Option Nat :=
  (List.range steps.length).find? (fun j => (steps[j]?).any (fun st => s.joinable m st slot batch tokens key) &&
    !(steps.drop j).any (fun st => s.stepHas st key))

/-- Whether a Touchstone item keeps new items of a class off a unit: every item once the unit is borrowed, BE items while its
borrow is awaited (R411, Table 17-5). -/
def State.touchBars (s : State) (u : Nat) (c : Cls) : Bool :=
  s.work.touches.any (fun (kv : Nat × Touch) => kv.2.borrowed == some u || (c == Cls.be && kv.2.unit == u && ((kv.2.tests - (kv.2.passed ||| kv.2.failed)) &&& 0x3F) != 0))

/-- Tensor engines of a list of sections that new items of a class may be granted: none out of service (R389). -/
def State.tesIn (s : State) (secs : List Nat) (c : Cls) : List Nat :=
  (secs.flatMap (fun k => (List.range 6).map (6 * k + ·))).filter (fun t =>
    !s.teOos t && !s.inReset (unitOfTe t) && !s.touchBars (unitOfTe t) c)

/-- Share ρ of an item that Table 3-2 gives, as numerator and denominator: of slice 0, of an LC and of a BE item (R328). -/
def State.rho (s : State) (slice : Nat) (c : Cls) (sec teNeed : Nat) : Nat × Nat :=
  if slice = 0 then (1, 1)
  else
    let (n, d) := match c with
      | .lc => (s.lcShare slice sec * 6, 64 * max 1 teNeed)
      | .be => (s.getF .SLC_PLACE_BE_FLOOR slice * 6, 4096 * max 1 teNeed)
    if n < d then (n, d) else (1, 1)

/-- ρ scaled by the engines in service among a group's (R389). -/
def State.scaleRho (s : State) (r : Nat × Nat) (secs : List Nat) (c : Cls) : Nat × Nat :=
  (r.1 * (s.tesIn secs c).length, r.2 * 6 * secs.length)

end Sys2Proof.Machine
end

