-- ==== Sys2Proof/Machine/Budget.lean ====
section
/-!
DEFINITION. What admission takes from Temper, the meters and the ports: currency of telemetry, budget and energy
(chapter 09), hold-up coverage, the slice meters and the 60% rule (chapter 12).
-/

namespace Sys2Proof.Machine

/-! ### The budget (R227–R231, R238) -/

/-- P_budget in mW: min(P_ASSURED, LIMIT_W), zero without a current record; zero in a full Quench, and while a partial one sheds the
P_ASSURED that declared it (R227, R230, R238, Table 9-3). -/
def State.pBudget (s : State) : Nat :=
  match s.tlmNow with
  | none => 0
  | some r =>
    if 3 ≤ s.tmpState then 0
    else min (if s.tmpState = 2 then s.temper.quenchW else r.pAssured) (s.getF .TMP_LIMIT_LIMIT_W 0) * 1000

/-- The code in force: the higher of the code last acknowledged and a pending one (R231). -/
def State.codeInForce (s : State) : Nat :=
  if s.edge.pins.vidReq then max (s.getF .TMP_STATUS_CODE 0) s.edge.pins.vidCode else s.getF .TMP_STATUS_CODE 0

/-- Voltage of a VID code in mV (R45). -/
def vidMv (code : Nat) : Nat := 620 + 5 * code

/-- The code whose voltage a commitment is made at (R231). -/
def State.commitCode (s : State) : Nat := min 46 (s.codeInForce + s.getF .TMP_VID_VRES 0)

/-- E of an item in µJ: ENERGY_REF × (V_c ÷ 0.75 V)², rounded up (R231). -/
def State.energyOf (s : State) (ref : Nat) : Nat := ceilDiv (ref * vidMv s.commitCode ^ 2) (750 ^ 2)

/-- P_i of an item: E ÷ B in mW, rounded up (R231). -/
def powerOf (energy b : Nat) : Nat := ceilDiv (energy * 1000000) b

/-- Whether Temper can commit more power for a class (R227, R231, Table 9-2, R239). -/
def State.powerOk (s : State) (c : Cls) (mw : Nat) : Bool :=
  !s.stale && !s.temper.admitShut && !(c == Cls.be && s.bitF .TMP_STATUS_THERMAL_HIGH 0) &&
    decide (s.codeInForce + s.getF .TMP_VID_VRES 0 ≤ 46) && decide (s.pCommit + mw ≤ s.pBudget)

/-! ### Hold-up (R242, R243) -/

/-- Coverage that a record gives, in pages (R242). -/
def State.coverOf (s : State) (r : TlmRec) : Nat :=
  if !r.holdupValid then 0
  else if r.flushCost = 0 then Config.coverAtNoCost s.free
  else (r.cBank * (r.vBank ^ 2 - r.vFloor ^ 2) * r.derate - s.getF .TMP_HOLDUP_FIXED_J 0 * 200000000000) / (20 * r.flushCost * 4096)

/-- The valid leaf entries of a translation table in address order, each with the bytes it maps (R255): the entries that a walk
could end in. Levels count 3, 2, 1, 0. -/
def State.leaves (s : State) : Nat → Nat → List (Nat × Nat)
  | 0, _ => []
  | fuel + 1, table =>
    if table >>> 48 ≠ s.node ∨ !s.inPool (table % 2 ^ 48) then []
    else (List.range 512).flatMap (fun i =>
      match (s.readMem ((table + 8 * i) % 2 ^ 48) 8 0).1 with
      | .poison => []
      | .bytes b =>
        let e := natLE b
        if !e.testBit 0 then []
        else if e.testBit 5 then [(e, 4096)]
        else if bits e 6 6 ≠ 0 ∨ e.testBit 2 then []
        else if e.testBit 3 then (if fuel = 0 then [(e, 4096)] else if fuel = 1 ∧ bits e 12 9 = 0 then [(e, 2 ^ 21)] else [])
        else s.leaves fuel (bits e 12 52 * 4096))

/-- The valid leaf entries of a slice's translation context. -/
def State.sliceLeaves (s : State) (slice : Nat) : List (Nat × Nat) :=
  if s.bitF .MEM_XCTX_ROOT_EN slice then s.leaves 4 (s.getF .MEM_XCTX_ROOT_ROOT slice * 4096) else []

/-- The ranges of this node that a slice's translation context maps with write permission: offset and bytes. -/
def State.writable (s : State) (slice : Nat) : List (Nat × Nat) :=
  (s.sliceLeaves slice).filterMap (fun e =>
    if e.1.testBit 1 ∧ !e.1.testBit 5 ∧ bits e.1 48 16 = s.node then some (bits e.1 12 36 * 4096, e.2) else none)

/-- Whether a slice's translation context maps any durable page with write permission (R243). -/
def State.sliceMapsDur (s : State) (slice : Nat) : Bool :=
  (List.range 64).any (fun n => s.bitF .TMP_DUR_SIZE_EN n) &&
    (s.writable slice).any (fun r => (List.range (r.2 / 4096)).any (fun j => (s.durRegion (r.1 + j * 4096)).isSome))

/-! ### Meters (R319) -/

/-- Key of the unbound meter among the buckets. -/
def unboundMeter : Nat := 4096

/-- CIR, PIR, CBS and PBS of a meter. -/
def State.meterOf (s : State) (m : Nat) : Nat × Nat × Nat × Nat :=
  if m = unboundMeter then
    (s.getF .FIL_UMETER_RATE_CIR 0, s.getF .FIL_UMETER_RATE_PIR 0, s.getF .FIL_UMETER_CBS 0, s.getF .FIL_UMETER_PBS 0)
  else (s.getF .FIL_SLC_RATE_CIR m, s.getF .FIL_SLC_RATE_PIR m, s.getF .FIL_SLC_CBS m, s.getF .FIL_SLC_PBS m)

/-- A meter's buckets as refilled now, in thousandths of a byte (1 MB/s is 1/1000 byte per ns); buckets that nothing has
charged are full. -/
def State.bucketNow (s : State) (m : Nat) : Bucket :=
  let (cir, pir, cbs, pbs) := s.meterOf m
  match s.slices.buckets.find m with
  | none => ⟨cbs * 1000, pbs * 1000, s.now⟩
  | some b =>
    let dt := s.now - b.last
    ⟨min ((cbs : Int) * 1000) (b.tc + (cir * dt : Nat)), min ((pbs : Int) * 1000) (b.tp + (pir * dt : Nat)), s.now⟩

/-- The colour that a meter gives a charge of `n` bytes: 0 green, 1 yellow, 2 red (R319). -/
def State.colour (s : State) (m n : Nat) : Nat :=
  let (_, _, cbs, pbs) := s.meterOf m
  let b := s.bucketNow m
  if b.tp < ((min n pbs * 1000 : Nat) : Int) then 2 else if b.tc < ((min n cbs * 1000 : Nat) : Int) then 1 else 0

/-- Charge a meter (R319): red takes nothing, yellow takes from tp, green from both. -/
def State.charge (s : State) (m n : Nat) : State :=
  let b := s.bucketNow m
  let k : Int := ((n * 1000 : Nat) : Int)
  let b' := match s.colour m n with
    | 0 => { b with tc := b.tc - k, tp := b.tp - k }
    | 1 => { b with tp := b.tp - k }
    | _ => b
  { s with slices := { s.slices with buckets := s.slices.buckets.put m b' } }

/-- Set a meter full. -/
def State.fillMeter (s : State) (m : Nat) : State := { s with slices := { s.slices with buckets := s.slices.buckets.del m } }

/-! ### The 60% rule (R316) -/

/-- 60% of a port's capacity in MB/s: of 100 GB/s, or of 50 GB/s while DEGRADED. -/
def State.linkCap (s : State) (p : Nat) : Nat := if s.getF .FIL_PORT_STAT_STATE p = 3 then 30000 else 60000

/-- The reservations of an item on the live ports of its slice's link share: BYTES ÷ B shared among them, in MB/s. -/
def State.linkShare (s : State) (slice bytes b : Nat) : List (Nat × Nat) :=
  let ports := (List.range 64).filter (fun p => s.bitOf .SLC_PORTS slice p && s.portLive p)
  if bytes = 0 then [] else ports.map (fun p => (p, ceilDiv (bytes * 1000) (b * ports.length)))

/-- Whether reservations keep every port within 60% in both directions. -/
def State.linksOk (s : State) (l : List (Nat × Nat)) : Bool :=
  l.all (fun p => decide (s.getF .FIL_PORT_RES_IN_MBPS p.1 + p.2 ≤ s.linkCap p.1 ∧ s.getF .FIL_PORT_RES_OUT_MBPS p.1 + p.2 ≤ s.linkCap p.1))

/-- Add reservations to the ports. -/
def State.reserveLinks (s : State) (l : List (Nat × Nat)) : State :=
  s.each l (fun s p => (s.setF .FIL_PORT_RES_IN_MBPS p.1 (s.getF .FIL_PORT_RES_IN_MBPS p.1 + p.2)).setF .FIL_PORT_RES_OUT_MBPS p.1
    (s.getF .FIL_PORT_RES_OUT_MBPS p.1 + p.2))

end Sys2Proof.Machine
end

