-- ==== Sys2Proof/Machine/Fetch.lean ====
section
/-!
DEFINITION. The fetch of descriptors (chapters 04, 06): what a descriptor is copied with, the casts that LAUNCH names, window space and
context records, the turns of queues, linked lists, and what a freeze takes back.
-/

namespace Sys2Proof.Machine

/-! ### Casts as LAUNCH names them (R154, R156, R201, R208) -/

/-- The slot that a LAUNCH of a slice names, if the version is not FREED for it (R154, R156). -/
def State.castSlot (s : State) (cast ver slice : Nat) : Option Nat :=
  let owner := s.getF .CST_CAST_OWNER cast
  if !s.bitF .CST_CAST_VALID cast || !(owner == 0 || owner == slice) then none
  else
    let v := if ver = 0 then s.getF .CST_CAST_LIVE_VER cast else ver
    if v = 0 then none else (List.range 4).find? (fun k => s.slotState cast k != 0 && s.slotVer cast k == v)

/-- A version of a cast in a slot. -/
def State.castVer (s : State) (key : Nat) : Option CastVer := s.work.casts.find key

/-- The version a LAUNCH resolves to: its key and contents. A cast whose MODEL is not VALID, and a STEP cast that is not its
VALID model's step cast, count as FREED (R201, R208). -/
def State.resolveCast (s : State) (d : Desc) (slice : Nat) : Option (Nat × CastVer) :=
  match s.castSlot d.castId (d.castVer % 2 ^ 12) slice with
  | none => none
  | some k =>
    match s.castVer (d.castId * 4 + k) with
    | none => none
    | some v =>
      let ok := if v.cflags.testBit 0 then s.modelValid v.model && s.getF .SRV_MDL_CTRL_STEP_CAST v.model == d.castId
                else v.model == 0xFFFF || s.modelValid v.model
      if ok then some (d.castId * 4 + k, v) else none

/-! ### Descriptors and bound headers (R78, R147) -/

/-- Read a bound header, if it keeps Table 6-1 (R147). -/
def parseHdr (b : List Byte) : Option Hdr :=
  let isa := fieldLE b 4 2
  let h : Hdr := ⟨fieldLE b 6 2, fieldLE b 8 4, fieldLE b 0x0C 1, fieldLE b 0x0D 1, fieldLE b 0x10 4, fieldLE b 0x14 4, fieldLE b 0x18 4,
    fieldLE b 0x1C 2, fieldLE b 0x20 8⟩
  if decide (fieldLE b 0 4 = 0x49455543 ∧ isa / 256 = 1 ∧ isa % 256 ≤ 4 ∧ h.windowKib % 4 = 0 ∧ 4 ≤ h.windowKib ∧ h.windowKib ≤ 160 ∧
      h.teNeed ≤ 48 ∧ h.meNeed ≤ 32) && zeroAt b 0x0E 2 && zeroAt b 0x1E 2 && zeroAt b 0x28 24 then some h else none

/-- A descriptor's fields (Table 4-1). -/
def parseDesc (b : List Byte) (linked : Bool) (readyAt : Nat) : Desc :=
  { opc := fieldLE b 0 1, flags := fieldLE b 1 1, cls := fieldLE b 2 1, rsv3 := fieldLE b 3 1, tag := fieldLE b 4 4,
    cueEntry := fieldLE b 8 8, argPtr := fieldLE b 0x10 8, argLen := fieldLE b 0x18 4, allowance := fieldLE b 0x1C 4,
    castId := fieldLE b 0x20 2, castVer := fieldLE b 0x22 2, seq := fieldLE b 0x24 4, chain := fieldLE b 0x28 8,
    inl0 := BitVec.ofNat 64 (fieldLE b 0x30 8), inl1 := BitVec.ofNat 64 (fieldLE b 0x38 8), linked := linked, chainBad := false,
    fetchedAt := readyAt, slot := 0, va := 0, depth := 0, hdr := none }

/-- Copy a descriptor with the bound header of a RUN, which the core reads with it (R147). A header that cannot be read, whatever the
reason, counts as one that fails check 6 (DESIGN CHOICE, log entry 78: the rule names only one that does not translate). -/
def State.copyDesc (s : State) (q depth va : Nat) (b : List Byte) (rs : List Ext) : Desc × List Ext × State :=
  let d := { parseDesc b ((fieldLE b 1 1).testBit 1 || decide (0 < depth)) ((s.qx q).readyAt.getD s.now) with
    slot := s.getF .QCX_SQ_PTRS_HEAD q, va := va, depth := depth }
  if d.opc = 1 ∧ d.cueEntry % 64 = 0 ∧ 64 ≤ d.cueEntry then
    match s.readGuest (s.qSec q) ⟨s.qSlice q, none, false⟩ (d.cueEntry - 64) 64 rs with
    | (.bytes h, rs, s) => ({ d with hdr := parseHdr h }, rs, s)
    | (_, rs, s) => (d, rs, s)
  else (d, rs, s)

/-! ### Windows and context records (R117) -/

/-- Base of a free run of window space on a core (Table 5-4), the lowest. -/
def State.windowBase (s : State) (core size : Nat) : Option Nat :=
  let taken := s.itemsWhere (fun (x : Item) => x.core == core && x.hasWindow)
  ((List.range 40).map (fun i => 0x18000 + i * 4096)).find? (fun b =>
    decide (b + size ≤ 0x40000) && taken.all (fun kv => decide (b + size ≤ kv.2.winBase ∨ kv.2.winBase + kv.2.winSize ≤ b)))

/-- The core that an item runs on: the queue's bound core, or in Anvil mode, for a queue with no usable binding, a core of the
least-loaded section (R163). -/
def State.itemCore (s : State) (q : Nat) : Nat :=
  let b := s.getF .QCX_BIND_CORE q
  if !s.anvil ∨ (s.coreUp b ∧ !(s.qx q).unbound) then b
  else
    let load (c : Nat) : Nat := (s.itemsWhere (fun (x : Item) => secOfCore x.core == secOfCore c)).length
    (((List.range 64).filter (fun c => s.coreUp c && decide (s.records c < 64))).foldl (fun best c => match best with
      | none => some c
      | some b => if load c < load b then some c else some b) none).getD 0

/-- Bytes of local store that a descriptor's image or cast declares for its window (R117); a step request has none of its own. -/
def State.windowNeed (s : State) (q : Nat) (d : Desc) : Nat :=
  match d.opc with
  | 1 => 1024 * (match d.hdr with | some h => h.windowKib | none => 0)
  | 2 => match s.resolveCast d (s.qSlice q) with
    | some (_, v) => if v.cflags.testBit 0 then 0 else 1024 * v.windowKib
    | none => 0
  | _ => 0

/-- Bytes of window space that descriptors fetched for a core wait to take. -/
def State.windowWait (s : State) (c : Nat) : Nat :=
  (s.work.queues.map (fun (kv : Nat × QueueX) =>
    if s.getF .QCX_BIND_CORE kv.1 = c then (kv.2.fetched.map (s.windowNeed kv.1)).foldl (· + ·) 0 else 0)).foldl (· + ·) 0

/-- Whether the core that a descriptor's item will run on holds a free context record and its window's space (R117, R163). -/
def State.roomFor (s : State) (q : Nat) (d : Desc) : Bool :=
  let c := s.itemCore q
  let w := s.windowNeed q d
  decide (s.records c < 64 ∧ (w = 0 ∨ s.windowUse c + s.windowWait c + w ≤ 0x28000)) && (w == 0 || (s.windowBase c w).isSome)

/-! ### Turns (R97, R161) -/

/-- Whether a function bound to a slice has put its TDI into ERROR, which holds fetch (R374). -/
def State.tdiHeld (s : State) (slice : Nat) : Bool :=
  s.bitF .SLC_HOST_BOUND slice &&
    (s.tdiOf (s.getF .SLC_HOST_PORT slice) (s.getF .SLC_HOST_VF slice)).any (fun t => t.state == TdiState.error)

/-- Whether a FENCE of the queue is fetched or open (R84). -/
def State.fenced (s : State) (q : Nat) : Bool :=
  (s.qx q).fetched.any (fun d => d.opc == 3) || s.work.items.any (fun (kv : Nat × Item) => kv.2.queue == q && !kv.2.step && kv.2.desc.opc == 3)

/-- Whether no CQ entry can be reserved (R97). -/
def State.cqFull (s : State) (q : Nat) : Bool := decide (s.entries q ≤ (s.qx q).reserved + (s.qx q).unfreed)

/-- Whether the head of a queue can be fetched: ACTIVE, with a descriptor and a CQ entry, no FENCE before it (R84), its
slice LIVE (R332), not resetting (R337) and not held by a TDI (R374). -/
def State.fetchable (s : State) (q : Nat) : Bool :=
  s.qState q == 1 && !s.fenced q && !s.cqFull q && !(s.qx q).unbound && s.getF .SLC_STATE_STATE (s.qSlice q) == 2 &&
    !s.bitF .SLC_STATE_RESETTING (s.qSlice q) && !s.tdiHeld (s.qSlice q) && (q != 0 || s.queueZeroOpen) &&
    (s.getF .QCX_SQ_PTRS_TAIL q != s.getF .QCX_SQ_PTRS_HEAD q || (s.qx q).chain.isSome)

/-- The queues a core fetches: those bound to it, or in Anvil mode every queue at c0 and none elsewhere (R159, R163); none
while a Touchstone item has borrowed the core (R411). -/
def State.queuesOf (s : State) (c : Nat) : List Nat :=
  if s.work.touches.any (fun (kv : Nat × Touch) => kv.2.borrowed == some (unitOfCore c)) then []
  else (s.work.queues.map (fun (kv : Nat × QueueX) => kv.1)).filter (fun q =>
    s.fetchable q && (if s.anvil then c == 0 else s.getF .QCX_BIND_CORE q == c))

/-- The next queue of a round robin: the first above the last served, else the first. -/
def nextInTurn (last : Nat) (l : List Nat) : Option Nat :=
  match l.find? (fun q => decide (last < q)) with
  | some q => some q
  | none => l.head?

/-- The ready queue whose turn it is (R161): LC-allowed queues in round robin, after every 8 LC admissions at most one
BE-only queue, BE-only queues when no LC-allowed one is ready; in Anvil mode queue 0 first (R163). -/
def State.turn (s : State) (c : Nat) : Option Nat :=
  let qs := s.queuesOf c
  let lc := qs.filter (fun q => s.bitF .QCX_CFG_LC_OK q)
  let be := qs.filter (fun q => !s.bitF .QCX_CFG_LC_OK q)
  let x := s.core c
  if s.anvil ∧ qs.contains 0 then some 0
  else if lc = [] ∨ (x.lcTurns ≥ 8 ∧ be ≠ []) then nextInTurn x.rrBe be
  else nextInTurn x.rrLast lc

/-- Keep a fetched descriptor in the pending list with its CQ entry reserved, and count it. -/
def State.keepDesc (s : State) (q : Nat) (d : Desc) : State :=
  let x := s.qx q
  (s.setQx q { x with fetched := x.fetched ++ [d], reserved := x.reserved + 1 }).countQ q 0

/-- The ring slot counts as fetched: HEAD moves on, and the ready mark stays only while more is announced (R80, R161). -/
def State.advanceHead (s : State) (q : Nat) : State :=
  let h := (s.getF .QCX_SQ_PTRS_HEAD q + 1) % s.entries q
  let s := s.setF .QCX_SQ_PTRS_HEAD q h
  let x := s.qx q
  s.setQx q { x with chain := none, readyAt := if s.getF .QCX_SQ_PTRS_TAIL q = h then none else x.readyAt }

/-! ### Lists (R80) -/

/-- Stop the fetch of a list before its descriptor at `va`, whose bytes have been copied. -/
def State.stopList (s : State) (q va depth : Nat) (b : List Byte) : State :=
  let x := s.qx q
  s.setQx q { x with chain := some ⟨va, depth, some b⟩ }

/-- Copy the descriptor `b` at a depth of its list and follow CHAIN (R80). The list ends on a clear LINK, on an unreadable
CHAIN, and at depth 256; it stops where no CQ entry, context record or window space is free or a FENCE stands, and goes on from the bytes
it has copied (R78). -/
def State.fetchChain (s : State) (q : Nat) : Nat → Nat → Nat → List Byte → List Ext → State
  | 0, _, _, _, _ => s
  | fuel + 1, depth, va, b, rs =>
    match s.copyDesc q depth va b rs with
    | (d, rs, s) =>
      if !s.roomFor q d then (if depth = 0 then s else s.stopList q va depth b)
      else if !d.flags.testBit 1 then (s.keepDesc q d).advanceHead q
      else if depth ≥ 256 ∨ d.chain % 64 ≠ 0 then (s.keepDesc q { d with chainBad := true }).advanceHead q
      else match s.readGuest (s.qSec q) ⟨s.qSlice q, none, false⟩ d.chain 64 rs with
        | (.bytes nb, rs, s) =>
          let s := s.keepDesc q d
          if d.opc = 3 ∨ s.cqFull q then s.stopList q d.chain (depth + 1) nb else s.fetchChain q fuel (depth + 1) d.chain nb rs
        | (_, _, s) => (s.keepDesc q { d with chainBad := true }).advanceHead q

/-- Fetch the head descriptor of a queue, or go on with the list it began; a ring slot that cannot be read pauses the
queue (Table 4-12). A list that a freeze stopped and that can no longer be read ends (DESIGN CHOICE, log entry 78). -/
def State.fetchQueue (s : State) (q : Nat) (rs : List Ext) : State :=
  let next := ((s.qx q).chain).getD ⟨s.getF .QCX_SQ_BASE q * 4096 + 64 * s.getF .QCX_SQ_PTRS_HEAD q, 0, none⟩
  match next.body with
  | some b => s.fetchChain q 257 next.depth next.va b rs
  | none => match s.readGuest (s.qSec q) ⟨s.qSlice q, none, false⟩ next.va 64 rs with
    | (.bytes b, rs, s) => s.fetchChain q 257 next.depth next.va b rs
    | (r, _, s) =>
      if next.depth > 0 then s.advanceHead q
      else s.pauseOnError q (match r with | .xlate _ => 1 | .poison => 7 | _ => 8)

/-- R97: a core's fetch unit takes the queue whose turn it is, reserves a CQ entry and copies its head descriptor with the
linked list it begins. A core that is down, halted or asked to halt fetches nothing, nor does one without a free context record and
window space for the descriptor (R117): the turn then stays. -/
def execDescriptorFetch (core : Nat) (reads : List Ext) (s : State) : Result :=
  if !s.coreUp core || s.bitF .CUE_DBG_CTRL_HALT_REQ core || s.bitF .CUE_DBG_CTRL_HALTED core then .next s
  else match s.turn core with
    | none => .next s
    | some q =>
      let t := s.fetchQueue q reads
      if (t.qx q).fetched = (s.qx q).fetched then .next t
      else
        let x := t.core core
        .next (t.setCore core (if s.bitF .QCX_CFG_LC_OK q then { x with rrLast := q } else { x with rrBe := q, lcTurns := 0 }))

/-- Return to its ring what was fetched and not admitted (R73): HEAD moves back to the first slot of it, and a list that had been
admitted in part goes on from its first descriptor not admitted. -/
def State.unfetch (s : State) (q : Nat) : State :=
  let x := s.qx q
  let k := x.fetched.length
  match x.fetched with
  | [] => s.setQx q { x with chain := x.chain.map (fun n => { n with body := none }) }
  | d :: _ =>
    let s := s.setF .QCX_SQ_PTRS_HEAD q d.slot
    let s := s.setF .QCX_CNT_COUNT (q * 5) (s.getF .QCX_CNT_COUNT (q * 5) + 2 ^ 32 - k)
    s.setQx q { x with
      fetched := [], reserved := x.reserved - k, readyAt := none, chain := if d.depth = 0 then none else some ⟨d.va, d.depth, none⟩ }

end Sys2Proof.Machine
end

