-- ==== Sys2Proof/Machine/Quota.lean ====
section
/-!
DEFINITION. What the manager's operations may be refused for (chapters 06, 13): the resources of a slice, the shares of R333 and the
room of the cast store. Admission asks for it before it commits (R71, R72), and the operation asks again when it runs.
-/

namespace Sys2Proof.Machine

/-! ### States and items of a slice (R329) -/

/-- SLC_STATE.STATE. -/
def State.slcState (s : State) (slice : Nat) : Nat := s.getF .SLC_STATE_STATE slice
/-- Write SLC_STATE.STATE. -/
def State.setSlc (s : State) (slice v : Nat) : State := s.setF .SLC_STATE_STATE slice v

/-- A slice's items that have been accepted and have not ended; those of a destroyed queue count as ended (Table 4-13). -/
def State.openItems (s : State) (slice : Nat) : List (Nat × Item) :=
  s.itemsWhere (fun (x : Item) => x.slice == slice && !x.step && s.qState x.queue != 4)

/-! ### The block of Table 13-3 and the resources of a slice (R330, R331, R333) -/

/-- The block of Table 13-3 as numbers. -/
structure NewSlice where
  id : Nat
  floor : Nat
  secs : Nat
  queues : Nat
  part : Nat
  shares : List Nat
  ports : Nat
  mib : Nat
  frames : Nat
  host : Nat
  node : Nat
  rkey : Nat
deriving DecidableEq, Repr

/-- Read the fields of Table 13-3. -/
def NewSlice.parse (b : List Byte) : NewSlice :=
  ⟨fieldLE b 0 2, fieldLE b 2 2, fieldLE b 4 1, fieldLE b 6 1, fieldLE b 7 1, (List.range 8).map (fun k => fieldLE b (8 + k) 1),
    fieldLE b 0x10 8, fieldLE b 0x18 4, fieldLE b 0x1C 2, fieldLE b 0x20 2, fieldLE b 0x22 2, fieldLE b 0x24 2⟩

/-- LC share of a block in a section. -/
def NewSlice.share (n : NewSlice) (k : Nat) : Nat := n.shares.getD k 0

/-- Whether a block keeps Table 13-3, its SLICE_ID being a SliceID (slice 0 has its own rule, R328). -/
def State.sliceBlockOk (s : State) (b : List Byte) : Bool :=
  let n := NewSlice.parse b
  decide (n.id < 2 ^ 12 ∧ 1 ≤ n.floor ∧ n.floor < 2 ^ 12 ∧ n.secs ≠ 0 ∧ 1 ≤ n.queues ∧ n.queues ≤ 64 ∧ n.part < 8 ∧
    n.ports < 2 ^ (8 * s.edge.build.dies) ∧ n.frames ≤ 2048 ∧ bits n.host 9 3 = 0 ∧ (n.host.testBit 15 → bits n.host 12 3 < s.edge.build.dies) ∧
    bits n.rkey 13 3 = 0) &&
    (List.range 8).all (fun k => decide (n.share k ≤ 56) && (n.secs.testBit k || n.share k == 0)) &&
    zeroAt b 5 1 && zeroAt b 0x1E 2 && zeroAt b 0x26 26

/-- Whether a virtual function is bound to a slice that is not EMPTY, other than `but`. -/
def State.vfTaken (s : State) (port vf but : Nat) : Bool :=
  (List.range 4096).any (fun i => i != but && s.slcState i != 0 && s.bitF .SLC_HOST_BOUND i && s.getF .SLC_HOST_PORT i == port &&
    s.getF .SLC_HOST_VF i == vf)

/-- Whether a node is bound to a slice that is not EMPTY, other than `but`. -/
def State.nodeTaken (s : State) (node but : Nat) : Bool :=
  node != 0xFFFF && (List.range 4096).any (fun i => i != but && s.slcState i != 0 && s.getF .SLC_NODE_NODE i == node)

/-- The FREE key slot that has been FREE longest, the lowest number on a tie (R331). -/
def State.oldestSlot (s : State) : Option Nat :=
  ((List.range 4352).drop 1).foldl (fun best k =>
    if (s.keySlot k).state ≠ .free then best
    else match best with
      | none => some k
      | some b => if (s.keySlot k).since < (s.keySlot b).since then some k else best) none

/-- Whether a key slot is FREE beside those that accepted operations have reserved (R72). -/
def State.keyLeft (s : State) : Bool :=
  decide ((s.resvs.filter (fun r => r.key)).length < ((List.range 4352).drop 1).countP (fun k => decide ((s.keySlot k).state = .free)))

/-- Whether a frame of a part is usable for a quota: in the quota area, in no slice's quota, reserved for none, and no hole (R72, R253,
R266). -/
def State.frameFree (s : State) (part f : Nat) : Bool :=
  s.quotaFrame part f && (s.holeAt (directBase part + f * 0x200000)).isNone &&
    !s.resvs.any (fun r => r.part == part && decide (r.first ≤ f ∧ f < r.first + r.frames)) &&
    !(List.range 4096).any (fun i => s.slcState i != 0 && s.getF .SLC_HOT_PART i == part &&
      decide (s.getF .SLC_HOT_FIRST i ≤ f ∧ f < s.getF .SLC_HOT_FIRST i + s.getF .SLC_HOT_COUNT i))

/-- The first frame of the lowest free run of a part's quota area; a quota of no frames starts at frame 0. -/
def State.freeRun (s : State) (part n : Nat) : Option Nat :=
  if n = 0 then some 0
  else (List.range (2049 - n)).find? (fun f => (List.range n).all (fun i => s.frameFree part (f + i)))

/-- Σ BE_FLOOR of the slices placed in a section, other than one, with what accepted operations have reserved of it (R72, R333). -/
def State.floors (s : State) (k but : Nat) : Nat :=
  ((List.range 4095).map (fun i =>
    if i + 1 = but ∨ s.slcState (i + 1) = 0 ∨ !s.bitOf .SLC_PLACE_SECTIONS (i + 1) k then 0 else s.getF .SLC_PLACE_BE_FLOOR (i + 1))).foldl (· + ·) 0 +
    (s.resvs.map (fun r => r.floors.getD k 0)).foldl (· + ·) 0

/-- Whether the sums of R333 hold with a slice at given shares and floors. -/
def State.sharesOk (s : State) (slice : Nat) (share floor : Nat → Nat) (secs : Nat) : Bool :=
  (List.range 8).all (fun k =>
    let mine := if s.slcState slice = 0 then 0 else s.lcShare slice k
    decide (s.sliceShares k - mine + share k + s.modelShares k [] ≤ s.lcCap) &&
      (!secs.testBit k || decide (s.floors k slice + floor k ≤ 64 * (64 - s.lcCap))))

/-- Why CREATE_SLICE fails for its block or the slice's state, as STATUS and REASON, in the order of R330. -/
def State.createBad (s : State) (b : List Byte) : Option (Nat × Nat) :=
  let n := NewSlice.parse b
  if !s.sliceBlockOk b then some (7, 5)
  else if n.id = 0 ∨ s.slcState n.id ≠ 0 ∨ s.slices.recScrub.contains n.id ∨
      (n.host.testBit 15 ∧ s.vfTaken (bits n.host 12 3) (bits n.host 0 9) n.id) ∨ s.nodeTaken n.node n.id then some (7, 8)
  else none

/-- What CREATE_SLICE takes of the block, where everything is there (R330, R333): a key slot, the lowest run of frames, the shares. -/
def State.createTake (s : State) (b : List Byte) : Option Resv :=
  let n := NewSlice.parse b
  if !s.keyLeft || !s.sharesOk n.id n.share (fun _ => n.floor) n.secs then none
  else (s.freeRun n.part n.frames).map (fun f =>
    { block := b, taken := true, key := true, shares := n.shares,
      floors := (List.range 8).map (fun k => if n.secs.testBit k then n.floor else 0), part := n.part, first := f, frames := n.frames, addr := 0, len := 0 })

/-! ### Resizing (R335) -/

/-- Whether a block names the slice's placement, hot-tier quota and bindings as they are. -/
def State.sameBlock (s : State) (n : NewSlice) : Bool :=
  s.getF .SLC_PLACE_SECTIONS n.id == n.secs && s.getF .SLC_HOT_PART n.id == n.part && s.getF .SLC_HOT_COUNT n.id == n.frames &&
    s.getF .SLC_HOST_BOUND n.id == bits n.host 15 1 && s.getF .SLC_HOST_PORT n.id == bits n.host 12 3 && s.getF .SLC_HOST_VF n.id == bits n.host 0 9 &&
    s.getF .SLC_NODE_NODE n.id == n.node && s.getF .SLC_NODE_RKEY n.id == n.rkey

/-- Whether a slice has open items in a section. -/
def State.itemsIn (s : State) (slice k : Nat) : Bool := (s.openItems slice).any (fun kv => secOfCore kv.2.core == k)

/-- Why RESIZE_SLICE fails for its block or the slice's state (R335): only in a compact configuration, on a BUILDING or LIVE slice. -/
def State.resizeBad (s : State) (b : List Byte) : Option (Nat × Nat) :=
  let n := NewSlice.parse b
  if s.isFull then some (7, 8)
  else if !s.sliceBlockOk b then some (7, 5)
  else if n.id = 0 ∨ (s.slcState n.id ≠ 1 ∧ s.slcState n.id ≠ 2) ∨ !s.sameBlock n ∨ n.queues < (s.sliceQueues n.id).length ∨
      n.mib < s.kvMib n.id 0 then some (7, 8)
  else none

/-- What RESIZE_SLICE adds to the sums of R333, where they hold: in each section where the slice has open items the larger of the old and the
new share counts (R335). -/
def State.resizeTake (s : State) (b : List Byte) : Option Resv :=
  let n := NewSlice.parse b
  let old (k : Nat) : Nat := if s.bitOf .SLC_PLACE_SECTIONS n.id k then s.getF .SLC_PLACE_BE_FLOOR n.id else 0
  let share (k : Nat) : Nat := if s.itemsIn n.id k then max (n.share k) (s.lcShare n.id k) else n.share k
  let floor (k : Nat) : Nat := if s.itemsIn n.id k then max n.floor (old k) else n.floor
  if s.sharesOk n.id share floor n.secs then
    some { block := b, taken := true, key := false, shares := (List.range 8).map (fun k => share k - s.lcShare n.id k),
           floors := (List.range 8).map (fun k => if n.secs.testBit k then floor k - old k else 0), part := 0, first := 0, frames := 0, addr := 0, len := 0 }
  else none

/-! ### The cast store (R152, R153) -/

/-- The KiB ranges of the store that are in use: start and length. -/
def State.storeUsed (s : State) : List (Nat × Nat) :=
  let base := s.getF .CST_STORE_BASE 0 * 0x200000
  let at_ (addr len : Nat) : Nat × Nat := ((addr - base) / 1024, storeKib len)
  s.work.casts.map (fun (kv : Nat × CastVer) => at_ kv.2.addr kv.2.len) ++
    (match s.work.castPend with | some p => [at_ p.ver.addr p.ver.len] | none => []) ++
    s.work.backends.map (fun (kv : Nat × Backend) => at_ kv.2.copyAddr kv.2.copyLen) ++
    (s.resvs.filter (fun r => r.len != 0)).map (fun r => at_ r.addr r.len)

/-- The lowest place in the store with room for `len` bytes (DESIGN CHOICE, log entry 42: the spec gives no order of places). -/
def State.storeRoom (s : State) (len : Nat) : Option Nat :=
  let n := storeKib len
  let used := s.storeUsed
  let free (k : Nat) : Bool := decide (k + n ≤ s.getF .CST_STORE_SIZE_SIZE_MIB 0 * 1024) && used.all (fun u => decide (k + n ≤ u.1 ∨ u.1 + u.2 ≤ k))
  ((0 :: used.map (fun u => u.1 + u.2)).filter free).foldl (fun b k => match b with | none => some k | some j => some (min j k)) none
    |>.map (fun k => s.getF .CST_STORE_BASE 0 * 0x200000 + 1024 * k)

/-- A place in the store for `len` bytes, for an operation with an argument block. -/
def State.storeTake (s : State) (b : List Byte) (len : Nat) : Option Resv :=
  (if len = 0 then some 0 else s.storeRoom len).map (fun a =>
    { block := b, taken := true, key := false, shares := [], floors := [], part := 0, first := 0, frames := 0, addr := a, len := len })

/-- Whether an argument block keeps Table 6-4. -/
def castArgsOk (b : List Byte) (patch : Bool) : Bool :=
  let len := fieldLE b 4 4
  zeroAt b 0x10 16 && decide (fieldLE b 2 2 < 4096) && (!patch || zeroAt b 2 2) && decide (fieldLE b 8 8 % 64 = 0) &&
    (if len = 0 then patch && zeroAt b 8 8 else true)

/-- Why REGISTER_CAST or PATCH_CAST fails before it looks for room: its argument block, the CastID's state (R152, R153). -/
def State.castBad (s : State) (b : List Byte) (patch : Bool) : Option (Nat × Nat) :=
  let cast := fieldLE b 0 2
  let len := fieldLE b 4 4
  if !castArgsOk b patch then some (7, 5)
  else if s.bitF .CST_CAST_VALID cast ≠ patch ∨ (patch ∧ len ≠ 0 ∧ (List.range 4).all (fun k => s.slotState cast k != 0)) then some (7, 8)
  else none

/-! ### The QUOTA check of a management operation (R71, R72) -/

/-- The length of a management operation's argument block, of those that QUOTA may refuse. -/
def quotaArgs (opc : Nat) : Option Nat :=
  match opc with
  | 0x80 | 0x81 => some 64
  | 0x90 | 0x91 => some 32
  | 0x98 => some 128
  | _ => none

/-- A management operation that its own checks will refuse: it reserves nothing. -/
def Resv.bare (b : List Byte) : Resv :=
  { block := b, taken := false, key := false, shares := [], floors := [], part := 0, first := 0, frames := 0, addr := 0, len := 0 }

/-- What a management operation with this argument block takes at its commit (R71, R72): nothing where the block or the state fails it, which
the operation reports when it runs; `none` where its resources are missing. -/
def State.opTake (s : State) (opc : Nat) (b : List Byte) : Option Resv :=
  match opc with
  | 0x80 => if (s.createBad b).isSome then some (.bare b) else s.createTake b
  | 0x81 => if (s.resizeBad b).isSome then some (.bare b) else s.resizeTake b
  | 0x90 => if (s.castBad b false).isSome then some (.bare b) else s.storeTake b (fieldLE b 4 4)
  | 0x91 => if (s.castBad b true).isSome then some (.bare b) else s.storeTake b (fieldLE b 4 4)
  | _ => ({ s with work := { s.work with backends := s.work.backends.del (fieldLE b 0 1) } } : State).storeTake b (fieldLE b 0x38 4)

/-- What an accepted operation uses: what its commit reserved, or, where its block or the state failed it then, what is there now, and where
nothing is there the operation ends ST_BAD_DESC, STATE, as no accepted work is refused (R72; DESIGN CHOICE, log entry 112). -/
def Item.takenOr (x : Item) (now : Option Resv) : Option Resv :=
  match x.resv with | some r => if r.taken then some r else now | none => now

/-- The QUOTA check of admission for a management operation: its argument block is read, and the operation is refused where its resources are
missing; else the commit reserves them (R72). A block that cannot be read is the operation's to report. -/
def State.opQuota (s : State) (d : Desc) (rs : List Ext) : Option (Option Resv) × State :=
  match quotaArgs d.opc with
  | none => (some none, s)
  | some n =>
    if d.argLen ≠ n ∨ d.flags.testBit 2 then (some none, s)
    else match s.readGuest 0 ⟨0, none, false⟩ d.argPtr n rs with
      | (.bytes b, _, s) => ((s.opTake d.opc b).map some, s)
      | (_, _, s) => (some none, s)

end Sys2Proof.Machine
end

