-- ==== Sys2Proof/Machine/Admit.lean ====
section
/-!
DEFINITION. Admission (R71): the descriptor checks of Table 4-3, the terms of the bound, the checks in order, and the
commit.
-/

namespace Sys2Proof.Machine

/-- Status codes of Table 4-5 that admission gives. -/
def stNoPromise : Nat := 1
/-- ST_BAD_DESC. -/
def stBadDesc : Nat := 7
/-- ST_CAST_STALE. -/
def stCastStale : Nat := 0x0C

/-! ### Descriptor checks (R83, Table 4-3) -/

/-- Manager opcodes of Table 4-2. -/
def managerOpcodes : List Nat :=
  [0x80, 0x81, 0x82, 0x83, 0x84, 0x85, 0x86, 0x88, 0x89, 0x8A, 0x8B, 0x90, 0x91, 0x98, 0xA0, 0xA1, 0xB0]

/-- The INLINE bits that an opcode's operands take (Tables 4-8, 17-4; R206, R338, R343, R345). -/
def inlineMask (opc : Nat) : Nat :=
  match opc with
  | 0x89 | 0x8A | 0x8B => 0x3FFF
  | 0x82 | 0x85 | 0x86 => 0xFFF
  | 0xA0 | 0xA1 => 0x3FF
  | 0xB0 => 0xFFFFFFFFFFFF00FF
  | _ => 0

/-- Check 3: reserved bits, and fields that must be zero for the opcode. INLINE carries arguments only where the opcode has no operands
there (R106). SEQ on an opcode other than LAUNCH is left to check 7, which names it, its reserved bits with it (DESIGN CHOICE, log entry
79). -/
def Desc.reservedOk (d : Desc) : Bool :=
  let inl := d.inl0.toNat + d.inl1.toNat * 2 ^ 64
  decide (d.flags < 8 ∧ d.cls < 4 ∧ d.rsv3 = 0 ∧ (d.opc ≠ 1 → d.cueEntry = 0) ∧ (d.opc ≠ 2 → d.castId = 0 ∧ d.castVer = 0) ∧
    d.castVer < 2 ^ 12 ∧ (d.opc = 2 → d.seq < 2 ^ 19)) &&
    ((d.flags.testBit 2 && d.opc < 0x80) || inl &&& inlineMask d.opc == inl)

/-- Check 6, the argument fields of Table 4-1. -/
def Desc.argsOk (d : Desc) : Bool :=
  decide (d.argLen ≤ 1048576 ∧ d.argPtr % 8 = 0 ∧ (d.argLen = 0 → d.argPtr = 0)) && (!d.flags.testBit 2 || d.argLen == 0)

/-- The result of the checks: the first failure, or what they read: the header of a RUN. -/
inductive Checked where
  | bad (status reason : Nat)
  | ok (hdr : Option Hdr)
deriving DecidableEq, Repr

/-- Checks 7 to 10. -/
def State.checkTail (s : State) (slice : Nat) (d : Desc) (h : Option Hdr) : Checked :=
  if d.opc ≠ 2 ∧ d.seq ≠ 0 then .bad stBadDesc 6
  else if (!d.flags.testBit 1 && d.chain != 0) || d.chainBad then .bad stBadDesc 7
  else if d.opc = 2 then
    match s.resolveCast d slice with
    | none => .bad stCastStale 0
    | some (_, v) => if v.cflags.testBit 2 ∧ d.seq % 2 ^ 16 = 0 then .bad stBadDesc 6 else .ok h
  else .ok h

/-- The checks of Table 4-3 in order, on queue `q`, with the header of a RUN as it was fetched (R147). In FENCED, queue 0 accepts only NOP,
FENCE and TOUCHSTONE (R392). -/
def State.checkDesc (s : State) (q : Nat) (d : Desc) : Checked × State :=
  let slice := s.qSlice q
  if s.blkState = stFenced ∧ q = 0 ∧ d.opc ≠ 3 ∧ d.opc ≠ 4 ∧ d.opc ≠ 0xB0 then (.bad stBadDesc 8, s)
  else if 0x80 ≤ d.opc ∧ d.opc ≤ 0xBF ∧ q ≠ 0 then (.bad 6 0, s)
  else if !((1 ≤ d.opc && d.opc ≤ 4) || managerOpcodes.contains d.opc) then (.bad stBadDesc 1, s)
  else if !d.reservedOk then (.bad stBadDesc 2, s)
  else if 2 ≤ d.cls ∨ (d.cls = 0 ∧ !s.bitF .QCX_CFG_LC_OK q) ∨ (d.cls = 1 ∧ !s.bitF .QCX_CFG_BE_OK q) then (.bad stBadDesc 3, s)
  else if bits d.allowance 30 2 = 3 then (.bad stBadDesc 4, s)
  else if !d.argsOk then (.bad stBadDesc 5, s)
  else
    let (ok, s) := s.rangeOk (s.qSec q) ⟨slice, none, false⟩ false Target.good d.argPtr d.argLen
    if !ok ∨ (d.opc = 1 ∧ d.hdr.isNone) then (.bad stBadDesc 5, s)
    else (s.checkTail slice d d.hdr, s)

/-! ### Static terms (R67, R84, R109, R338, R410) -/

/-- What admission knows of an item before its bound. -/
structure Terms where
  core : Nat
  fix : Nat
  energy : Nat
  rtrips : Nat
  bops : Nat
  wBound : Nat
  bytes : Nat
  teNeed : Nat
  meNeed : Nat
  needsTe : Bool
  windowKib : Nat
  cast : Option Nat
  model : Option Nat
  step : Bool
  zeroExec : Bool
  waitUntil : Nat
  cold : Bool
  backends : List (Nat × Nat)
  backendsOk : Bool
  resv : Option Resv
deriving DecidableEq, Repr

/-- Terms with every bound zero. -/
def Terms.zero : Terms :=
  ⟨0, 0, 0, 0, 0, 0, 0, 0, 0, false, 0, none, none, false, false, 0, false, [], true, none⟩

/-- The latest promise end among open items that satisfy a test, and among the accepted items of some queues that have ended and whose
completions wait their turn (R74, R84, R99). -/
def State.latestEnd (s : State) (p : Item → Bool) (qs : List Nat) : Nat :=
  let waiting := qs.flatMap (fun q => (s.qx q).ordered.filter (fun x => x.at_.isSome))
  waiting.foldl (fun t x => max t x.ends) ((s.itemsWhere p).foldl (fun t kv => max t (kv.2.acceptAt + kv.2.promise)) 0)

/-- W_BOUND of a backend in ns. -/
def State.wBound (s : State) (b : Nat) : Nat := (allowNs (s.getF .CST_BK_WBOUND_W_BOUND b)).getD 0

/-- The largest W_BOUND among backends that hold open operations of some queues (R170). -/
def State.wBoundOf (s : State) (qs : List Nat) : Nat :=
  (s.work.backends.filter (fun (kv : Nat × Backend) => kv.2.tokens.any (fun (t : Nat × Token) => qs.contains t.2.queue))).foldl
    (fun w kv => max w (s.wBound kv.1)) 0

/-- Reference time of a Touchstone test in ns (Table 17-3). -/
def testNs : Nat → Nat
  | 1 => 1200000 | 2 => 3600000 | 3 => 1500000 | 4 => 400000 | 5 => 6000000 | 6 => 500000 | 7 => 5000000 | 8 => 128000 | _ => 0

/-- The tests that a mask requests. -/
def testsOf (mask : Nat) : List Nat := ((List.range 8).map (· + 1)).filter (fun t => mask.testBit (t - 1))

/-- The backends that a cast names, each with the BOPs it uses. -/
def CastVer.backends (v : CastVer) : List (Nat × Nat) := (v.nodes.filter (fun n => n.kind == 2)).map (fun n => (n.backend, n.bop))

/-- Whether every backend of a cast is ACTIVE, supports its BOPs and has fewer than MAX_OPS operations reserved (R166). -/
def State.backendsOk (s : State) (v : CastVer) : Bool :=
  v.backends.all (fun p => match s.work.backends.find p.1 with
    | some b => s.getF .CST_BK_STATE_STATE p.1 == 1 && b.ops.testBit p.2 && decide (b.reserved < b.maxOps)
    | none => false)

/-- The terms of a LAUNCH. -/
def State.launchTerms (s : State) (key : Nat) (v : CastVer) : Terms :=
  { Terms.zero with
    core := v.boundCore, fix := v.boundFix, energy := v.energyRef, rtrips := v.rtrips, bops := v.backendOps,
    wBound := v.backends.foldl (fun w p => max w (s.wBound p.1)) 0, bytes := v.bytes, teNeed := v.teNeed, meNeed := v.meNeed,
    needsTe := decide (1 ≤ v.teNeed) || v.cflags.testBit 0 || v.nodes.any (fun n => n.kind == 1),
    windowKib := if v.cflags.testBit 0 then 0 else v.windowKib, cast := some key,
    model := if v.model = 0xFFFF then none else some v.model, step := v.cflags.testBit 0, cold := true,
    backends := ((v.backends.map (·.1)).foldl (fun l b => if l.contains b then l else l ++ [b]) []).map (fun b => (b, v.backendOps)), backendsOk := s.backendsOk v }

/-- The terms of a manager opcode (R106): DESTROY_QUEUE and RETIRE_SLICE include the release limit, the engine reset bound,
the largest W_BOUND and the cache walk (R109, R170, R345); TOUCHSTONE takes those of R410; the rest of a bound that the spec
does not state is open (log entry 22). -/
def State.managerTerms (s : State) (d : Desc) : Terms :=
  let inl := d.inl0.toNat
  let gen : Terms := { Terms.zero with core := Config.opcCore d.opc, fix := Config.opcFix d.opc, energy := Config.opcEnergy d.opc, bytes := Config.opcBytes d.opc }
  match d.opc with
  | 0x82 => { Terms.zero with zeroExec := true, waitUntil := s.latestEnd (fun x => x.slice == inl % 2 ^ 12 && !x.step) (s.sliceQueues (inl % 2 ^ 12)) }
  | 0x89 => { gen with core := gen.core + 1000000, fix := gen.fix + 2000000 + s.wBoundOf [inl % 2 ^ 14] }
  | 0x86 => { gen with core := gen.core + 1144000, fix := gen.fix + 2000000 + s.wBoundOf (s.sliceQueues (inl % 2 ^ 12)) }
  | 0xA0 =>
    let m := inl % 2 ^ 10
    if s.modelValid m && !s.bitF .SRV_MDL_CTRL_PINNED m then { gen with model := some m } else gen
  | 0xB0 =>
    let ts := testsOf (inl % 2 ^ 8)
    { Terms.zero with core := ts.foldl (fun a t => a + testNs t) 0, fix := (allowNs (bits inl 32 32)).getD 0, energy := 5000 * ts.length }
  | _ => gen

/-- The terms of a management operation with what it reserves. A promise of REGISTER_CAST or PATCH_CAST covers the wait for a move engine, the
copy at that engine's 500 bytes per ns, and the checks (R154), for the most nodes that an image can have, since admission does not read the
image (DESIGN CHOICE, log entry 113). -/
def Terms.withResv (t : Terms) (r : Option Resv) : Terms :=
  match r with
  | none => t
  | some v => if v.len = 0 ∨ v.block.length ≠ 32 then { t with resv := r }
    else { t with resv := r, core := t.core + 2000 + 5 * 1024 + ceilDiv v.len 500, meNeed := 1 }

/-- The terms of a checked descriptor. -/
def State.termsOf (s : State) (q : Nat) (d : Desc) (h : Option Hdr) : Terms :=
  match d.opc, h with
  | 1, some h =>
    { Terms.zero with
        core := h.core, fix := h.fix, energy := h.energy, rtrips := h.rtrips, bytes := h.bytes, teNeed := h.teNeed,
        meNeed := h.meNeed, needsTe := decide (1 ≤ h.teNeed), windowKib := h.windowKib }
  | 2, _ => match s.resolveCast d (s.qSlice q) with | some (k, v) => s.launchTerms k v | none => Terms.zero
  | 3, _ => { Terms.zero with zeroExec := true, waitUntil := s.latestEnd (fun x => x.queue == q && !x.step) [q] }
  | 4, _ => { Terms.zero with zeroExec := true }
  | _, _ => s.managerTerms d

/-! ### The serving part of a bound (R205, R210–R212, R223) -/

/-- What serving and the ledgers give an item: its waits, its group, the load it starts, and for a step request the step it
joins or reserves and its sequence. -/
structure Plan where
  tWait : Nat
  tExec : Nat
  tLoad : Nat
  group : List Nat
  load : Option Window
  joins : Option Nat
  newStep : Option Step
  seq : Option (Nat × Seq)
  newPages : List Nat
  req : Option StepReq
  noEntry : Bool
deriving DecidableEq, Repr

/-- The class of a descriptor. -/
def Desc.class_ (d : Desc) : Cls := if d.cls % 4 = 0 then .lc else .be

/-- What a step request's own checks give (R209, R210): a failing completion, or the request. -/
inductive StepCheck where
  | bad (status reason : Nat)
  | ok (r : StepReq)
deriving DecidableEq, Repr

/-- The checks of R210 on a step request with its argument block. -/
def State.stepCheck (s : State) (slice m : Nat) (d : Desc) (b : List Byte) : StepCheck :=
  let prefill := d.seq.testBit 18
  let isOpen := d.seq.testBit 16
  let tokens := fieldLE b 0 2
  let r : StepReq := ⟨tokens, fieldLE b 4 4, fieldLE b 8 8, fieldLE b 0x10 8, if prefill then tokens else 1⟩
  let sq := s.serve.seqs.find (seqKeyOf slice d.seq)
  if d.argLen ≠ 32 ∨ d.flags.testBit 2 ∨ !zeroAt b 2 2 ∨ !zeroAt b 0x18 8 ∨ r.outLen % 64 ≠ 0 ∨ r.outLen < 64 ∨ r.outLen > 65536 ∨
      r.inAddr % 64 ≠ 0 ∨ r.outAddr % 64 ≠ 0 ∨ (!prefill ∧ r.inAddr ≠ 0) then .bad stBadDesc 5
  else if d.seq % 2 ^ 16 = 0 ∨ (isOpen ∧ !prefill) ∨ (isOpen ∧ sq.isSome) ∨ (!isOpen ∧ sq.isNone) ∨
      (sq.any (fun (x : Seq) => x.model != m)) = true ∨ (prefill ∧ (tokens = 0 ∨ tokens > 2048)) ∨ (!prefill ∧ tokens ≠ 0) then
    .bad stBadDesc 6
  else if sq.any (fun (x : Seq) => x.poisoned) then .bad 4 0
  else if (match sq with | some x => x.kvLen | none => 0) + r.qLen > 131072 then .bad stBadDesc 6
  else .ok r

/-- Why a plan is refused: its reason code of Table 4-6. -/
abbrev Refused := Nat

/-- The load part of a cold request: wait, T_load, and the window of a load to start (R205); MODEL_COLD_LIMIT otherwise. -/
def State.coldPart (s : State) (m : Nat) (slice : Option Nat) (sg : Nat) : Except Refused (Nat × Nat × Option Window) :=
  if s.resident m then .ok (0, 0, none)
  else match s.serve.load with
    | some l => if l.model = m then .ok (0, l.planEnd - s.now, none) else .error 7
    | none => match s.newLoad m slice with
      | none => .error 7
      | some w =>
        let secs := (List.range w.parts).map (w.part + ·)
        .ok (s.loadStart secs - s.now, s.tLoad sg m w.parts, some w)

/-- The sections of a model as an item will find them: those it occupies, or those of the window its load takes. -/
def State.planSecs (s : State) (m : Nat) (w : Option Window) : List Nat :=
  match w with
  | some w => (List.range w.parts).map (w.part + ·)
  | none => s.modelSecs m

/-- The QUOTA check of a step request (R210), with the sequence and new pages it takes. -/
def State.stepQuota (s : State) (slice m : Nat) (d : Desc) (r : StepReq) : Except Refused (Nat × Seq × List Nat) :=
  let key := seqKeyOf slice d.seq
  let fin (sq : Seq) (n : Nat) (pages : List Nat) : Except Refused (Nat × Seq × List Nat) :=
    if slice ≠ 0 ∧ s.getF .SLC_MEMQ_MIB slice < s.kvMib slice n then .error 6
    else .ok (key, { sq with pages := sq.pages ++ pages }, pages)
  match s.serve.seqs.find key with
  | some sq =>
    let n := s.kvNeed m sq.kvLen r.qLen
    match s.kvTake sq.lcPool sq.sec n with
    | none => .error 6
    | some p => fin sq n p
  | none =>
    let mine := s.serve.seqs.filter (fun (kv : Nat × Seq) => kv.1 / 65536 == slice)
    if s.getF .SRV_SLC_CFG_SEQ_QUOTA slice ≤ mine.length ∨ 65536 ≤ s.serve.seqs.length then .error 6
    else
      let secs := if s.modelState m = 0 then (match s.window m with | some w => s.planSecs m (some w) | none => []) else s.modelSecs m
      if secs = [] then .error 7
      else match s.placeSeq m secs d.class_ with
        | none => .error 6
        | some (k, lc) =>
          let n := s.kvNeed m 0 r.qLen
          match s.kvTake lc k n with
          | none => .error 6
          | some p => fin ⟨m, k, lc, 0, [], false, false⟩ n p

/-- The step that a request joins, or the one it reserves, with the wait and T_exec (R211, R212). `base` is the instant that
waits count from: now, or the planned end of a load. -/
def State.stepPart (s : State) (slice m slot : Nat) (d : Desc) (v : CastVer) (r : StepReq) (secs : List Nat) (sg base : Nat) :
    Nat × Nat × Option Nat × Option Step × Bool :=
  let c := s.chain m
  let lc := d.class_ == Cls.lc
  let own := s.scaleRho (if slice = 0 then (1, 1) else (s.getF .SLC_PLACE_BE_FLOOR slice, 4096)) secs d.class_
  let modelRho := s.scaleRho (s.modelShare m, 64) secs d.class_
  let stepRho := if s.modelShare m = 0 then own else modelRho
  let myRho := if lc then stepRho else own
  let dur := tExec sg v.boundCore v.boundFix stepRho.1 stepRho.2
  let mine := tExec sg v.boundCore v.boundFix myRho.1 myRho.2
  let bad := (lc && s.modelShare m == 0) || myRho.1 == 0 || (secs.any (fun k => lc && decide (s.lcCap < s.sliceShares k + s.modelShares k [m] + s.modelShare m)))
  match s.joinStep m c.steps slot v.batchMax r.tokens (seqKeyOf slice d.seq) with
  | some i =>
    let st := c.steps.getD i ⟨0, 0, 0, 0, [], [], false, 0, none, [], 0⟩
    (st.startAt - base, if lc then st.duration else mine, some i, none, (lc && s.modelShare m == 0) || (!lc && myRho.1 == 0))
  | none =>
    let start := max base c.nextStart
    (start - base, if lc then dur else mine, none, some ⟨start, dur, slot, s.slotVer (slot / 4) (slot % 4), [], [], false, 0, none, [], maskOf (s.tesIn secs d.class_)⟩, bad)

/-- The plan of an item that is no step request: ledger wait, T_exec and load. -/
def State.planItem (s : State) (q : Nat) (d : Desc) (t : Terms) (sg : Nat) : Except Refused Plan :=
  let slice := s.qSlice q
  let sec := s.qSec q
  let load : Except Refused (Nat × Nat × Option Window) :=
    match t.model with
    | some m => s.coldPart m (if t.cold then some slice else none) sg
    | none => .ok (0, 0, none)
  match load with
  | .error e => .error e
  | .ok (wait, tLoad, w) =>
    let secs := match t.model with | some m => s.planSecs m w | none => [sec]
    let group := maskOf secs
    let planEnd := if w.isNone ∧ tLoad > 0 then s.now + tLoad else s.now
    let tail := s.work.tails.findD (ledgerKey slice d.class_ group) 0
    let me := if t.meNeed = 0 then 0 else s.loadStart secs
    let tWait := if t.zeroExec then t.waitUntil - s.now else max wait (max tail me - planEnd)
    let r := s.rho slice d.class_ sec t.teNeed
    let r := if t.needsTe then s.scaleRho r secs d.class_ else r
    let work := scale sg t.core + t.fix
    .ok { tWait := tWait, tExec := if t.zeroExec then 0 else tExec sg t.core t.fix r.1 r.2, tLoad := tLoad, group := secs, load := w,
          joins := none, newStep := none, seq := none, newPages := [], req := none, noEntry := decide (r.1 = 0 ∧ 0 < work ∧ !t.zeroExec) }

/-- The plan of a step request after its QUOTA check. -/
def State.planStep (s : State) (q : Nat) (d : Desc) (r : StepReq) (m key : Nat) (v : CastVer) (sg : Nat) (sq : Nat × Seq × List Nat) :
    Except Refused Plan :=
  match s.coldPart m (some (s.qSlice q)) sg with
  | .error e => .error e
  | .ok (wait, tLoad, w) =>
    let secs := s.planSecs m w
    let (tw, te, join, new, bad) := s.stepPart (s.qSlice q) m key d v r secs sg (s.now + wait + tLoad)
    .ok { tWait := wait + tw, tExec := te, tLoad := tLoad, group := secs, load := w, joins := join, newStep := new,
          seq := some (sq.1, sq.2.1), newPages := sq.2.2, req := some r, noEntry := bad }

/-! ### Windows, contexts and grants (R117, R119, R192) -/

/-- The entry state of a RUN (Table 5-5); other contexts differ as chapter 06 lays down. -/
def entryCtx (d : Desc) (slice base size rt : Nat) : Ctx :=
  let g := Vector.replicate 32 (0 : Word)
  let g := g.setIfInBounds 1 (if d.flags.testBit 2 then 0 else BitVec.ofNat 64 d.argPtr)
  let g := g.setIfInBounds 2 (BitVec.ofNat 64 d.argLen)
  let g := (g.setIfInBounds 3 d.inl0).setIfInBounds 4 d.inl1
  let g := (g.setIfInBounds 5 (BitVec.ofNat 64 d.tag)).setIfInBounds 6 (BitVec.ofNat 64 size)
  { Ctx.fresh with g := g, pc := BitVec.ofNat 64 d.cueEntry, remoteRt := rt, lsBase := base, lsSize := size, xctx := BitVec.ofNat 64 slice }

/-- The tensor engines of a list of sections that an item is granted (R68, R192, R389, R411). -/
def State.grantTes (s : State) (secs : List Nat) (c : Cls) : Nat := maskOf (s.tesIn secs c)

/-- The move engines of a list of sections that an item is granted. -/
def State.grantMes (s : State) (secs : List Nat) (c : Cls) : Nat :=
  maskOf ((secs.flatMap (fun k => (List.range 4).map (4 * k + ·))).filter (fun m =>
    !s.meOos m && !s.inReset (unitOfMe m) && !s.touchBars (unitOfMe m) c))

/-- Zero a range of a core's local store. -/
def clearStore (c : List Host.Cell) (base size : Nat) : List Host.Cell := c.filter (fun kv => decide (kv.1 < base ∨ base + size ≤ kv.1))

/-! ### The decision and the commit (R71–R73) -/

/-- The effective timeout of a descriptor on a queue, in ns (R64, R103). -/
def State.effTimeout (s : State) (q : Nat) (d : Desc) : Nat :=
  let maxB := (allowNs (s.getF .PRM_MAX_BOUND_MAX_BOUND 0)).getD 0
  let qt := if s.getF .QCX_TIMEOUT q = 0 then maxB else (allowNs (s.getF .QCX_TIMEOUT q)).getD maxB
  if d.allowance = 0 then qt else min qt ((allowNs d.allowance).getD qt)

/-- What the checks of R71 after the plan give: a refusal's reason, or the bound, the power, the links and the hold-up
reservation to commit. With no engine in service an item that needs one is refused LOAD, and ρ is scaled by those that are (R389). A request that
joins a reserved step takes no new grant (R211). -/
def State.decideBound (s : State) (q : Nat) (d : Desc) (t : Terms) (p : Plan) (sg : Nat) : Except Refused (Nat × Nat × List (Nat × Nat) × Nat) :=
  let slice := s.qSlice q
  let order := if s.bitF .QCX_CFG_IN_ORDER q then s.latestEnd (fun x => x.queue == q && !x.step) [q] - s.now else 0
  let rt := (allowNs (s.getF .PRM_REMOTE_RT_REMOTE_RT 0)).getD 0
  let b := max p.tWait order + tBlock sg + p.tExec + p.tLoad + t.rtrips * rt + t.bops * t.wBound + tDone sg
  let tes := if t.needsTe then s.grantTes p.group d.class_ else 0
  let held := (s.itemsWhere (fun (x : Item) => x.ledger)).length
  let full := !p.joins.isSome && (List.range 48).any (fun e => tes.testBit e && decide (64 ≤ s.teGrants e))
  let noEntry := d.opc ≠ 4 ∧ (65536 ≤ held ∨ (t.needsTe ∧ (tes = 0 ∨ full)))
  let links := s.linkShare slice t.bytes b
  let power := powerOf (s.energyOf t.energy) b
  let loadMw := match p.load, t.model with | some _, some m => loadPower (s.loadBytes m) p.tLoad | _, _ => 0
  let pages := if s.sliceMapsDur slice then ceilDiv t.bytes 4096 + 1 else 0
  if (allowNs (s.getF .PRM_MAX_BOUND_MAX_BOUND 0)).getD 0 < b ∨ noEntry ∨ p.noEntry ∨ !t.backendsOk then .error 1
  else if s.effTimeout q d < b then .error 5
  else if !s.linksOk links then .error 8
  else if !s.powerOk d.class_ (power + loadMw) then .error 3
  else if pages ≠ 0 ∧ !s.holdupOk pages then .error 4
  else .ok (b, power, links, pages)

/-- Count a descriptor's admission decision in its slice's waiting counters (R225). -/
def State.accountWait (s : State) (slice readyAt : Nat) : State :=
  (s.addNs .SRV_SLC_WAIT_COUNT slice (s.now - readyAt)).incF .SRV_SLC_ADMIT_COUNT slice

/-- Complete a descriptor that is not admitted; it takes the next item number of its queue's order (R83, R99). -/
def State.refuseDesc (s : State) (q : Nat) (d : Desc) (status reason : Nat) : State :=
  let n := s.work.nextItem
  let s := { s with work := { s.work with nextItem := n + 1 } }
  let s := if status = stNoPromise then s.incF .PRM_REFUSED_COUNT (reason - 1) else s
  let s := if status = stCastStale then s.incF .CST_STALE_COUNT 0 else s
  (s.countStatus q status).postCompletion q
    { num := n, at_ := none, ends := 0, deadline := none, close := none, port := none
      comp := { tag := d.tag, status := status, reason := reason, linked := d.linked, faultRef := none, result := 0, residence := 0, promise := 0,
                noIrq := d.flags.testBit 0 } }

/-- Take the commitments of an accepted step request: its step and its sequence. -/
def State.commitStep (s : State) (i m : Nat) (p : Plan) : State :=
  let s := match p.seq with
    | some (k, q) => { s with serve := { s.serve with seqs := s.serve.seqs.put k q } }
    | none => s
  let c := s.chain m
  match p.joins, p.newStep with
  | some j, _ => s.setChain m { c with steps := c.steps.modify j (fun st => { st with members := st.members ++ [i] }) }
  | none, some st =>
    s.setChain m { c with steps := c.steps ++ [{ st with members := [i] }], nextStart := st.startAt + st.duration }
  | none, none => s

/-- The commit of R71: everything is taken together, and the item is accepted now. -/
def State.commit (s : State) (q : Nat) (d : Desc) (t : Terms) (p : Plan) (sg : Nat) (dec : Nat × Nat × List (Nat × Nat) × Nat) (winBase : Nat) : State :=
  let (b, power, links, pages) := dec
  let slice := s.qSlice q
  let i := s.work.nextItem
  let core := s.itemCore q
  let group := maskOf p.group
  let rt := s.getF .PRM_REMOTE_RT_REMOTE_RT 0
  let size := t.windowKib * 1024
  let x : Item :=
    { queue := q, slice := slice, desc := d, cls := d.class_, core := core, acceptAt := s.now, promise := b, timeout := s.effTimeout q d,
      sAdm := sg, boundCore := t.core, boundFix := t.fix, energy := s.energyOf t.energy, power := power, bytes := t.bytes, loadPower := 0,
      group := group, ledger := d.opc != 4, teGrant := if t.needsTe && !t.step then s.grantTes p.group d.class_ else 0,
      meGrant := if t.meNeed = 0 then 0 else s.grantMes p.group d.class_, ctx := entryCtx d slice winBase size rt, phase := .accepted,
      started := false, winBase := winBase, winSize := size, hasWindow := t.windowKib != 0, castSlot := t.cast, model := t.model,
      step := false, runner := none, durResv := pages, links := links, bkOps := t.backends, cause := none, withdrawn := none, stopAt := none,
      doneResult := none, seqKey := p.seq.map (·.1), req := p.req, newPages := p.newPages, isOpen := d.opc == 2 && t.step && d.seq.testBit 16,
      waiting := 0, vCode := s.commitCode, rt := rt, resv := t.resv, broken := false }
  let s := match p.load, t.model with
    | some w, some m => s.commitLoad m w (if t.cold then some slice else none) sg
    | _, _ => s
  let s := s.charge slice t.bytes
  let s := s.reserveLinks links
  let s := s.setF .TMP_DUR_RESV_PAGES 0 (s.getF .TMP_DUR_RESV_PAGES 0 + pages)
  let key := ledgerKey slice d.class_ group
  let s := if t.step ∨ d.opc = 4 then s
    else { s with work := { s.work with tails := s.work.tails.put key (max (s.work.tails.findD key 0) s.now + p.tLoad + p.tExec) } }
  let s := match t.cast with
    | some k => { s with work := { s.work with casts := s.work.casts.upd k (fun v => { v with pins := v.pins + 1 }) } }
    | none => s
  let s := { s with work := { s.work with
    nextItem := i + 1, backends := s.work.backends.mapVals (fun n be =>
      { be with reserved := be.reserved + ((t.backends.filter (fun (p : Nat × Nat) => p.1 == n)).map (fun (p : Nat × Nat) => p.2)).foldl (· + ·) 0 }) } }
  let first := (s.itemsWhere (fun (y : Item) => y.slice == slice && y.cls == Cls.be && secOfCore y.core == secOfCore core)) = []
  let s := if x.cls = .be then s.startCredit (secOfCore core * 4096 + slice) first else s
  let s := s.setItem i x
  let c := s.core core
  let s := if x.hasWindow then s.setCore core { c with store := clearStore c.store winBase size } else s
  match t.step, t.model with
  | true, some m => s.commitStep i m p
  | _, _ => s

/-- A step request's argument block, where its length and flags let it be read. A block that cannot be read ends the request ST_BAD_DESC, ARG
(R210; DESIGN CHOICE, log entry 115: the rule names no outcome for a failed read). -/
def State.stepArgs (s : State) (q : Nat) (d : Desc) (rs : List Ext) : Read × State :=
  if d.argLen ≠ 32 ∨ d.flags.testBit 2 then (.bytes [], s)
  else match s.readGuest (s.qSec q) ⟨s.qSlice q, none, false⟩ d.argPtr 32 rs with
    | (r, _, s) => (r, s)

/-- The checks of R71 from telemetry to the bound, on a plan made after the QUOTA check; `none` waits for window space. -/
def State.admitRest (s : State) (q : Nat) (d : Desc) (t : Terms) (sg : Nat) (plan : Unit → Except Refused Plan) : Except Refused (Option State) :=
  let col := s.colour (s.qSlice q) t.bytes
  if col = 2 ∨ (col = 1 ∧ d.class_ = .lc) then .error 2
  else match plan () with
    | .error e => .error e
    | .ok p =>
      match s.decideBound q d t p sg with
      | .error e => .error e
      | .ok dec =>
        match (if t.windowKib = 0 then some 0 else s.windowBase (s.itemCore q) (t.windowKib * 1024)) with
        | none => .ok none
        | some base => .ok (some (s.commit q d t p sg dec base))

/-- Decide a checked descriptor: a failing status and reason, the accepted state, or a wait for window space. -/
def State.decideAdmit (s : State) (q : Nat) (d : Desc) (h : Option Hdr) (rs : List Ext) : State × Sum (Option State) (Nat × Nat) :=
  let t := s.termsOf q d h
  let sg := s.sg
  let fin (r : Except Refused (Option State)) : Sum (Option State) (Nat × Nat) :=
    match r with | .ok o => .inl o | .error e => .inr (stNoPromise, e)
  if t.step then
    match t.model, t.cast with
    | some m, some key =>
      match s.castVer key, s.stepArgs q d rs with
      | some v, (.bytes b, s) =>
        match s.stepCheck (s.qSlice q) m d b with
        | .bad st rsn => (s, .inr (st, rsn))
        | .ok r =>
          if s.edge.tlm.isNone then (s, .inr (stNoPromise, 3))
          else if s.edge.trefLostAt.isSome then (s, .inr (stNoPromise, 1))
          else match s.stepQuota (s.qSlice q) m d r with
            | .error 6 => (s, .inr (stNoPromise, 6))
            | .error e =>
              (s, fin (s.admitRest q d t sg (fun _ => .error e)))
            | .ok sq => (s, fin (s.admitRest q d t sg (fun _ => s.planStep q d r m key v sg sq)))
      | _, (_, s) => (s, .inr (stBadDesc, 5))
    | _, _ => (s, .inr (stCastStale, 0))
  else if s.edge.tlm.isNone then (s, .inr (stNoPromise, 3))
  else if s.edge.trefLostAt.isSome then (s, .inr (stNoPromise, 1))
  else match s.opQuota d rs with
    | (none, s) => (s, .inr (stNoPromise, 6))
    | (some r, s) =>
      let t := t.withResv r
      (s, fin (s.admitRest q d t sg (fun _ => s.planItem q d t sg)))

/-- The core that admits a queue's descriptors: its bound core, or c0 in Anvil mode (R161, R163). -/
def State.admitter (s : State) (q : Nat) : Nat := if s.anvil then 0 else s.getF .QCX_BIND_CORE q

/-- Whether a core may run admission: it is up and not halted, and idle or at its context's yield point (R161). -/
def State.mayAdmit (s : State) (c : Nat) : Bool :=
  s.coreUp c && !s.bitF .CUE_DBG_CTRL_HALTED c && ((s.core c).item.isNone || (s.core c).yielded)

/-- An LC item is accepted by a core: its turn counts it (R161). -/
def State.countLc (s : State) (c : Nat) (d : Desc) : State :=
  if d.class_ = .lc then s.setCore c { s.core c with lcTurns := (s.core c).lcTurns + 1 } else s

/-- R71: the oldest fetched descriptor of a queue is checked and admitted with a promise, or completes with the first failure.
Nothing is admitted while the queue is not ACTIVE, its slice is not LIVE or is resetting, its core runs a stretch, or no window space is
free (R73, R117, R161, R337); the descriptor then stays pending. -/
def execAdmission (queue : Nat) (reads : List Ext) (s : State) : Result :=
  let x := s.qx queue
  let c := s.admitter queue
  match x.fetched with
  | [] => .next s
  | d :: rest =>
    if s.qState queue ≠ 1 ∨ s.getF .SLC_STATE_STATE (s.qSlice queue) ≠ 2 ∨ s.bitF .SLC_STATE_RESETTING (s.qSlice queue) ∨ !s.mayAdmit c then .next s
    else
      let taken (s : State) : State :=
        let y := s.qx queue
        (s.setQx queue { y with fetched := rest }).accountWait (s.qSlice queue) d.fetchedAt
      match s.checkDesc queue d with
      | (.bad st r, s) => .next ((taken s).refuseDesc queue d st r)
      | (.ok h, s) =>
        match (taken s).decideAdmit queue d h reads with
        | (s', .inr (st, r)) =>
          let s' := if st = 4 ∧ d.seq.testBit 17 then s'.closeIdle (seqKeyOf (s.qSlice queue) d.seq) else s'
          .next (s'.refuseDesc queue d st r)
        | (_, .inl (some s')) => .next (s'.countLc c d)
        | (_, .inl none) => .next s

end Sys2Proof.Machine
end

