-- ==== Sys2Proof/Machine/Home.lean ====
section
/-!
DEFINITION. A home of the block (chapter 11): directory entries and their positions, tickets and stake entries, the tracker,
the actions of Table 11-6, the answers to snoops, dead declarations, and what the edge answers while the homes are closed.
-/

namespace Sys2Proof.Machine

/-! ### Directory entries (R287) -/

/-- An entry that names nobody. -/
def DirEnt.blank (home way used : Nat) : DirEnt :=
  { home := home, way := way, lost := false, sum := 3, fab := false, nptr := 0, pres := 0, owner := 0xFF, node0 := 0, node1 := 0, used := used }

/-- Whether an entry names a member as holder. -/
def DirEnt.names (e : DirEnt) : Who → Bool
  | .gateway k => e.pres.testBit k
  | .host d => e.pres.testBit (8 + d)
  | .node n => e.nptr == 3 || (decide (1 ≤ e.nptr) && e.node0 == n) || (e.nptr == 2 && e.node1 == n)
  | .fabric => e.nptr == 3
  | _ => false

/-- Whether a member is the recorded owner. -/
def DirEnt.ownedBy (e : DirEnt) : Who → Bool
  | .gateway k => e.owner == k
  | .host d => e.owner == 8 + d
  | .node n => e.owner == 16 && e.node0 == n
  | _ => false

/-- The recorded owner. -/
def DirEnt.ownerWho (e : DirEnt) : Option Who :=
  if e.owner < 8 then some (.gateway e.owner) else if e.owner < 16 then some (.host (e.owner - 8))
  else if e.owner = 16 then some (.node e.node0) else none

/-- The holders to be snooped: gateways, host ports, and nodes; beyond two nodes, all by way of the fabric gateway (R287). -/
def DirEnt.holders (e : DirEnt) : List Who :=
  ((List.range 8).filter (fun k => e.pres.testBit k)).map Who.gateway ++ ((List.range 8).filter (fun d => e.pres.testBit (8 + d))).map Who.host ++
    (match e.nptr with
     | 0 => []
     | 1 => [.node e.node0]
     | 2 => [.node e.node0, .node e.node1]
     | _ => if e.owner = 16 then [.node e.node0, .fabric] else [.fabric])

/-- The summary after a change of holders: no owner left means SHARED, no holder left means none. -/
def DirEnt.settled (e : DirEnt) : DirEnt :=
  let e := { e with fab := e.nptr != 0 }
  if e.pres = 0 ∧ e.nptr = 0 then { e with sum := 3, owner := 0xFF } else if e.owner = 0xFF then { e with sum := 0 } else e

/-- Record a holder. -/
def DirEnt.add (e : DirEnt) (w : Who) : DirEnt :=
  (match w with
   | .gateway k => { e with pres := putBit e.pres k true }
   | .host d => { e with pres := putBit e.pres (8 + d) true }
   | .node n =>
     if e.names w then e
     else match e.nptr with
       | 0 => { e with node0 := n, nptr := 1 }
       | 1 => { e with node1 := n, nptr := 2 }
       | _ => { e with nptr := 3 }
   | _ => e).settled

/-- Remove a holder; beyond two nodes a single node cannot be removed. -/
def DirEnt.del (e : DirEnt) (w : Who) : DirEnt :=
  let o := if e.ownedBy w then 0xFF else e.owner
  (match w with
   | .gateway k => { e with pres := putBit e.pres k false, owner := o }
   | .host d => { e with pres := putBit e.pres (8 + d) false, owner := o }
   | .node n =>
     if e.nptr = 1 ∧ e.node0 = n then { e with nptr := 0, owner := o }
     else if e.nptr = 2 ∧ e.node0 = n then { e with nptr := 1, node0 := e.node1, owner := o }
     else if e.nptr = 2 ∧ e.node1 = n then { e with nptr := 1, owner := o }
     else { e with owner := o }
   | .fabric => if e.nptr = 3 then { e with nptr := if e.owner = 16 then 1 else 0 } else e
   | _ => e).settled

/-- The entry with one holder in E or M. -/
def DirEnt.exclusive (e : DirEnt) (w : Who) : DirEnt :=
  let e := (DirEnt.blank e.home e.way e.used).add w
  { e with sum := 2, owner := match w with | .gateway k => k | .host d => 8 + d | .node _ => 16 | _ => 0xFF }

/-- The owner keeps the line in S: OWNED or EXCL becomes SHARED. -/
def DirEnt.shared (e : DirEnt) : DirEnt := ({ e with owner := 0xFF }).settled

/-- A line's entry. -/
def State.ent (s : State) (line : Nat) : Option DirEnt := s.coh.dir.find line

/-- Whether a line has an open transaction. -/
def State.pinned (s : State) (line : Nat) : Bool := s.coh.txns.any (fun (kv : Nat × Txn) => kv.2.line == line && !kv.2.waiting)

/-- Write an entry; one that names nobody and is not LOST is freed, unless an open transaction pins its position (R288). -/
def State.setEnt (s : State) (line : Nat) (e : DirEnt) : State :=
  { s with coh := { s.coh with
    dir := if e.holders = [] ∧ !e.lost ∧ !s.pinned line then s.coh.dir.del line else s.coh.dir.put line { e with used := s.now } } }

/-- Free the position of a line that nobody holds, that is not LOST and that no transaction pins any more. -/
def State.freeEnt (s : State) (line : Nat) : State :=
  match s.ent line with
  | some e => if e.holders = [] ∧ !e.lost ∧ !s.pinned line then { s with coh := { s.coh with dir := s.coh.dir.del line } } else s
  | none => s

/-- Change a line's entry, if it has one. -/
def State.updEnt (s : State) (line : Nat) (f : DirEnt → DirEnt) : State :=
  match s.ent line with
  | some e => s.setEnt line (f e)
  | none => s

/-- Number of a member or node in the list of barred members. -/
def memberCode : Who → Nat
  | .gateway k | .uncached k => k
  | .host d => 8 + d
  | .core c => 64 + c
  | .fabric => 128
  | .node n => 1024 + n

/-- Whether a home has barred a member (R294). -/
def State.barredAt (s : State) (home : Nat) (w : Who) : Bool := s.coh.barred.contains (home * 2 ^ 20 + memberCode w)

/-! ### Messages of the home (R275, R66) -/

/-- The number of a line in the tables of members: its number in this node's map, or 2⁵⁸ and more for a line homed elsewhere. -/
def State.lid (s : State) (addr : Nat) : Nat := if s.ownsAddr addr then bits addr 6 42 else 2 ^ 58 + addr / 64
/-- Whether a line number is of a line homed in this block. -/
def localLid (l : Nat) : Bool := decide (l < 2 ^ 58)

/-- Offset of the line that a message names. -/
def offOf (m : Msg) : Nat := bits m.addr 6 42 * 64
/-- Number of the line that a message names, in the node's map. -/
def lineOf (m : Msg) : Nat := bits m.addr 6 42

/-- An answer to a request: it carries the request's transaction number and its allowance with what came off it (R66); on a link the
egress rounds it up to a whole µs for a node bound to a slice (Table 15-6). -/
def State.answer (s : State) (r : Msg) (arrived : Nat) (k : MsgKind) : Msg :=
  { s.mkMsg k r.srcNode r.addr with txn := r.txn, key := r.key, lc := r.lc, allow := r.allow, late := r.late + (s.now - arrived) }

/-- Refuse a request with a STATUS and a REASON of Tables 4-5 and 4-6. -/
def State.refuseMsg (s : State) (r : Msg) (arrived status reason : Nat) : State :=
  s.tell r.src { s.answer r arrived .refuse with aux := status * 256 + reason }

/-- Whether a slice of this block is bound to a node (R285, Table 15-6). -/
def State.boundNode (s : State) (n : Nat) : Bool := (List.range 4096).any (fun i => s.getF .SLC_NODE_NODE i == n && s.getF .SLC_STATE_STATE i != 0)

/-- A time in ns as a RETRY for a requester: whole µs for a node bound to a slice (R320). -/
def State.retryFor (s : State) (w : Who) (ns : Nat) : Nat :=
  match w with
  | .node n => if n ≠ 0xFFFF ∧ s.boundNode n then 2 ^ 30 + min (ceilDiv ns 1000) (2 ^ 30 - 1) else encodeUp ns
  | _ => encodeUp ns

/-! ### Tickets and stake entries (R283–R285) -/

/-- The key of a ticket of a home. -/
def ticketKey (home t : Nat) : Nat := home * 2 ^ 32 + t

/-- Tracker entries of a home in use by requests: general, or stake entries with the tickets assigned one. -/
def State.trackerUse (s : State) (home : Nat) (stake : Bool) : Nat :=
  (s.coh.txns.filter (fun (kv : Nat × Txn) => kv.2.home == home && kv.2.stake == stake && kv.2.kind != .snpInv && kv.2.kind != .snpShr)).length +
    (if stake then (s.coh.tickets.filter (fun (kv : Nat × Ticket) => kv.1 / 2 ^ 32 == home && kv.2.assigned.isSome)).length else 0)

/-- The oldest ticket of a home that waits for an entry, of those that satisfy a test: tickets compare modulo 2³² (R283). -/
def State.oldestTicket (s : State) (home : Nat) (may : Ticket → Bool) : Option Nat :=
  let next := s.getF .COH_HOME_NEXT_TICKET home
  let age (t : Nat) : Nat := (next + 2 ^ 32 - t % 2 ^ 32) % 2 ^ 32
  (s.coh.tickets.filter (fun (kv : Nat × Ticket) => kv.1 / 2 ^ 32 == home && kv.2.assigned.isNone && may kv.2)).foldl
    (fun best kv => match best with
      | none => some kv.1
      | some b => if age b < age kv.1 then some kv.1 else some b) none

/-- Assign free stake entries to a home's tickets that may have one now, oldest first (R284); an entry free since `free` goes to a ticket at that time,
or when the ticket may first have one (R285). -/
def State.assignStakes (s : State) (home free : Nat) : Nat → State
  | 0 => s
  | fuel + 1 =>
    if 128 ≤ s.trackerUse home true then s
    else match s.oldestTicket home (fun t => decide (t.notBefore ≤ s.now)) with
      | some t =>
        let give (x : Ticket) : Ticket := { x with assigned := some (max free x.notBefore) }
        { s with coh := { s.coh with tickets := s.coh.tickets.upd t give } }.assignStakes home free fuel
      | none => s

/-- The entries of a home that have stayed free go to the tickets that have come to their time. -/
def State.stakesDue (s : State) (home : Nat) : State := s.assignStakes home 0 128

/-- A change that frees an entry of a home: it goes to the oldest ticket now (R284). -/
def State.freeStakes (s : State) (home : Nat) (f : State → State) : State := (f (s.stakesDue home)).assignStakes home s.now 128

/-- Draw a ticket of a home for a requester; 0 stands for none, so the counter passes over it (R275, R283). -/
def State.drawTicket (s : State) (home : Nat) (w : Who) (notBefore : Nat) : Nat × State :=
  let n := s.getF .COH_HOME_NEXT_TICKET home
  let t := if n = 0 then 1 else n
  let s := s.setF .COH_HOME_NEXT_TICKET home (t + 1)
  let s := { s with coh := { s.coh with tickets := s.coh.tickets.put (ticketKey home t) ⟨w, none, notBefore⟩ } }
  (t, s.stakesDue home)

/-- Whether a message belongs to a read of an uncached requester of the block, and with what tag: its transaction number is above those of
messages. -/
def tagOf (m : Msg) : Option Nat := match m.src with | .uncached _ => if 2 ^ 16 ≤ m.txn then some (m.txn - 2 ^ 16) else none | _ => none

/-- Answer a requester: an uncached one of the block keeps the line that it is given (R271). -/
def State.give (s : State) (r m : Msg) : State :=
  match tagOf r with
  | some t => { s with coh := { s.coh with curs := s.coh.curs.put (curKey t (lineOf r)) ⟨0, 0, some (m.data, m.poison)⟩ } }
  | none => s.tell r.src m

/-- Send NACK_STAKE with a ticket and a RETRY in ns, and count it; an uncached requester of the block keeps the ticket. -/
def State.nackWith (s : State) (r : Msg) (arrived home t retry : Nat) : State :=
  let s := s.incF .COH_HOME_NACK_COUNT home
  match tagOf r with
  | some g => { s with coh := { s.coh with curs := s.coh.curs.put (curKey g (lineOf r)) ⟨t, s.now + retry, none⟩ } }
  | none => s.tell r.src { s.answer r arrived .nackStake with ticket := t, aux := s.retryFor r.src retry }

/-- A retry time for which the spec gives no value (R283, R284): a free value, below 2³⁰ ns. -/
def State.freeRetry (s : State) : Nat × State :=
  let (w, s) := s.freeWord
  (w.toNat % 2 ^ 30, s)

/-- NACK a request that a home cannot take, with a new ticket (R283). -/
def State.nackNew (s : State) (r : Msg) (arrived home : Nat) : State :=
  let (t, s) := s.drawTicket home r.src s.now
  let (n, s) := s.freeRetry
  s.nackWith r arrived home t n

/-! ### Lines lost (R294) -/

/-- Set a line LOST: poison in memory, SNP_INV to the holders left, an entry with no holder. -/
def State.loseLine (s : State) (line : Nat) (dead : Who) : State :=
  match s.ent line with
  | none => s
  | some e =>
    let s := s.poisonLine (line * 64)
    let s := s.each (e.holders.filter (· ≠ dead)) (fun s w => s.tell w (s.mkMsg .snpInv s.node (s.gaddr (line * 64))))
    let s := s.incF .COH_HOME_LOST_COUNT e.home
    { s with coh := { s.coh with dir := s.coh.dir.put line { DirEnt.blank e.home e.way s.now with lost := true } } }

/-- Take the answer "holds nothing" of a snooped member: for the owner the line is lost when `own` (Table 11-9). -/
def State.gone (s : State) (line : Nat) (w : Who) (own : Bool) : State :=
  match s.ent line with
  | some e => if own ∧ e.ownedBy w then s.loseLine line w else s.setEnt line (e.del w)
  | none => s

/-- A member is declared dead at some homes (R293, R294): it is barred there, every entry that names it is cleared of it or
set LOST, its transactions are abandoned and snoops to it are taken as answered, and one record names the lines lost. A second
declaration has no further effect. The walk itself ends at DIRECTORY_WALK_DONE. -/
def State.declareDead (s : State) (w : Who) (homes : List Nat) : State :=
  let homes := homes.filter (fun k => !s.barredAt k w)
  let s := { s with coh := { s.coh with
    barred := s.coh.barred ++ homes.map (fun k => k * 2 ^ 20 + memberCode w), walks := (homes.filter (· < 8)).foldl addNew s.coh.walks } }
  -- transactions of the dead member: RD_OWN counts as held by it
  let mine := s.coh.txns.filter (fun (kv : Nat × Txn) => homes.contains kv.2.home && kv.2.who == w && kv.2.kind != .snpInv)
  let s := s.each mine (fun s kv =>
    let s := if !kv.2.waiting ∧ !kv.2.awaitAck ∧ kv.2.kind = MsgKind.rdOwn then s.updEnt kv.2.line (fun e => e.exclusive w) else s
    let drop (s : State) : State := { s with coh := { s.coh with txns := s.coh.txns.del kv.1 } }.freeEnt kv.2.line
    if kv.2.stake then s.freeStakes kv.2.home drop else drop s)
  let named := s.coh.dir.filter (fun (kv : Nat × DirEnt) => homes.contains kv.2.home && !kv.2.lost && kv.2.names w)
  let lost := (named.filter (fun kv => kv.2.ownedBy w)).map (·.1)
  let s := s.each named (fun s kv => s.gone kv.1 w true)
  -- what waited for an answer or for a write-back of the member goes on (Table 11-9)
  let s := { s with coh := { s.coh with txns := s.coh.txns.mapVals (fun _ t =>
    if homes.contains t.home then { t with snoops := t.snoops.filter (· ≠ w), awaitWb := t.awaitWb && !lost.contains t.line } else t) } }
  if homes = [] then s
  else s.fault { FaultRec.blank 0x000D 9 10 with
    unit := (match w with | .node n => n | _ => memberCode w), addr := (lost.headD 0) * 64, aux0 := (lost.getLastD 0) * 64, aux1 := lost.length }

/-! ### Positions (R288) -/

/-- Where a new entry can go. -/
inductive Pos where
  | way (n : Nat)
  | victim (line : Nat)
  | none
deriving DecidableEq, Repr

/-- The set of a home's directory share that a line falls in: one of 8,192 (R286). -/
def dirSet (home line : Nat) : Nat := Config.dirSet home line % 8192

/-- The set of a host port's filter that a line falls in: one of 2,048 (R272). -/
def hpfSetOf (d line : Nat) : Nat := Config.dirSet (8 + d) line % 2048

/-- The lowest number below `n` that no entry of a list uses as its way, from `base` on. -/
def freeWay (l : List (Nat × DirEnt)) (base n : Nat) : Option Nat := ((List.range n).map (base + ·)).find? (fun w => !l.any (fun kv => kv.2.way == w))

/-- The position that a line's new entry takes (R288). -/
def State.position (s : State) (home line : Nat) : Pos :=
  let mine := s.coh.dir.filter (fun (kv : Nat × DirEnt) => kv.2.home == home)
  let set := mine.filter (fun kv => decide (kv.2.way < 16) && dirSet home kv.1 == dirSet home line)
  match freeWay set 0 16 with
  | some w => .way w
  | none =>
    let loose := set.filter (fun kv => !s.pinned kv.1)
    match loose.find? (fun kv => kv.2.lost) with
    | some kv => .victim kv.1
    | none =>
      match loose.foldl (fun best kv => match best with
          | none => some kv
          | some (b : Nat × DirEnt) => if kv.2.used < b.2.used then some kv else some b) none with
      | some kv => .victim kv.1
      | none => match freeWay (mine.filter (fun kv => decide (16 ≤ kv.2.way))) 16 256 with
        | some w => .way w
        | none => .none

/-- Whether a transaction needs an entry that its line does not have. -/
def State.needsEntry (s : State) (t : Txn) : Bool := (t.kind == .rdShr || t.kind == .rdOwn || t.kind == .upg) && (s.ent t.line).isNone

/-! ### Host-holder filters (R272) -/

/-- Key of a filter entry. -/
def hpfKey (d line : Nat) : Nat := d * 2 ^ 42 + line

/-- The lines of a host port's filter that share a line's set. -/
def State.hpfOf (s : State) (d line : Nat) : List (Nat × HpfEnt) :=
  s.coh.hpf.filter (fun (kv : Nat × HpfEnt) => kv.1 / 2 ^ 42 == d && hpfSetOf d (kv.1 % 2 ^ 42) == hpfSetOf d line)

/-- Whether a line would enter a full set of a host port's filter. -/
def State.hpfFull (s : State) (d line : Nat) : Bool := (s.coh.hpf.find (hpfKey d line)).isNone && decide (16 ≤ (s.hpfOf d line).length)

/-- The line that must leave a host port's filter before a new one enters it: the least recently used of a full set. -/
def State.hpfVictim (s : State) (d line : Nat) : Option Nat :=
  if !s.hpfFull d line then none
  else
    let set := s.hpfOf d line
    (set.filter (fun kv => !s.pinned (kv.1 % 2 ^ 42))).foldl (fun best kv => match best with
      | none => some (kv.1 % 2 ^ 42)
      | some b => if kv.2.used < (match s.coh.hpf.find (hpfKey d b) with | some x => x.used | none => 0) then some (kv.1 % 2 ^ 42) else some b) none

/-- Record in the filter that a host may hold a line; `excl` for E or M. -/
def State.hpfSet (s : State) (w : Who) (line : Nat) (excl : Bool) : State :=
  match w with
  | .host d => { s with coh := { s.coh with hpf := s.coh.hpf.put (hpfKey d line) ⟨excl, s.now⟩ } }
  | _ => s

/-- Clear a line of a host's filter. -/
def State.hpfDel (s : State) (w : Who) (line : Nat) : State :=
  match w with
  | .host d => { s with coh := { s.coh with hpf := s.coh.hpf.del (hpfKey d line) } }
  | _ => s

/-! ### Transactions (R278, R280) -/

/-- Add a transaction to the tracker. -/
def State.addTxn (s : State) (t : Txn) : State :=
  { s with coh := { s.coh with txns := s.coh.txns.put s.coh.nextTxn t, nextTxn := s.coh.nextTxn + 1 } }
/-- Change a transaction. -/
def State.updTxn (s : State) (i : Nat) (f : Txn → Txn) : State := { s with coh := { s.coh with txns := s.coh.txns.upd i f } }
/-- End a transaction: its tracker entry frees, and a stake entry goes to the oldest ticket. -/
def State.endTxn (s : State) (i : Nat) (t : Txn) : State :=
  let drop (s : State) : State := { s with coh := { s.coh with txns := s.coh.txns.del i } }.freeEnt t.line
  if t.stake then s.freeStakes t.home drop else drop s

/-- The nodes that the route tables name on the level rings, other than this one. -/
def State.ringNodes (s : State) : List Nat := (s.ringEntries.map (·.1)).foldl (fun l n => if n = s.node then l else addNew l n) []

/-- The members that a snoop goes to: beyond two nodes it goes around the level rings, to every node on them (R287). -/
def State.aroundRings (s : State) (l : List Who) : List Who :=
  (l.flatMap (fun w => match w with | .fabric => s.ringNodes.map Who.node | w => [w])).eraseDups

/-- The key slot of a line's current contents: what a cache of the block holds dirty of it, else what is stored. -/
def State.lineKey (s : State) (line : Nat) : Nat :=
  match s.mem.dirty.find line with
  | some d => d.slot
  | none => ((s.mem.lines.find line).bind (fun (x : LineInfo) => x.slot)).getD 0

/-- Send a snoop of transaction `i` to a member; a node without a route is dead (Table 11-10). -/
def State.snoop (s : State) (i : Nat) (t : Txn) (k : MsgKind) (own : Bool) (w : Who) : State :=
  let m := { s.mkMsg k s.node (s.gaddr (t.line * 64)) with txn := i % 2 ^ 16, key := t.req.key, own := own }
  match w with
  | .node n => match s.send? 0xFFF { m with src := .node s.node, dst := n, addr := s.addrFor n m.addr } with
    | some s => s
    | none => s.declareDead w [t.home]
  | _ => s.tell w m

/-- Open a back-invalidation of a line, at its home, for the transaction that waits for it (R288, R272). -/
def State.backInvalidate (s : State) (line : Nat) (who : Who) (for_ : Nat) : State :=
  let home := s.homeOf (line * 64)
  let key := s.lineKey line
  let targets := match s.ent line with
    | some e => s.aroundRings (if who = .fabric then e.holders else e.holders.filter (· = who))
    | none => if who = .fabric then [] else [who]
  let t : Txn := { home := home, line := line, kind := .snpInv, who := who, req := { s.mkMsg .snpInv s.node (s.gaddr (line * 64)) with key := key },
                   reqTxn := for_, arrived := s.now, stake := false, waiting := false, snoops := targets, awaitWb := false, awaitAck := false,
                   cur := none, curPoison := false, curKey := 0, since := s.now }
  let i := s.coh.nextTxn
  let s := s.addTxn t
  s.each targets (fun s w => s.snoop i t .snpInv ((s.ent line).any (fun e => e.ownedBy w)) w)

/-- The snoop that a request causes, and whom it goes to (Table 11-6): the owner for a copy, every holder for ownership or a write, and for an
UPG the holders but the requester. -/
def snoopsOf (k : MsgKind) (who : Who) (e : DirEnt) : MsgKind × List Who :=
  match k with
  | .rdShr | .snpShr => (.snpShr, e.ownerWho.toList)
  | .rdCur | .cleanLine => (.snpCur, e.ownerWho.toList)
  | .upg => (.snpInv, e.holders.filter (· ≠ who))
  | _ => (.snpInv, e.holders)

/-- Start a waiting transaction: it takes its position, or a back-invalidation first, or is NACKed for want of one; then it
sends its snoops. -/
def State.startTxn (s : State) (i : Nat) (t : Txn) : State :=
  match (match t.who with | .host d => if t.kind = MsgKind.rdShr ∨ t.kind = MsgKind.rdOwn ∨ t.kind = MsgKind.upg then s.hpfVictim d t.line else none | _ => none) with
  | some l =>
    let d := match t.who with | .host d => d | _ => 0
    ((s.backInvalidate l t.who i).hpfDel t.who l).bumpF .COH_HPF_BINV d
  | none =>
    let go (s : State) : State :=
      let e := (s.ent t.line).getD (DirEnt.blank t.home 0 s.now)
      let kind := if t.kind = MsgKind.upg ∧ (!e.names t.who ∨ e.sum = 2 ∨ e.lost) then MsgKind.rdOwn else t.kind
      let (k, l) := if e.lost then (MsgKind.snpInv, []) else snoopsOf kind t.who e
      let l := s.aroundRings l
      let t' := { t with kind := kind, waiting := false, snoops := l, since := s.now }
      let s := s.updTxn i (fun _ => t')
      s.each l (fun s w => s.snoop i t' k (e.ownedBy w) w)
    if s.needsEntry t then
      match s.position t.home t.line with
      | .way w => go { s with coh := { s.coh with dir := s.coh.dir.put t.line (DirEnt.blank t.home w s.now) } }
      | .victim l =>
        let s := s.incF .COH_HOME_BINV_COUNT t.home
        s.backInvalidate l .fabric i
      | .none => (s.endTxn i t).nackNew t.req t.arrived t.home
    else go s

/-- Write a whole line at the home: memory holds it, and no cache of the block holds it dirty. -/
def State.homeStore (s : State) (line key : Nat) (b : List Byte) (poison : Bool) : State :=
  let s := s.storeLine (line * 64) key b poison
  { s with mem := { s.mem with dirty := s.mem.dirty.del line } }

/-- Write a whole line at the home for a transaction: the durable page it lies in becomes dirty (R247). -/
def State.homeWrite (s : State) (line key : Nat) (b : List Byte) (poison : Bool) : State :=
  (s.homeStore line key b poison).dirtyPages (line * 64) 64

/-- Whether the hold-up check refuses a store to a line now: its durable page would become dirty, and is not covered or was sent by the
flush (R243, Table 9-5). -/
def State.uncovered (s : State) (line : Nat) : Bool :=
  s.newDirty (line * 64) 64 != [] && (s.flushSent (line * 64) 64 || !s.holdupOk 1)

/-- A data field of 64 bytes. -/
def fit64 (b : List Byte) : List Byte := (b ++ List.replicate 64 0).take 64

/-- Merge bytes of a mask into a line (WR_PART). -/
def mergeMask (mask : Nat) (old new : List Byte) : List Byte :=
  (List.range 64).map (fun i => if mask.testBit i then new.getD i 0 else old.getD i 0)

/-- Whether a line lies in a hole whose data was not moved (R266). -/
def State.inHole (s : State) (line : Nat) : Bool := s.holeLost (line * 64)

/-- The current data of a transaction's line under the key slot of its request: what a holder gave, else memory; `none` for poison or LOST
(R260, R292). -/
def State.txnData (s : State) (t : Txn) : Option (List Byte) × State :=
  if t.curPoison ∨ (s.ent t.line).any (fun e => e.lost) then (none, s)
  else match t.cur with
    | some b => if t.curKey = t.req.key then (some b, s) else (let (b, s) := s.freeBytes 64; (some b, s))
    | none => match s.loadLine (t.line * 64) t.req.key with
      | (.bytes b, s) => (some b, s)
      | (.poison, s) => (none, s)

/-- Drop the data that a cache of the block no longer holds: the line is dirty outside, or clean. -/
def State.dropDirty (s : State) (line : Nat) : State := { s with mem := { s.mem with dirty := s.mem.dirty.del line, copies := s.mem.copies.del line } }

/-- A grant of E or M is on its way: the requester alone holds the line, and its ACK ends the transaction (R278, R280). -/
def State.granted (s : State) (i : Nat) (t : Txn) (m : Msg) : State :=
  let e := (s.ent t.line).getD (DirEnt.blank t.home 0 s.now)
  let s := ((s.tell t.who m).setEnt t.line (e.exclusive t.who)).dlog (t.line * 64) t.req.key
  (s.hpfSet t.who t.line true).updTxn i (fun t => { t with awaitAck := true, since := s.now })

/-- Serve a read once its snoops are answered (Table 11-6, R292). -/
def State.finishRead (s : State) (i : Nat) (t : Txn) : State :=
  let (d, s) := s.txnData t
  let ans := s.answer t.req t.arrived .data
  match d with
  | none =>
    let s := if t.curPoison then s.poisonLine (t.line * 64) else s
    (s.give t.req { ans with data := List.replicate 64 0, poison := true }).endTxn i t
  | some b =>
    let e := (s.ent t.line).getD (DirEnt.blank t.home 0 s.now)
    -- dirty data that no owner is left to answer for goes to memory
    let keepM := t.kind = MsgKind.rdOwn && t.cur.isSome
    let s := if keepM ∨ e.ownerWho.isSome then s else match t.cur with
      | some c => s.homeWrite t.line t.curKey c false
      | none => s
    match t.kind with
    | .rdCur => (s.give t.req { ans with data := b }).endTxn i t
    | .rdShr =>
      if e.holders.filter (· ≠ t.who) = [] ∧ !(e.sum = 0 ∧ e.names t.who) then s.granted i t { ans with data := b, grant := 2 }
      else (((s.tell t.who { ans with data := b, grant := 1 }).setEnt t.line (e.add t.who)).hpfSet t.who t.line false).endTxn i t
    | _ =>
      let s := s.granted i t { ans with data := b, grant := if keepM then 3 else 2 }
      match t.who with
      | .gateway _ => if keepM then s.dirtyLine (t.line * 64) t.req.key b false else s
      | _ => s.dropDirty t.line

/-- Serve a transaction whose snoops are all answered (Table 11-6). -/
def State.finishTxn (s : State) (i : Nat) (t : Txn) : State :=
  match t.kind with
  | .snpInv =>
    let s := match t.cur with
      | some b => s.homeWrite t.line t.curKey b t.curPoison
      | none => s
    let s := if t.who = .fabric then { s with coh := { s.coh with dir := s.coh.dir.del t.line } } else s.updEnt t.line (fun e => e.del t.who)
    s.endTxn i t
  | .upg =>
    s.granted i t (s.answer t.req t.arrived .gnt)
  | .wrFull =>
    if s.inHole t.line then (s.refuseMsg t.req t.arrived 4 0).endTxn i t
    else if s.uncovered t.line then (s.refuseMsg t.req t.arrived 1 4).endTxn i t
    else
      let s := (s.homeWrite t.line t.req.key (fit64 t.req.data) t.req.poison).dlog (t.line * 64) t.req.key
      let s := { s with coh := { s.coh with dir := s.coh.dir.del t.line } }
      (s.tell t.who (s.answer t.req t.arrived .cmp)).endTxn i t
  | .wrPart =>
    match s.txnData t with
    | (none, s) =>
      let s := if t.curPoison then s.poisonLine (t.line * 64) else s
      (s.refuseMsg t.req t.arrived 4 0).endTxn i t
    | (some b, s) =>
      if s.inHole t.line then (s.refuseMsg t.req t.arrived 4 0).endTxn i t
      else if s.uncovered t.line then (s.refuseMsg t.req t.arrived 1 4).endTxn i t
      else
        let s := (s.homeWrite t.line t.req.key (mergeMask t.req.mask b t.req.data) false).dlog (t.line * 64) t.req.key
        let s := { s with coh := { s.coh with dir := s.coh.dir.del t.line } }
        (s.tell t.who (s.answer t.req t.arrived .cmp)).endTxn i t
  | .snpShr =>
    -- the dirty log's own downgrade (R340): data that no owner is left to answer for goes to memory
    let s := match t.cur with
      | some b => if ((s.ent t.line).bind DirEnt.ownerWho).isNone then s.homeWrite t.line t.curKey b t.curPoison else s
      | none => s
    (if (tagOf t.req).isSome then (match s.txnData t with
      | (some b, s) => s.give t.req { s.answer t.req t.arrived .data with data := b }
      | (none, s) => s.give t.req { s.answer t.req t.arrived .data with poison := true }) else s).endTxn i t
  | .cleanLine =>
    let s := match t.cur with
      | some b => s.storeLine (t.line * 64) t.curKey b t.curPoison
      | none => s
    (s.give t.req (s.answer t.req t.arrived .cmp)).endTxn i t
  | _ => s.finishRead i t

/-- Whether a waiting transaction may start now: its line is free, it is the first in arrival order, no back-invalidation
for it is open, a stake entry's position is there (R280, R288), and a full set of a host port's filter has a line to give up (R272). -/
def State.startable (s : State) (i : Nat) (t : Txn) : Bool :=
  t.waiting && !s.pinned t.line && !s.coh.txns.any (fun (kv : Nat × Txn) => decide (kv.1 < i) && kv.2.waiting && kv.2.line == t.line) &&
    !s.coh.txns.any (fun (kv : Nat × Txn) => kv.2.kind == .snpInv && kv.2.reqTxn == i) &&
    !(t.stake && s.needsEntry t && s.position t.home t.line == .none) &&
    !(match t.who with | .host d => s.hpfFull d t.line && (s.hpfVictim d t.line).isNone | _ => false)

/-- Whether a transaction has every answer it waits for. -/
def Txn.answered (t : Txn) : Bool := !t.waiting && t.snoops.isEmpty && !t.awaitWb && !t.awaitAck

/-- Whether a transaction's end waits for coverage: a snoop's data would go to a durable page that is not covered, and can be refused to
nobody (R243; DESIGN CHOICE, log entry 97). -/
def State.waitsCover (s : State) (t : Txn) : Bool :=
  let owned := ((s.ent t.line).bind DirEnt.ownerWho).isSome
  t.cur.isSome && (match t.kind with | .snpInv => true | .snpShr | .rdCur | .rdShr => !owned | _ => false) && s.uncovered t.line

/-- Move the transactions of the homes on as far as they go. -/
def State.settle : Nat → State → State
  | 0, s => s
  | fuel + 1, s =>
    match s.coh.txns.find? (fun (kv : Nat × Txn) => decide (kv.2.home < 8) && ((kv.2.answered && !s.waitsCover kv.2) || s.startable kv.1 kv.2)) with
    | some (i, t) => State.settle fuel (if t.answered then s.finishTxn i t else s.startTxn i t)
    | none => s

/-- Steps enough for every open transaction and what it may open. -/
def State.homes (s : State) : State := s.settle (4 * s.coh.txns.length + 8)

/-! ### Arrivals while the homes are closed (R296, Table 16-7) -/

/-- Record the offset of a discarded write in the restart log (R296). -/
def State.restartNote (s : State) (off : Nat) : State :=
  if s.coh.restartLog.length < 16384 then { s with coh := { s.coh with restartLog := s.coh.restartLog ++ [off] } }
  else s.bumpF .COH_RESTART_LOG_OVERFLOW 0

/-- What the edge answers for the core (R296, Table 16-7). -/
def State.edgeAnswer (s : State) (m : Msg) : State :=
  let host : Bool := match m.src with | .host _ => true | _ => false
  match msgCls m.kind with
  | 0 =>
    if host then
      match m.kind with
      | .wrFull | .wrPart => (s.restartNote (offOf m)).tell m.src (s.answer m s.now .cmp)
      | _ => s.tell m.src { s.answer m s.now .data with data := List.replicate 64 0, poison := true }
    else s.refuseMsg m s.now 3 8
  | 1 => s.tell m.src { s.answer m s.now (if m.own then .rspLost else .rspI) with allow := 0, late := 0 }
  | 2 =>
    let s := if m.kind = MsgKind.wbDirty then s.restartNote (offOf m) else s
    s.tell m.src (s.answer m s.now .cmp)
  | _ => s

/-- Whether the edge answers coherence traffic for the core: the core is isolated (R54), or the homes are closed and no recall
window is open (R296). -/
def State.edgeAnswers (s : State) : Bool := !s.edge.pins.corePwrOk || (s.closed && s.coh.recallAt.isNone && !s.coh.reopened)

/-! ### Requests, notices and answers at the home -/

/-- The completer bound of R66 in ns: Table 11-12's gateway-to-home time at the speed guard, and the stack read of a read; that a request
which reads no stack data has no such term is DEDUCED from the worked case, which gives a read only (log entry 111). -/
def State.completerBound (s : State) (k : MsgKind) : Nat :=
  scale s.sg 95 + (match k with | .rdShr | .rdOwn | .rdCur => 110 | _ => 0)

/-- Flight term of the link on which an answer to a node leaves. -/
def State.flightTo (s : State) (n addr : Nat) : Nat :=
  match s.exitPort n addr with
  | some p => s.getF .FIL_PORT_FLIGHT_NS p
  | none => 0

/-- Accept a request into the tracker, in a general or a stake entry. -/
def State.accept (s : State) (m : Msg) (home : Nat) (stake : Bool) : State :=
  (s.addTxn { home := home, line := lineOf m, kind := m.kind, who := m.src, req := m, reqTxn := m.txn, arrived := s.now, stake := stake,
              waiting := true, snoops := [], awaitWb := false, awaitAck := false, cur := none, curPoison := false, curKey := 0, since := s.now }).homes

/-- Whether a line lies in the enabled CXL.mem range of a host port (R272). -/
def State.inHdm (s : State) (d off : Nat) : Bool :=
  s.bitF .MEM_HDM_CTRL_EN d && decide (s.getF .MEM_HDM_BASE d * 2 ^ 28 ≤ off ∧ off < (s.getF .MEM_HDM_BASE d + s.getF .MEM_HDM_CTRL_SIZE d) * 2 ^ 28)

/-- A request without the time, room or right it needs, or accepted (R66, R243, R254, R283, R284, R295). A host port is a member for the
lines of its enabled range only (R272). -/
def State.homeRequest (s : State) (m : Msg) : State :=
  let off := offOf m
  let home := s.homeOf off
  let fromNode : Bool := match m.src with | .node _ => true | _ => false
  let outside : Bool := match m.src with | .node _ | .host _ => true | _ => false
  let m := match m.src with | .host d => { m with key := s.getF .MEM_HDM_CTRL_KEY d } | _ => m
  if s.edgeAnswers then s.edgeAnswer m
  else match s.coh.recallAt with
    | some e =>
      let (t, s) := s.drawTicket home m.src e
      s.nackWith m s.now home t (e - s.now + 1)
    | none =>
      if s.barredAt home m.src then s.refuseMsg m s.now 3 5
      else match s.region off with
        | .none => s.refuseMsg m s.now 8 1
        | r =>
          if outside && !(match r with | .global | .localTo _ | .lcOf _ => true | _ => false) then s.refuseMsg m s.now 8 2
          else if (match m.src with | .host d => !s.inHdm d off | _ => false) then s.refuseMsg m s.now 8 1
          else
            match (if fromNode then (allowNs m.allow).map (· - m.late) else some (2 ^ 64)) with
            | none => (s.bumpF .PRM_REFUSED_REMOTE_EXPIRED 0).tell m.src { s.answer m s.now .expired with aux := s.node }
            | some a =>
              if a < s.completerBound m.kind + (match m.src with | .node n => s.flightTo n m.addr | _ => 0) then
                (s.bumpF .PRM_REFUSED_REMOTE_SHORT 0).refuseMsg m s.now 1 5
              else if fromNode ∧ (m.kind = MsgKind.wrFull ∨ m.kind = MsgKind.wrPart) ∧ s.uncovered (lineOf m) then s.refuseMsg m s.now 1 4
              else
                let s := s.stakesDue home
                match (if m.ticket = 0 then none else s.coh.tickets.find (ticketKey home m.ticket)) with
                | some t =>
                  if t.assigned.isSome then
                    { s with coh := { s.coh with tickets := s.coh.tickets.del (ticketKey home m.ticket) } }.accept m home true
                  else
                    let (n, s) := s.freeRetry
                    s.nackWith m s.now home m.ticket n
                | none => if s.trackerUse home false < 896 then s.accept m home false else s.nackNew m s.now home

/-- A line is snooped with SNP_SHR, behind what is open on it (R340, R341). -/
def State.addShr (s : State) (line : Nat) (req : Msg) : State :=
  s.addTxn
    { home := s.homeOf (line * 64), line := line, kind := .snpShr, who := req.src, req := req, reqTxn := 0,
      arrived := s.now, stake := false, waiting := true, snoops := [], awaitWb := false, awaitAck := false, cur := none, curPoison := false,
      curKey := 0, since := s.now }

/-- Lines of a range that a holder may have in E or M are snooped with SNP_SHR (R340). -/
def State.downgrade (s : State) (off n key : Nat) : State :=
  let lines := s.coh.dir.filter (fun (kv : Nat × DirEnt) => decide (off ≤ kv.1 * 64 ∧ kv.1 * 64 < off + n) && kv.2.sum == 2 && !kv.2.lost)
  (s.each lines (fun s kv => s.addShr kv.1 { s.mkMsg .snpShr s.node (s.gaddr (kv.1 * 64)) with key := key })).homes

/-- An uncached requester of the block asks a line's home for the current data with RD_CUR; it asks once, and again when its retry is due (R271,
R284). `kind` is CLEAN_LINE for the PST reader. -/
def State.askCur (s : State) (kind : MsgKind) (tag sec key line : Nat) : State :=
  let k := curKey tag line
  let m := { s.mkMsg kind s.node (s.gaddr (line * 64)) with src := .uncached sec, key := key, txn := 2 ^ 16 + tag }
  let ask (t : Nat) : State := ({ s with coh := { s.coh with curs := s.coh.curs.put k ⟨0, 0, none⟩ } }).homeRequest { m with ticket := t }
  match s.coh.curs.find k with
  | none => ask 0
  | some c => if c.got.isSome ∨ c.ticket = 0 ∨ s.now < c.retryAt then s else ask c.ticket

/-- The holders of a line outside the block give it up, for a write of an uncached requester (Table 11-6). -/
def State.takeLine (s : State) (line : Nat) : State :=
  if (s.outsideHeld (line * 64) 64).isEmpty || s.pinned line then s else s.backInvalidate line .fabric s.coh.nextTxn

/-- The active transaction on a line. -/
def State.activeTxn (s : State) (line : Nat) : Option (Nat × Txn) := s.coh.txns.find? (fun (kv : Nat × Txn) => kv.2.line == line && !kv.2.waiting)

/-- A write-back or eviction notice at the home: taken at once, answered CMP (R280, R289, R292, R295). -/
def State.homeNotice (s : State) (m : Msg) : State :=
  let line := lineOf m
  let home := s.homeOf (offOf m)
  let w := m.src
  let cmp := s.answer m s.now .cmp
  if s.edgeAnswers then s.edgeAnswer m
  else if s.barredAt home w then (if m.kind = MsgKind.wbDirty then { s with coh := { s.coh with discarded := s.coh.discarded + 1 } } else s)
  else
    let dirty := m.kind == MsgKind.wbDirty
    let m := match w with | .host d => { m with key := s.getF .MEM_HDM_CTRL_KEY d } | _ => m
    let fromNode : Bool := match w with | .node _ => true | _ => false
    let take (s : State) : State :=
      -- what a cache of the block wrote became durable-dirty with its store
      let put := if fromNode then s.homeWrite line m.key (fit64 m.data) m.poison else s.homeStore line m.key (fit64 m.data) m.poison
      if !dirty then s
      else if s.inHole line then { s with coh := { s.coh with discarded := s.coh.discarded + 1 } }
      else put.dlog (offOf m) m.key
    if fromNode ∧ dirty ∧ s.uncovered line then s.refuseMsg m s.now 1 4
    else if s.coh.recallAt.isSome then (take s).tell w cmp
    else match s.ent line with
      | none => s.tell w cmp
      | some e =>
        if !e.names w then s.tell w cmp
        else
          let s := take s
          let own := e.ownedBy w
          let s := s.setEnt line (if m.keep then (if own ∧ dirty then e.shared else e) else e.del w)
          let s := if m.keep then s else s.hpfDel w line
          let s := s.tell w cmp
          let s := match s.activeTxn line with
            | some (i, t) => s.updTxn i (fun t' => { t' with
                awaitWb := t.awaitWb && !own, snoops := if t.kind == MsgKind.snpInv then t.snoops.filter (· ≠ w) else t.snoops })
            | none => s
          s.homes

/-- An answer to a snoop at the home (Tables 11-5, 11-8, R279 rule 5, R295). -/
def State.homeAnswer (s : State) (m : Msg) : State :=
  let line := lineOf m
  let home := s.homeOf (offOf m)
  if s.barredAt home m.src then
    (if m.kind = MsgKind.snpData then { s with coh := { s.coh with discarded := s.coh.discarded + 1 } } else s)
  else match s.activeTxn line with
    | none => s
    | some (i, t) =>
      let w := m.src
      if !t.snoops.contains w then s
      else
        let own := (s.ent line).any (fun e => e.ownedBy w)
        let s := s.updTxn i (fun t => { t with snoops := t.snoops.filter (· ≠ w) })
        let s := match m.kind with
          | .snpData =>
            let key := match w with | .host d => s.getF .MEM_HDM_CTRL_KEY d | _ => m.key
            let s := s.updTxn i (fun t => { t with cur := some (fit64 m.data), curPoison := m.poison, curKey := key })
            match m.grant with
            | 0 => (s.updEnt line (fun e => e.del w)).hpfDel w line
            | 1 => (s.updEnt line (fun e => e.shared)).hpfSet w line false
            | 2 => s.updEnt line (fun e => { e with sum := 1 })
            | _ => s
          | .rspS =>
            if t.kind = MsgKind.rdShr ∨ t.kind = MsgKind.snpShr then (s.updEnt line (fun e => if e.ownedBy w then e.shared else e)).hpfSet w line false
            else s
          | .rspEvicting => if own then s.updTxn i (fun t => { t with awaitWb := true }) else s.updEnt line (fun e => e.del w)
          | .rspLost => s.gone line w true
          | _ => (s.updEnt line (fun e => e.del w)).hpfDel w line
        s.homes

/-- The requester's acknowledgement of a grant ends its read (R278, R280). -/
def State.homeAck (s : State) (m : Msg) : State :=
  match s.activeTxn (lineOf m) with
  | some (i, t) => if t.awaitAck ∧ t.who = m.src then (s.endTxn i t).homes else s
  | none => s

end Sys2Proof.Machine
end

