-- ==== Sys2Proof/Machine/Member.lean ====
section
/-!
DEFINITION. The members of coherence levels 0 and 1 (chapter 11): core data caches, section gateways, the fabric gateway,
what they request upward and how they answer snoops; and the commands of the chapter. Exchanges between a section cache and
the cores of its own section take place within the command that causes them (DESIGN CHOICE, log entry 30).
-/

namespace Sys2Proof.Machine

/-! ### States of lines at members (R276, R277) -/

/-- Whether this block is the home of a line that a message on a link names: its own by the node's number, or by BE_NODE in both-ends
mode (R322). -/
def State.atHome (s : State) (addr : Nat) : Bool :=
  s.ownsAddr addr || (s.edge.straps.bothEnds && addr >>> 48 == s.getF .FIL_BE_BE_NODE 0)

/-- The global address of a line number. -/
def State.lidAddr (s : State) (l : Nat) : Nat := if localLid l then s.gaddr (l * 64) else (l - 2 ^ 58) * 64

/-- State of a line at a core. -/
def State.l0 (s : State) (l c : Nat) : LState := s.coh.l0.findD (l * 64 + c) .i
/-- Set the state of a line at a core. -/
def State.setL0 (s : State) (l c : Nat) (x : LState) : State :=
  { s with coh := { s.coh with l0 := if x = .i then s.coh.l0.del (l * 64 + c) else s.coh.l0.put (l * 64 + c) x } }
/-- State of a line at a section gateway. -/
def State.l1 (s : State) (l k : Nat) : LState := s.coh.l1.findD (l * 8 + k) .i
/-- Set the state of a line at a section gateway. -/
def State.setL1 (s : State) (l k : Nat) (x : LState) : State :=
  { s with coh := { s.coh with l1 := if x = .i then s.coh.l1.del (l * 8 + k) else s.coh.l1.put (l * 8 + k) x } }

/-- A gateway's state is at least the strongest within (R279, rule 1): a core's silent M makes its section's E an M. -/
def State.l1Eff (s : State) (l k : Nat) : LState :=
  if s.l1 l k = .e ∧ (coresOfSec k).any (fun c => s.l0 l c == .m) then .m else s.l1 l k

/-- What a core's cache does on a snoop (Table 11-4). -/
def coreAfter (k : MsgKind) (x : LState) : LState :=
  match x, k with
  | .evicting, _ => .evicting
  | _, .snpInv => .i
  | .m, .snpShr | .e, .snpShr => .s
  | x, _ => x

/-- Snoop the cores of a section but one; what was dirty in a core is dirty in the section after (R276). -/
def State.snoopCores (s : State) (l k : Nat) (but : Option Nat) (kind : MsgKind) : State :=
  let eff := s.l1Eff l k
  let s := if eff = .m then s.setL1 l k .m else s
  s.each ((coresOfSec k).filter (fun c => some c ≠ but)) (fun s c => s.setL0 l c (coreAfter kind (s.l0 l c)))

/-- The data that caches of the block hold of a line under a key slot, and whether it is poisoned: dirty data, a copy of what an owner outside
the block gave, else what memory holds; data held under another slot reads as bytes that the spec leaves open (R260). -/
def State.cached (s : State) (l key : Nat) : List Byte × Bool × State :=
  match (s.mem.dirty.find l).orElse (fun _ => s.mem.copies.find l) with
  | some d => if d.slot = key ∨ d.poison then (d.data, d.poison, s) else (let (b, s) := s.freeBytes 64; (b, false, s))
  | none => match s.loadLine (l * 64) key with
    | (.bytes b, s) => (b, false, s)
    | (.poison, s) => (List.replicate 64 0, true, s)

/-- How a member in a state answers a snoop (Table 11-5, R279 rule 5): the answer, the resulting state it names, and the
state it moves to. -/
def memberAnswer (x : LState) (kind : MsgKind) (own : Bool) : MsgKind × Nat × LState :=
  match x, kind with
  | .evicting, _ => (.rspEvicting, 0, .evicting)
  | .m, .snpShr => (.snpData, 2, .o)
  | .m, .snpInv | .o, .snpInv => (.snpData, 0, .i)
  | .m, _ => (.snpData, 3, .m)
  | .o, _ => (.snpData, 2, .o)
  | .e, .snpShr => (.rspS, 0, .s)
  | .e, .snpInv => (.rspI, 0, .i)
  | .e, _ => (.rspS, 0, .e)
  | .s, .snpInv => (if own then .rspLost else .rspI, 0, .i)
  | .s, _ => (if own then .rspLost else .rspS, 0, .s)
  | .i, _ => (if own then .rspLost else .rspI, 0, .i)

/-- A section gateway takes a snoop from above: its cores first, then its own state (R279, rule 3). -/
def State.snoopSection (s : State) (l k : Nat) (kind : MsgKind) (own : Bool) : (MsgKind × Nat) × State :=
  let x := s.l1Eff l k
  let s := s.snoopCores l k none kind
  let (a, g, y) := memberAnswer x kind own
  ((a, g), s.setL1 l k y)

/-- The answer of a snooped member as a message: with SNP_DATA the data, the key slot that its cache holds it under, and poison. -/
def State.snoopMsg (s : State) (m : Msg) (l : Nat) (a : MsgKind) (g : Nat) : Msg × State :=
  let r := { s.mkMsg a m.srcNode m.addr with txn := m.txn, key := m.key }
  if a = .snpData then
    let key := s.lineKey l
    let (b, p, s) := s.cached l key
    ({ r with key := key, data := b, poison := p, grant := g }, s)
  else (r, s)

/-- A snooped member answers. -/
def State.snoopReply (s : State) (m : Msg) (l : Nat) (a : MsgKind) (g : Nat) : State :=
  let (r, s) := s.snoopMsg m l a g
  s.tell m.src r

/-- Rank of an answer when a gateway combines those of its members: the strongest counts. -/
def answerRank : MsgKind × Nat → Nat
  | (.snpData, g) => 4 + g
  | (.rspEvicting, _) => 3
  | (.rspS, _) => 2
  | (.rspLost, _) => 0
  | _ => 1

/-! ### Alloys (R298) -/

/-- The members, beside this block, of the alloy whose gateway it is: the other block of a two-block alloy, which has the node's own
number, or the nodes whose route entries carry ALLOY. -/
def State.alloyNodes (s : State) : List Nat :=
  if s.allied then (if s.edge.straps.alloyRole = 1 then [s.node] else [])
  else ((s.ringEntries.filter (fun x => x.2.testBit 60)).map (·.1)).filter (· ≠ s.node)

/-- Whether a line is homed in the alloy. -/
def State.inAlloy (s : State) (addr : Nat) : Bool := addr >>> 48 == s.node || s.alloyNodes.contains (addr >>> 48)

/-- Open an exchange of the fabric gateway with the alloy's members but one: each that can be reached is sent a message, and its answer is
awaited. `none` when there is nobody to ask. -/
def State.askAlloy (s : State) (but : Who) (l : Nat) (kind : MsgKind) (who : Who) (req ask : Msg) : Option State :=
  let i := s.coh.nextTxn
  let (asked, s') := (s.alloyNodes.filter (fun n => Who.node n ≠ but)).foldl (fun (p : List Who × State) n =>
    match p.2.send? 0xFFF { ask with src := .node s.node, srcNode := s.node, dst := n, txn := i % 2 ^ 16 } with
    | some s => (p.1 ++ [Who.node n], s)
    | none => p) ([], s)
  if asked = [] then none
  else some (s'.addTxn
    { home := 8, line := l, kind := kind, who := who, req := req, reqTxn := req.txn, arrived := s.now, stake := false, waiting := false, snoops := asked,
      awaitWb := false, awaitAck := false, cur := none, curPoison := false, curKey := 0, since := s.now })

/-- The fabric gateway takes a snoop of another home: it broadcasts to the section gateways, and around the alloy whose gateway it is unless the
line is homed there, and combines (R279, R298). -/
def State.snoopFabric (s : State) (m : Msg) : State :=
  let l := s.lid m.addr
  let strong := (List.range 8).any (fun k => match s.l1 l k with | .m | .o | .e | .evicting => true | _ => false)
  let (ans, s) := (List.range 8).foldl (fun (p : (MsgKind × Nat) × State) k =>
    let (a, s) := p.2.snoopSection l k m.kind false
    (if answerRank p.1 < answerRank a then a else p.1, s)) ((MsgKind.rspI, 0), s)
  let (r, s) := s.snoopMsg m l (if m.own ∧ !strong then .rspLost else ans.1) ans.2
  let s := if m.kind = MsgKind.snpInv then s.dropDirty l else s
  match (if s.inAlloy m.addr then none else s.askAlloy m.src l m.kind m.src r m) with
  | some s => s
  | none => s.tell m.src r

/-- A snoop arrives at the member it names. -/
def State.snoopArrives (s : State) (m : Msg) : State :=
  let l := s.lid m.addr
  match m.src with
  | .node _ => if s.edgeAnswers then s.edgeAnswer m else s.snoopFabric m
  | .gateway k =>
    let (a, s) := s.snoopSection l k m.kind m.own
    s.snoopReply m l a.1 a.2
  | .core c =>
    let x := s.l0 l c
    let a : MsgKind := match x with
      | .m | .o => .snpData
      | .evicting => .rspEvicting
      | .i => .rspI
      | _ => if m.kind = MsgKind.snpInv then .rspI else .rspS
    let y := coreAfter m.kind x
    let s := if x = .m then s.setL1 l (secOfCore c) .m else s
    (s.setL0 l c y).snoopReply m l a (match y with | .m => 3 | .s => 1 | _ => 0)
  | _ => s

/-! ### Requests within the block (R279, rule 2) -/

/-- Key of an upward request: a section gateway's, or the fabric gateway's (8). -/
def upKey (l g : Nat) : Nat := l * 16 + g
/-- Write an upward request. -/
def State.setUp (s : State) (k : Nat) (u : UpReq) : State := { s with coh := { s.coh with ups := s.coh.ups.put k u } }
/-- Remove an upward request. -/
def State.delUp (s : State) (k : Nat) : State := { s with coh := { s.coh with ups := s.coh.ups.del k } }

/-- A request of this block for a line. -/
def State.upMsg (s : State) (kind : MsgKind) (addr ticket : Nat) (m : Msg) : Msg :=
  { s.mkMsg kind (addr >>> 48) addr with
    txn := m.txn, key := m.key, ticket := ticket, allow := m.allow, late := m.late, lc := m.lc, slice := m.slice }

/-- Requests that wait in the upward tracker of a gateway (R279, R286). -/
def State.upUse (s : State) (g : Nat) : Nat :=
  ((s.coh.ups.filter (fun (kv : Nat × UpReq) => kv.1 % 16 == g)).map (fun (kv : Nat × UpReq) => kv.2.waiters.length)).foldl (· + ·) 0

/-- Misses of a core's data cache that wait. -/
def State.misses (s : State) (c : Nat) : Nat :=
  (s.coh.ups.map (fun (kv : Nat × UpReq) => (kv.2.waiters.filter (fun (m : Msg) => m.src == .core c)).length)).foldl (· + ·) 0

/-- Whether a gateway's upward tracker has no room for a request, or the core that makes it has its most misses (Table 11-7). -/
def State.upFull (s : State) (k : Nat) (m : Msg) : Bool :=
  let g := k % 16
  decide ((if g = 8 then 2048 else 256) ≤ s.upUse g) || (match m.src with | .core c => decide (8 ≤ s.misses c) | _ => false)

/-- Wait for a line that is being requested upward; `true` when the request is new and must be sent. One that finds no room is not taken: its
requester asks again (DESIGN CHOICE, log entry 123). -/
def State.waitUp (s : State) (k : Nat) (kind : MsgKind) (m : Msg) : Bool × State :=
  if s.upFull k m then (false, s)
  else match s.coh.ups.find k with
    | some u => (false, s.setUp k { u with waiters := u.waiters ++ [m] })
    | none => (true, s.setUp k ⟨kind, m.addr, [m], m, none, 0, none, (allowNs m.allow).bind (fun a => if m.allow = 0 then none else some (s.now + (a - m.late)))⟩)

/-- A core's request at its section gateway: served within the section when its state suffices, else sent upward. -/
def State.coreRequest (s : State) (m : Msg) (c : Nat) : State :=
  let k := secOfCore c
  let l := s.lid m.addr
  let x := s.l1Eff l k
  let strong := x == .m || x == .e
  let others := (coresOfSec k).any (fun d => d != c && s.l0 l d != .i)
  let r := s.answer m s.now .data
  let up (kind : MsgKind) (s : State) : State :=
    let (new, s) := s.waitUp (upKey l k) kind m
    if new ∧ x ≠ .evicting then s.emit (.ring (.gateway k) { s.upMsg kind m.addr 0 m with src := .gateway k }) else s
  match m.kind with
  | .rdShr =>
    if x = .i ∨ x = .evicting then up .rdShr s
    else
      let s := s.snoopCores l k (some c) .snpShr
      let (b, p, s) := s.cached l m.key
      let e := strong && !others
      if p then s.tell m.src { r with data := b, poison := true }
      else (s.setL0 l c (if e then .e else .s)).tell m.src { r with data := b, grant := if e then 2 else 1 }
  | .rdOwn | .upg =>
    if !strong then up (if x = .s ∨ x = .o then .upg else .rdOwn) s
    else
      let held := s.l0 l c == .s
      let s := s.snoopCores l k (some c) .snpInv
      let (b, p, s) := s.cached l m.key
      if p then s.tell m.src { r with data := b, poison := true }
      else
        let s := s.setL0 l c .m
        if m.kind = MsgKind.upg ∧ held then s.tell m.src (s.answer m s.now .gnt) else s.tell m.src { r with data := b, grant := 3 }
  | _ => s

/-- The fabric gateway sends a request to its line's home over Filigree, and keeps the port it went out on; one that cannot be routed is
refused. -/
def State.sendUp (s : State) (m : Msg) : State :=
  let k := upKey (s.lid m.addr) 8
  let port := s.exitPort (m.addr >>> 48) m.addr
  match s.send? m.slice { s.upMsg m.kind m.addr m.ticket m with src := .node s.node, data := m.data, mask := m.mask, slice := 0xFFF } with
  | some s => { s with coh := { s.coh with ups := s.coh.ups.upd k (fun (u : UpReq) => { u with port := port }) } }
  | none =>
    match s.coh.ups.find k with
    | some u => (s.each u.waiters (fun s w => s.tell w.src { s.answer m s.now .refuse with txn := w.txn, aux := 8 * 256 + 1 })).delUp k
    | none => s

/-- A request for a line homed elsewhere at the fabric gateway: served within the block, or within the alloy whose gateway it is, when the
state there suffices, else sent to the line's home (R279, R298); for ownership as UPG when the block shares the line (Table 11-5), after a
member of the alloy that holds it in M has been looked for. -/
def State.fabricRequest (s : State) (m : Msg) : State :=
  let l := s.lid m.addr
  let me := match m.src with | .gateway k | .uncached k => k | _ => 8
  let holds (k : Nat) (strong : Bool) : Bool := k != me &&
    (match s.l1Eff l k with | .m | .e => true | .o | .s => !strong | _ => false)
  let shares := (List.range 8).any (fun k => match s.l1Eff l k with | .o | .s => true | _ => false)
  let up (s : State) : State :=
    let own := m.kind == MsgKind.rdOwn || m.kind == MsgKind.upg
    let m := { m with ticket := 0, kind := if own then (if shares then .upg else .rdOwn) else m.kind }
    let (new, s) := s.waitUp (upKey l 8) m.kind m
    if !new then s
    else if s.inAlloy m.addr then s.sendUp m
    else match m.kind with
      | .rdShr => (s.askAlloy m.src l .rdShr m.src m { s.mkMsg .snpShr s.node m.addr with key := m.key }).getD (s.sendUp m)
      | .rdCur => (s.askAlloy m.src l .rdCur m.src m { s.mkMsg .snpCur s.node m.addr with key := m.key }).getD (s.sendUp m)
      | .rdOwn | .upg => (s.askAlloy m.src l .gnt m.src m { s.mkMsg .snpCur s.node m.addr with key := m.key }).getD (s.sendUp m)
      | _ => s.sendUp m
  match m.kind with
  | .rdShr | .rdCur =>
    match (List.range 8).find? (fun k => holds k false) with
    | some k =>
      let (_, s) := s.snoopSection l k (if m.kind = MsgKind.rdShr then .snpShr else .snpCur) false
      let (b, p, s) := s.cached l m.key
      s.tell m.src { s.answer m s.now .data with data := b, poison := p, grant := if p ∨ m.kind = MsgKind.rdCur then 0 else 1 }
    | none => up s
  | .rdOwn | .upg =>
    match (List.range 8).find? (fun k => holds k true) with
    | some k =>
      let (a, s) := s.snoopSection l k .snpInv false
      let (b, p, s) := s.cached l m.key
      s.tell m.src { s.answer m s.now .data with data := b, poison := p, grant := if p then 0 else if a.1 = .snpData then 3 else 2 }
    | none => up s
  | _ => up s

/-- Whether a host port's filter records a line (R272). -/
def State.hostHolds (s : State) (d line : Nat) : Bool := (s.coh.hpf.find (hpfKey d line)).isSome

/-- A coherence request arrives at the ordering point of its requester's level (Table 11-1); a host's write of a line that it holds is a
WB_DIRTY (R272). -/
def State.requestArrives (s : State) (m : Msg) : State :=
  match m.src with
  | .core c => s.coreRequest m c
  | .gateway _ | .uncached _ => if s.ownsAddr m.addr then s.homeRequest m else s.fabricRequest m
  | .host d => if m.kind = MsgKind.wrFull ∧ s.hostHolds d (lineOf m) then s.homeNotice { m with kind := .wbDirty } else s.homeRequest m
  | .node n => if s.atHome m.addr || !s.alloyNodes.contains n then s.homeRequest m else s.fabricRequest m
  | .fabric => s

/-! ### Grants, completions and refusals at the requester -/

/-- The state that a GRANT gives. -/
def grantState : Nat → LState
  | 1 => .s
  | 2 => .e
  | 3 => .m
  | _ => .i

/-- Acknowledge a grant of E or M (R278). -/
def State.ackFor (s : State) (m : Msg) : Msg := { s.mkMsg .ack m.srcNode m.addr with txn := m.txn, key := m.key, src := m.src }

/-- Those that waited at the fabric gateway behind a request ask again, in arrival order, with all that they asked (R279). -/
def State.askAgain (s : State) (l : List Msg) : State :=
  s.each l (fun s w => match w.src with
    | .gateway _ => s.emit (.ring w.src w)
    | _ => s.fabricRequest w)

/-- The fabric gateway hands a grant to the first that waits for the line, and the others ask again, in arrival order. Ownership first takes the
line from the block's other sections, and from the other members of the alloy (R278, R279). M granted without data passes on what the block
holds to one that has no copy. -/
def State.fabricGrant (s : State) (l : Nat) (m : Msg) (g : Nat) : State :=
  match s.coh.ups.find (upKey l 8) with
  | none => s
  | some u =>
    let s := s.delUp (upKey l 8)
    match u.waiters with
    | [] => s
    | w :: rest =>
      let lost : Bool := match w.src with | .gateway k => s.l1 l k == .i | _ => true
      let (r, s) := if m.kind = MsgKind.gnt ∧ (w.kind = MsgKind.rdOwn ∨ lost) then
          let (b, p, s) := s.cached l m.key
          ({ m with kind := .data, data := b, poison := p, grant := if p then 0 else 3, txn := w.txn }, s)
        else ({ m with txn := w.txn }, s)
      let owned := decide (2 ≤ g) && !r.poison && (w.kind == MsgKind.rdOwn || w.kind == MsgKind.upg)
      let s := if owned then s.each ((List.range 8).filter (fun k => w.src ≠ Who.gateway k)) (fun s k => (s.snoopSection l k .snpInv false).2) else s
      let s := match (if owned ∧ !s.inAlloy m.addr then s.askAlloy w.src l .rdOwn w.src r { s.mkMsg .snpInv s.node m.addr with key := m.key } else none) with
        | some s => s
        | none => s.tell w.src r
      s.askAgain rest

/-- Exchanges with the alloy's members that have every answer end: the combined answer to a snoop, the data of a member or else the request
to the home, or the grant that waited for the others (R298). -/
def State.finishAlloy (s : State) (i : Nat) (t : Txn) : State :=
  let s := { s with coh := { s.coh with txns := s.coh.txns.del i } }
  match t.kind with
  | .rdShr | .rdCur =>
    match t.cur with
    | some b => s.fabricGrant t.line { s.answer t.req t.arrived .data with data := b, poison := t.curPoison, grant := if t.kind = MsgKind.rdShr then 1 else 0 } 1
    | none => s.sendUp t.req
  | .gnt =>
    match t.cur with
    | some b => s.fabricGrant t.line { s.answer t.req t.arrived .data with data := b, poison := t.curPoison, grant := if t.curPoison then 0 else 3 } 3
    | none => s.sendUp t.req
  | _ => s.tell t.who t.req

/-- End the exchanges with the alloy's members that can end. -/
def State.alloys (s : State) : State :=
  s.each (s.coh.txns.filter (fun (kv : Nat × Txn) => kv.2.home == 8 && kv.2.snoops.isEmpty)) (fun s kv => s.finishAlloy kv.1 kv.2)

/-- A member of the alloy answers: the strongest answer to a snoop counts, and what a request finds is kept (R279, rule 3). -/
def State.alloyAnswer (s : State) (m : Msg) : State :=
  let l := s.lid m.addr
  if s.barredAt 8 m.src then s
  else match s.coh.txns.find? (fun (kv : Nat × Txn) => kv.2.home == 8 && kv.2.line == l && kv.2.snoops.contains m.src) with
    | none => s
    | some (i, t) =>
      (s.updTxn i (fun t' =>
        let t' := { t' with snoops := t.snoops.filter (· ≠ m.src) }
        match t.kind with
        | .snpShr | .snpInv | .snpCur =>
          if answerRank (t.req.kind, t.req.grant) < answerRank (m.kind, m.grant) then
            { t' with req := { t.req with kind := m.kind, grant := m.grant, data := fit64 m.data, poison := m.poison } }
          else t'
        | .gnt => if m.kind = MsgKind.snpData ∧ m.grant = 3 then { t' with cur := some (fit64 m.data), curPoison := m.poison } else t'
        | _ => if m.kind = MsgKind.snpData then { t' with cur := some (fit64 m.data), curPoison := m.poison } else t')).alloys

/-- A holder evicts a line (Tables 11-4, 11-5): it sends WB_DIRTY for a dirty line, EVICT_CLEAN for a clean one, and keeps
the line in its evict buffer until CMP. -/
def State.evictLine (s : State) (w : Who) (l : Nat) : State :=
  let send (x : LState) (s : State) : State :=
    let m := { s.mkMsg (if x = .m ∨ x = .o then .wbDirty else .evictClean) (s.lidAddr l >>> 48) (s.lidAddr l) with src := w, own := x == .m || x == .e }
    if x = .m ∨ x = .o then
      let key := match s.mem.dirty.find l with | some d => d.slot | none => 0
      let (b, p, s) := s.cached l key
      s.emit (.ring w { m with data := b, poison := p, key := key })
    else s.emit (.ring w m)
  match w with
  | .core c =>
    let x := s.l0 l c
    if x = .i ∨ x = .evicting then s
    else
      let s := if x = .m then s.setL1 l (secOfCore c) .m else s
      (send x s).setL0 l c .evicting
  | .gateway k =>
    let x := s.l1Eff l k
    if x = .i ∨ x = .evicting then s else (send x (s.snoopCores l k none .snpInv)).setL1 l k .evicting
  | _ => s

/-- Whether a line is asked for by LC-partitioned work: a step run at LC, or an item of a slice that holds an LC reservation (R224). -/
def State.lcAsked (s : State) (u : UpReq) : Bool :=
  u.waiters.any (fun w => match w.src with
    | .core c => ((s.core c).item.bind s.item).any (fun (x : Item) => (x.step && x.cls == .lc) || (List.range 8).any (fun k => s.lcShare x.slice k != 0))
    | _ => false)

/-- A way of a section cache for a line that enters it: a free one of those open to the work, LC-partitioned or not, else a victim's, which is
evicted (R224); which victim is a free value. A line that is being evicted, or asked for, keeps its way. -/
def State.allocate (s : State) (l k : Nat) (lc : Bool) : State :=
  let n := if lc then 0 else s.getF .SRV_PART_LC_CWAYS 0
  let open_ := (List.range 16).filter (n ≤ ·)
  let here := s.coh.l1.filter (fun (kv : Nat × LState) =>
    kv.1 % 8 == k && kv.2 != .evicting && kv.1 / 8 != l && Config.cacheSet (kv.1 / 8) == Config.cacheSet l)
  let used := here.map (fun (kv : Nat × LState) => (kv.1 / 8, s.coh.ways.findD kv.1 16))
  let take (s : State) (w : Nat) : State := { s with coh := { s.coh with ways := s.coh.ways.put (l * 8 + k) w } }
  match open_.find? (fun w => !used.any (fun x => x.2 == w)) with
  | some w => take s w
  | none =>
    let loose := used.filter (fun x => decide (n ≤ x.2) && (s.coh.ups.find (upKey x.1 k)).isNone)
    let (r, s) := s.freeWord
    match loose[r.toNat % loose.length]? with
    | some x => take (s.evictLine (.gateway k) x.1) x.2
    | none => s

/-- What a section's cache keeps of a grant: dirty data, and data of another node's line, as the caches of the block hold it; of a line homed
here what an owner outside gave, which M without data makes dirty here, else nothing beside memory (R277). -/
def State.keepFill (s : State) (l : Nat) (m : Msg) (g : Nat) : State :=
  let drop (s : State) : State := { s with mem := { s.mem with copies := s.mem.copies.del l } }
  if m.kind = MsgKind.data then
    if g = 3 ∨ !localLid l then s.dirtyLine (l * 64) m.key (fit64 m.data) false
    else if g = 1 ∧ s.outsideOwned (l * 64) 64 then { s with mem := { s.mem with copies := s.mem.copies.put l ⟨fit64 m.data, m.key, false⟩ } }
    else drop s
  else match s.mem.copies.find l with
    | some d => s.dirtyLine (l * 64) d.slot d.data d.poison
    | none => s

/-- A grant, with data or without, arrives at the member that asked. One that a reset section asked for is given back to its home at another
node (Table 11-10). -/
def State.grantArrives (s : State) (m : Msg) (g : Nat) : State :=
  let l := s.lid m.addr
  match m.src with
  | .core c => if s.l0 l c = .i ∨ m.poison then s else s.setL0 l c (grantState g)
  | .gateway k =>
    match s.coh.ups.find (upKey l k) with
    | none =>
      if localLid l ∨ m.poison ∨ g < 2 ∨ m.kind = MsgKind.gnt then s
      else s.send { s.mkMsg (if g = 3 then .wbDirty else .evictClean) (m.addr >>> 48) m.addr with src := .node s.node, data := fit64 m.data, key := m.key }
    | some u =>
      if m.poison ∨ g = 0 then
        (s.each u.waiters (fun s w => s.emit (.ring w.src { m with src := w.src, txn := w.txn }))).delUp (upKey l k)
      else
        let s := if s.l1 l k = .i then s.allocate l k (s.lcAsked u) else s
        let s := s.setL1 l k (grantState g)
        let s := s.keepFill l m g
        let s := if 2 ≤ g then s.emit (.ring (.gateway k) (s.ackFor m)) else s
        -- the request is closed first, so that a waiter it cannot serve asks anew
        (s.delUp (upKey l k)).each u.waiters (fun s w => match w.src with
          | .core c => s.coreRequest w c
          | _ => s)
  | .node n =>
    if (s.coh.ups.find (upKey l 8)).isNone then s
    else (if 2 ≤ g ∧ !m.poison then s.send { s.ackFor m with src := .node s.node, dst := n } else s).fabricGrant l m g
  | _ => s

/-- A completion arrives at a member: an evicted line is gone, and what waited for it is asked for (Table 11-4); at the fabric gateway it
completes the write that was sent, and those that waited behind it ask again (R279). -/
def State.cmpArrives (s : State) (m : Msg) : State :=
  let l := s.lid m.addr
  match m.src with
  | .core c => if s.l0 l c = .evicting then s.setL0 l c .i else s
  | .gateway k =>
    if s.l1 l k = .evicting then
      let s := s.setL1 l k .i
      let s := if localLid l then s else s.dropDirty l
      match s.coh.ups.find (upKey l k) with
      | some u => s.emit (.ring (.gateway k) { s.upMsg u.kind u.addr 0 u.req with src := .gateway k })
      | none => s
    else s
  | .node _ =>
    let evicted : State :=
      match (List.range 8).filter (fun k => s.l1 l k == .evicting) with
      | [] => if s.inAlloy m.addr then s else s.each s.alloyNodes (fun s n => s.tell (.node n) m)
      | ks => s.each ks (fun s k => s.emit (.ring (.gateway k) { m with src := .gateway k }))
    match s.coh.ups.find (upKey l 8) with
    | some u =>
      if u.kind = MsgKind.wrFull ∨ u.kind = MsgKind.wrPart ∨ u.kind = MsgKind.cleanLine then
        match u.waiters with
        | [] => s.delUp (upKey l 8)
        | w :: rest => ((s.delUp (upKey l 8)).tell w.src { m with txn := w.txn }).askAgain rest
      else evicted
    | none => evicted
  | _ => s

/-- A refusal or an expiry arrives: the request it answers is over, and those who waited for it are told. -/
def State.failArrives (s : State) (m : Msg) : State :=
  let l := s.lid m.addr
  match (match m.src with | .gateway k => some (upKey l k) | .node _ => some (upKey l 8) | _ => none) with
  | none => s
  | some k =>
    match s.coh.ups.find k with
    | none => s
    | some u => (s.each u.waiters (fun s w => s.tell w.src { m with txn := w.txn })).delUp k

/-- A NACK_STAKE arrives: the requester keeps the ticket and retries at RETRY, and after a repeat in STAKE_LIFE_US ÷ 2 at most (R283, R284). -/
def State.nackArrives (s : State) (m : Msg) : State :=
  let l := s.lid m.addr
  match (match m.src with | .gateway k => some (upKey l k) | .node _ => some (upKey l 8) | _ => none) with
  | none => s
  | some k => { s with coh := { s.coh with ups := s.coh.ups.upd k (fun u =>
      let retry := (allowNs m.aux).getD 0
      { u with ticket := m.ticket, retryAt := some (s.now + if u.ticket = m.ticket then min retry (s.getF .COH_CTRL_STAKE_LIFE_US 0 * 500) else retry) }) } }

/-- A requester's retry of a NACKed line, when due: with its ticket, again every STAKE_LIFE_US ÷ 2 at most, until its
allowance is spent, when those who waited receive the expiry (R284). -/
def State.retryLine (s : State) (l : Nat) : State :=
  s.each (s.coh.ups.filter (fun (kv : Nat × UpReq) => kv.1 / 16 == l && kv.2.retryAt.any (fun t => decide (t ≤ s.now)))) (fun s kv =>
    let g := kv.1 % 16
    let u := kv.2
    if u.until_.any (fun t => decide (t ≤ s.now)) then
      (s.each u.waiters (fun s w => s.tell w.src { s.mkMsg .expired s.node u.addr with txn := w.txn, aux := s.node })).delUp kv.1
    else
      let late := match u.until_ with | some t => (allowNs u.req.allow).getD 0 - (t - s.now) | none => 0
      let m := { s.upMsg u.kind u.addr u.ticket u.req with late := late, data := u.req.data, mask := u.req.mask }
      let s := if g = 8 then (s.send? m.slice { m with src := .node s.node, slice := 0xFFF }).getD s
        else s.emit (.ring (.gateway g) { m with src := .gateway g })
      s.setUp kv.1 { u with port := if g = 8 then s.exitPort (u.addr >>> 48) u.addr else none,
                            retryAt := some (s.now + s.getF .COH_CTRL_STAKE_LIFE_US 0 * 500) })

/-! ### Write-backs and evictions -/

/-- A write-back or an eviction notice arrives at the ordering point of its sender's level (R279, rule 4). On the rings OWN
tells an exclusive holder's notice from a sharer's (DEDUCED, log entry 31). A host's write of a line that its filter does not record is
WR_FULL (R272). -/
def State.noticeArrives (s : State) (m : Msg) : State :=
  match m.src with
  | .core _ => s.tell m.src (s.answer m s.now .cmp)
  | .gateway k =>
    if s.ownsAddr m.addr then s.homeNotice m
    else if m.kind = MsgKind.evictClean ∧ !m.own then s.tell m.src (s.answer m s.now .cmp)
    else
      match s.send? 0xFFF { m with src := .node s.node, dst := m.addr >>> 48, own := false, keep := m.kind = MsgKind.wbDirty && !m.own } with
      | some s => s
      | none => s.tell (.gateway k) (s.answer m s.now .cmp)
  | .host d => if m.kind = MsgKind.wbDirty ∧ !s.hostHolds d (lineOf m) then s.homeRequest { m with kind := .wrFull } else s.homeNotice m
  | .node n =>
    if s.atHome m.addr || !s.alloyNodes.contains n then s.homeNotice m
    else (s.send? 0xFFF { m with src := .node s.node, srcNode := s.node, dst := m.addr >>> 48 }).getD (s.tell m.src (s.answer m s.now .cmp))
  | _ => s

/-! ### Dead members, restart and recall (R293–R297) -/

/-- The eight homes of the block. -/
def allHomes : List Nat := List.range 8

/-- A core's cache is dead: lines it may hold in M, which its section cannot tell from E, stay in the section cache, dirty and poisoned; its
other presence is cleared (Table 11-10). -/
def State.deadCore (s : State) (c : Nat) : State :=
  let mine := s.coh.l0.filter (fun (kv : Nat × LState) => kv.1 % 64 == c)
  let s := s.each (mine.filter (fun kv => kv.2 == .m || kv.2 == .e)) (fun s kv =>
    let l := kv.1 / 64
    let d := s.mem.dirty.findD l ⟨List.replicate 64 0, 0, true⟩
    (s.dirtyLine (l * 64) d.slot d.data true).setL1 l (secOfCore c) .m)
  { s with coh := { s.coh with l0 := s.coh.l0.keep (fun k _ => k % 64 != c) } }

/-- A section's gateway and caches are lost: its dirty lines become LOST at their homes, other nodes' lines are dropped
(their homes learn through RSP_LOST), and its TLB is empty. -/
def State.deadSection (s : State) (k : Nat) : State :=
  let far := s.coh.l1.filter (fun (kv : Nat × LState) => kv.1 % 8 == k && !localLid (kv.1 / 8))
  let s := s.each far (fun s kv => s.dropDirty (kv.1 / 8))
  let s := { s with
    coh := { s.coh with l0 := s.coh.l0.keep (fun i _ => secOfCore (i % 64) != k), l1 := s.coh.l1.keep (fun i _ => i % 8 != k),
                        ups := s.coh.ups.keep (fun i _ => i % 16 != k) },
    mem := { s.mem with tlb := s.mem.tlb.filter (fun t => t.sec != k) } }
  (s.declareDead (.gateway k) allHomes).homes

/-- The bar of a member ends at every home that is not walking; at a walking home it ends with the walk (R295). -/
def State.rejoinOf (s : State) (w : Who) : State :=
  s.each (List.range 9) (fun s k =>
    let c := k * 2 ^ 20 + memberCode w
    if s.coh.walks.contains k then { s with coh := { s.coh with rejoins := addNew s.coh.rejoins c } }
    else { s with coh := { s.coh with barred := s.coh.barred.filter (· ≠ c) } })

/-- The nodes that route entries with PEER name, on rings of which this block is a member (R296, Table 12-1). -/
def State.peers (s : State) : List Nat := ((s.ringEntries.filter (fun x => x.2.testBit 61)).map (·.1)).filter (· ≠ s.node)

/-- Send a management message of this node to every peer. -/
def State.tellPeers (s : State) (k : MsgKind) : State := s.each s.peers (fun s n => s.send { s.mkMsg k n (s.node * 2 ^ 48) with src := .node s.node })

/-- The window of Table 11-11 closes: peers that did not answer are barred and recorded, RECALL clears, the log's overflow
is cleared, the homes accept requests, meters are full and deficits zero (R297, R315). -/
def State.closeRecall (s : State) : State :=
  let late := s.coh.peers.filter (fun n => !s.coh.recalled.contains n)
  let s := s.each late (fun s n => { s with coh := { s.coh with barred := s.coh.barred ++ allHomes.map (fun k => k * 2 ^ 20 + memberCode (.node n)) } })
  let s := if late = [] then s else s.fault { FaultRec.blank 0x000E 0 10 with aux1 := late.length }
  { s.setF .COH_RESTART_LOG_OVERFLOW 0 0 with
    coh := { s.coh with recallAt := none, recalled := [], peers := [], reopened := true },
    fil := { s.fil with ports := s.fil.ports.mapVals (fun _ (x : Port) => { x with rounds := x.rounds.map (fun t => { t with deficit := 0 }) }) },
    slices := { s.slices with buckets := [] }, work := { s.work with deficit := [] } }

/-- Steps 1 to 3 of Table 11-11: lines of the restart log are poisoned, entries for host-held lines rebuilt from the
filters, a line that finds no position taken back from its host (R288), HOME_RESET sent to every peer, and REJOIN, since the block's caches are
empty (R295). With no peer the window closes at once. -/
def State.restartHomes (s : State) : State :=
  let s := s.each s.coh.restartLog (fun s off => (s.poisonLine off).incF .COH_HOME_LOST_COUNT (s.homeOf off))
  let s := { s with coh := { s.coh with restartLog := [] } }
  let s := s.each s.coh.hpf (fun s kv =>
    let l := kv.1 % 2 ^ 42
    let w := Who.host (kv.1 / 2 ^ 42)
    match s.ent l with
    | some e => s.setEnt l (e.add w)
    | none =>
      let home := s.homeOf (l * 64)
      let mine := s.coh.dir.filter (fun (kv : Nat × DirEnt) => kv.2.home == home)
      let way := (freeWay (mine.filter (fun kv => decide (kv.2.way < 16) && dirSet home kv.1 == dirSet home l)) 0 16).orElse
        (fun _ => freeWay (mine.filter (fun kv => decide (16 ≤ kv.2.way))) 16 256)
      match way with
      | some n =>
        let e := DirEnt.blank (s.homeOf (l * 64)) n s.now
        s.setEnt l (if kv.2.excl then e.exclusive w else e.add w)
      | none => (s.backInvalidate l w s.coh.nextTxn).hpfDel w l)
  let p := s.peers
  let s := (s.tellPeers .homeReset).tellPeers .rejoin
  let s := { s with coh := { s.coh with recallAt := some (s.now + s.getF .COH_RECALL_RECALL_MS 0 * 1000000), recalled := [], peers := p } }
  if p = [] then s.closeRecall else s

/-! ### The commands -/

/-- R278: RD_SHR. -/
def execRdShr (m : Msg) (s : State) : Result := .next (s.requestArrives { m with kind := .rdShr })
/-- R278: RD_OWN. -/
def execRdOwn (m : Msg) (s : State) : Result := .next (s.requestArrives { m with kind := .rdOwn })
/-- R278: UPG. -/
def execUpgMsg (m : Msg) (s : State) : Result := .next (s.requestArrives { m with kind := .upg })
/-- R278: RD_CUR. -/
def execRdCur (m : Msg) (s : State) : Result := .next (s.requestArrives { m with kind := .rdCur })
/-- R278: WR_FULL. -/
def execWrFull (m : Msg) (s : State) : Result := .next (s.requestArrives { m with kind := .wrFull })
/-- R278: WR_PART. -/
def execWrPart (m : Msg) (s : State) : Result := .next (s.requestArrives { m with kind := .wrPart })
/-- R278: CLEAN_LINE, which the PST reader sends before it fetches a line's ciphertext (R271). -/
def execCleanLine (m : Msg) (s : State) : Result := .next (s.requestArrives { m with kind := .cleanLine })

/-- R277: SNP_SHR at a member. -/
def execSnpShr (m : Msg) (s : State) : Result := .next (s.snoopArrives { m with kind := .snpShr })
/-- R277: SNP_INV at a member. -/
def execSnpInv (m : Msg) (s : State) : Result := .next (s.snoopArrives { m with kind := .snpInv })
/-- R277: SNP_CUR at a member. -/
def execSnpCur (m : Msg) (s : State) : Result := .next (s.snoopArrives { m with kind := .snpCur })

/-- R278: WB_DIRTY. -/
def execWbDirty (m : Msg) (s : State) : Result := .next (s.noticeArrives { m with kind := .wbDirty })
/-- R278: EVICT_CLEAN. -/
def execEvictClean (m : Msg) (s : State) : Result := .next (s.noticeArrives { m with kind := .evictClean })

/-- R278: DATA at the requester. -/
def execDataMsg (m : Msg) (s : State) : Result := .next (s.grantArrives { m with kind := .data } m.grant)
/-- R278: GNT at the requester: M without data. -/
def execGntMsg (m : Msg) (s : State) : Result := .next (s.grantArrives { m with kind := .gnt } 3)

/-- Whether an answer is for a home of the block: from a host, or from a node or a gateway for a line homed here. Answers within a section
or to the fabric gateway from its sections were taken with their snoop. -/
def State.toHome (s : State) (m : Msg) : Bool :=
  match m.src with
  | .host _ => true
  | .node _ => s.atHome m.addr
  | .gateway _ => s.ownsAddr m.addr
  | _ => false

/-- A snoop's answer is taken by its line's home, or for a line homed elsewhere by the fabric gateway that asked in its alloy. -/
def State.takeAnswer (s : State) (m : Msg) : State :=
  if s.toHome m then s.homeAnswer m
  else match m.src with
    | .node _ => s.alloyAnswer m
    | _ => s

/-- R278: SNP_DATA at the home. -/
def execSnpData (m : Msg) (s : State) : Result := .next (s.takeAnswer { m with kind := .snpData })
/-- R278: RSP_I at the home. -/
def execRspI (m : Msg) (s : State) : Result := .next (s.takeAnswer { m with kind := .rspI })
/-- R278: RSP_S at the home. -/
def execRspS (m : Msg) (s : State) : Result := .next (s.takeAnswer { m with kind := .rspS })
/-- R289: RSP_EVICTING at the home. -/
def execRspEvicting (m : Msg) (s : State) : Result := .next (s.takeAnswer { m with kind := .rspEvicting })
/-- R294: RSP_LOST at the home. -/
def execRspLost (m : Msg) (s : State) : Result := .next (s.takeAnswer { m with kind := .rspLost })

/-- R281: CMP at a member. -/
def execCmpMsg (m : Msg) (s : State) : Result := .next (s.cmpArrives { m with kind := .cmp })
/-- R280: ACK at the home. -/
def execAckMsg (m : Msg) (s : State) : Result := .next (if s.toHome m then s.homeAck m else s)

/-- R283: NACK_STAKE at the requester. -/
def execNackStake (m : Msg) (s : State) : Result := .next (s.nackArrives m)
/-- R284: the requester's retry of a line, named by its address ÷ 64. -/
def execStakeRetry (line : Nat) (s : State) : Result := .next (s.retryLine (s.lid (line * 64)))

/-- R284: an assigned stake entry that its ticket has not claimed within STAKE_LIFE_US is released; before that nothing
happens. -/
def execStakeLapse (home ticket : Nat) (s : State) : Result :=
  let k := ticketKey home ticket
  match (s.stakesDue home).coh.tickets.find k with
  | some t =>
    match t.assigned with
    | some a =>
      if a + s.getF .COH_CTRL_STAKE_LIFE_US 0 * 1000 ≤ s.now then
        .next (s.freeStakes home (fun s => { s with coh := { s.coh with tickets := s.coh.tickets.del k } }.incF .COH_HOME_LAPSE_COUNT home))
      else .next s
    | none => .next s
  | none => .next s

/-- R275: REFUSE at the requester. -/
def execRefuse (m : Msg) (s : State) : Result := .next (s.failArrives { m with kind := .refuse })
/-- R65: EXPIRED at the requester. -/
def execExpired (m : Msg) (s : State) : Result := .next (s.failArrives { m with kind := .expired })

/-- R294: a DEAD message declares the node or member that it names dead at every home; a core's cache is reclaimed by its section (Table
11-10). One from a member of the alloy is passed on to the peers outside it. -/
def execDead (m : Msg) (s : State) : Result :=
  match m.src with
  | .core c => .next (s.deadCore c)
  | .node n =>
    let s := (s.declareDead (.node (m.addr >>> 48)) allHomes).homes
    .next (if s.alloyNodes.contains n ∧ !s.allied then
      s.each (s.peers.filter (fun p => !s.alloyNodes.contains p)) (fun s p => s.send { s.mkMsg .dead p (m.addr >>> 48 * 2 ^ 48) with src := .node s.node })
    else s)
  | w => .next (s.declareDead w allHomes).homes

/-- R297: a restarting node resets its homes: what the block holds of its lines is written back or dropped, then RECALL_DONE
and REJOIN are sent (Table 11-11, step 4). -/
def execHomeReset (m : Msg) (s : State) : Result :=
  let n := m.srcNode
  let mine := s.coh.l1.filter (fun (kv : Nat × LState) => !localLid (kv.1 / 8) && s.lidAddr (kv.1 / 8) >>> 48 == n)
  let s := s.each mine (fun s kv =>
    let l := kv.1 / 8
    let k := kv.1 % 8
    let x := s.l1Eff l k
    let s := s.snoopCores l k none .snpInv
    let s :=
      if x = .m ∨ x = .o then
        let d := s.mem.dirty.findD l ⟨List.replicate 64 0, 0, true⟩
        s.send { s.mkMsg .wbDirty n (s.lidAddr l) with src := .node s.node, data := d.data, poison := d.poison, key := d.slot }
      else s
    s.setL1 l k .i)
  let s := s.each mine (fun s kv => s.dropDirty (kv.1 / 8))
  let s := s.send { s.mkMsg .recallDone n (s.node * 2 ^ 48) with src := .node s.node }
  .next (s.send { s.mkMsg .rejoin n (s.node * 2 ^ 48) with src := .node s.node })

/-- R297: a peer has written back and dropped this node's lines; when every peer has answered the window closes. -/
def execRecallDone (m : Msg) (s : State) : Result :=
  if s.coh.recallAt.isSome then
    let s := { s with coh := { s.coh with recalled := addNew s.coh.recalled m.srcNode } }
    .next (if s.coh.peers.all (fun n => s.coh.recalled.contains n) then s.closeRecall else s)
  else .next s

/-- R295: REJOIN ends a member's bar. -/
def execRejoin (m : Msg) (s : State) : Result := .next (s.rejoinOf m.src)

/-- R295: a home's walk ends, and the REJOINs that arrived during it take effect. -/
def execDirectoryWalkDone (home : Nat) (s : State) : Result :=
  let mine := s.coh.rejoins.filter (fun c => c / 2 ^ 20 == home)
  .next { s with coh := { s.coh with
    walks := s.coh.walks.filter (· ≠ home), rejoins := s.coh.rejoins.filter (fun c => c / 2 ^ 20 != home),
    barred := s.coh.barred.filter (fun c => !mine.contains c) } }

/-- R282: a snoop answer, the write-back that it announced, or an ACK is missing after SNP_LIMIT_US, at the fabric gateway after half of it: the
member addressed is declared dead at the home that waited. Before that nothing happens. -/
def execSnoopTimeout (txn : Nat) (s : State) : Result :=
  match s.coh.txns.find txn with
  | some t =>
    let late := t.snoops ++ (if t.awaitAck then [t.who] else []) ++ (if t.awaitWb then ((s.ent t.line).bind DirEnt.ownerWho).toList else [])
    if t.waiting ∨ s.now < t.since + s.getF .COH_CTRL_SNP_LIMIT_US 0 * (if t.home = 8 then 500 else 1000) then .next s
    else .next (s.each late (fun s w => s.declareDead w [t.home])).homes.alloys
  | none => .next s

/-- R277: a holder evicts a line, named by its address ÷ 64. -/
def execLineEviction (holder : Who) (line : Nat) (s : State) : Result := .next (s.evictLine holder (s.lid (line * 64)))

/-- A host port's link goes down: the port is declared dead at every home, its filter is cleared (R293), and its SPDM sessions
end (R368). -/
def State.hostDown (s : State) (d : Nat) : State :=
  let s := (s.declareDead (.host d) allHomes).homes
  { s with
    edge := { s.edge with hostUp := s.edge.hostUp.filter (· ≠ d) }
    coh := { s.coh with hpf := s.coh.hpf.keep (fun k _ => k / 2 ^ 42 != d) }
    sec := { s.sec with
      sessions := s.sec.sessions.keep (fun _ x => x.port != .host d), conns := s.sec.conns.filter (fun c => c.1 != .host d) } }

/-- R293: a host port's link goes down. -/
def execHostLinkDown (port : Nat) (s : State) : Result := .next (s.hostDown port)

/-- R295: the link of a present host port returns, with its filter cleared, and the port rejoins. During cold reset, and of an absent
I/O die, a host port's link is down (R24, Table 2-11). -/
def execHostLinkUp (port : Nat) (s : State) : Result :=
  if !s.edge.pins.porstN || !s.edge.pins.edgePwrOk || decide (s.edge.build.dies ≤ port) then .next s
  else .next ({ s with edge := { s.edge with hostUp := addNew s.edge.hostUp port } }.rejoinOf (.host port))

/-- R293: a COH_DEAD write with GO declares the member or node it names. -/
def execCohDeadWrite (value : W32) (s : State) : Result :=
  let v := value.toNat
  if !v.testBit 31 then .next s
  else
    let k := bits v 16 5
    let w : Who := if !v.testBit 30 then .node (v % 65536) else if k < 8 then .gateway k else .host (k - 8)
    if v.testBit 30 ∧ 16 ≤ k then .next s else .next (s.declareDead w allHomes).homes

/-- R297: the recall window closes when RECALL_MS has elapsed; before that nothing happens. -/
def execRecallWindowClose (s : State) : Result :=
  match s.coh.recallAt with
  | some t => .next (if t ≤ s.now then s.closeRecall else s)
  | none => .next s

/-- R296: the edge answers a message for the core while the homes are closed. -/
def execEdgeCoreAnswer (m : Msg) (s : State) : Result := .next (if s.edgeAnswers then s.edgeAnswer m else s)

end Sys2Proof.Machine
end

