-- ==== Sys2Proof/Machine/Watch.lean ====
section
/-!
DEFINITION. Exchanges on the rings that take place within one command, and the lines of pool memory that the block holds in S state to see
when they are written: tail lines (R90) and notify lines (R167).
-/

namespace Sys2Proof.Machine

/-! ### Exchanges on the rings -/

/-- Deliver a ring message to its receiver inside the block. -/
def State.deliver (s : State) (m : Msg) : State :=
  match m.kind with
  | .rdShr | .rdOwn | .upg | .rdCur | .wrFull | .wrPart | .cleanLine => s.requestArrives m
  | .snpShr | .snpInv | .snpCur => s.snoopArrives m
  | .wbDirty | .evictClean => s.noticeArrives m
  | .data => s.grantArrives m m.grant
  | .gnt => s.grantArrives m 3
  | .snpData | .rspI | .rspS | .rspEvicting | .rspLost => s.takeAnswer m
  | .cmp => s.cmpArrives m
  | .ack => if s.toHome m then s.homeAck m else s
  | .nackStake => s.nackArrives m
  | .refuse | .expired => s.failArrives m
  | _ => s

/-- Whether something sent is a message on a ring of the block that one of its gateways sends or receives. -/
def ringOf : Out → Option Msg
  | .ring (.gateway _) m => some m
  | _ => none

/-- Take the first ring message from what has been sent. -/
def takeRing : List Out → Option (Msg × List Out)
  | [] => none
  | o :: t => match ringOf o with
    | some m => some (m, t)
    | none => (takeRing t).map (fun p => (p.1, o :: p.2))

/-- Deliver the ring messages sent after the first `n` things sent, at most so many: the exchange that an access or a hold of
the block causes between a section gateway, the home and the other gateways takes place within the command (DESIGN CHOICE, log entry 30). -/
def State.pump (n : Nat) : Nat → State → State
  | 0, s => s
  | fuel + 1, s =>
    match takeRing (s.out.drop n) with
    | some (m, rest) => State.pump n fuel ({ s with out := s.out.take n ++ rest }.deliver m)
    | none => s

/-! ### Uncached requesters of the block (R271, R281) -/

/-- An uncached requester asks for lines: with RD_CUR for what holders outside may have changed, or for those that it will write, with the
exchanges within the block that this causes. -/
def State.askLines (s : State) (kind : MsgKind) (tag sec key : Nat) (l : List Nat) : State :=
  let n := s.out.length
  let s := s.each l (fun s x => if kind = MsgKind.wrFull then s.takeLine x else s.askCur kind tag sec (s.slotAt (x * 64) key) x)
  State.pump n (64 + 16 * l.length) s.homes

/-- The lines that writes wait for are taken from the holders outside the block; one that nobody outside holds any more is ready (R281). -/
def State.tendTakes (s : State) : State :=
  if s.coh.takes = [] then s
  else
    let s := s.askLines .wrFull 0 0 0 s.coh.takes
    { s with coh := { s.coh with takes := s.coh.takes.filter (fun l => !(s.outsideHeld (l * 64) 64).isEmpty) } }

/-! ### Lines that the block holds (R90, R167) -/

/-- Whether the block still holds a line: its section's gateway has it, and no core of the section may write it alone. -/
def State.keeps (s : State) (w : Watch) : Bool :=
  (match s.l1 w.line w.sec with | .i | .evicting => false | _ => true) &&
    (coresOfSec w.sec).all (fun c => match s.l0 w.line c with | .m | .e | .evicting => false | _ => true)

/-- Whether a gateway has asked for a line and has no answer yet. -/
def State.asking (s : State) (w : Watch) : Bool := (s.coh.ups.find (upKey w.line w.sec)).isSome

/-- Take a line in S state: the section's gateway asks the line's home for it where it does not have it, and the section's cores keep at
most S. -/
def State.holdLine (s : State) (w : Watch) (key : Nat) : State :=
  let ask :=
    let a := s.lidAddr w.line
    let m := { s.mkMsg .rdShr (a >>> 48) a with src := .gateway w.sec, key := s.slotAt (w.line * 64) key }
    State.pump s.out.length 64 ((s.setUp (upKey w.line w.sec) ⟨.rdShr, a, [], m, none, 0, none, none⟩).emit (.ring (.gateway w.sec) m))
  match s.l1 w.line w.sec with
  | .evicting => s
  | .i => if s.asking w then s else ask
  | _ => s.snoopCores w.line w.sec none .snpShr

/-- The hold of a line of this node's pool at a guest-virtual address of a slice, not yet taken; none for any other line. -/
def State.watchAt (s : State) (sec slice va : Nat) : Option Watch × State :=
  match s.resolve sec ⟨slice, none, false⟩ va false with
  | (.pool off, s) | (.hot off, s) => (some ⟨off / 64, sec, true⟩, s)
  | (_, s) => (none, s)

/-! ### Tail lines (R90) -/

/-- The block reads TAIL from a tail line; a non-zero value above bit 15 is out of range. A failed read pauses the queue (Table 4-12). -/
def State.readTail (s : State) (q : Nat) (reads : List Ext) : State :=
  let fail (err : Nat) (s : State) : State :=
    let s := s.setQx q { s.qx q with watch := none }
    if s.qState q = 1 ∨ s.qState q = 2 then s.pauseOnError q err else s
  match s.readGuest (s.qSec q) ⟨s.qSlice q, none, false⟩ (s.getF .QCX_TAIL_LINE q * 64) 4 reads with
  | (.bytes b, _, s) => s.newTail q (natLE b)
  | (.xlate _, _, s) => fail 3 s
  | (.poison, _, s) => fail 7 s
  | (_, _, s) => fail 8 s

/-- A doorbell-less queue that has a context. -/
def State.tailed (s : State) (q : Nat) : Bool := s.getF .QCX_CFG_KIND q == 3 && s.qState q != 0 && s.qState q != 4

/-- Whether a queue whose tail line is not held takes it: an ACTIVE one, or one that was created PAUSED; one that an error has paused waits
for RESUME_QUEUE. -/
def State.takesTail (s : State) (q : Nat) : Bool := s.qState q == 1 || (s.qState q == 2 && s.getF .QCX_ERR_LAST_ERR q == 0)

/-- Keep the hold of a queue's tail line: where a write has taken the line, it is asked for again and read when it is there. A queue whose
line is not held yet, as after its creation or its resumption, takes it. -/
def State.tendTail (s : State) (q : Nat) : State :=
  if !s.tailed q then s
  else
    let s := if (s.qx q).watch.isSome ∨ !s.takesTail q then s
      else
        let (w, s) := s.watchAt (s.qSec q) (s.qSlice q) (s.getF .QCX_TAIL_LINE q * 64)
        s.setQx q { s.qx q with watch := w }
    match (s.qx q).watch with
    | none => s
    | some w =>
      if s.keeps w ∧ !w.lost then s
      else
        let s := s.holdLine w (s.sliceKey (s.qSlice q))
        let there := s.keeps w || !s.asking w
        let s := s.setQx q { s.qx q with watch := some { w with lost := !there } }
        if there then s.readTail q [] else s

/-- R90: a write takes the tail line of a doorbell-less queue, and the block re-reads TAIL from it and holds the line again. -/
def execTailLineSnoop (queue : Nat) (reads : List Ext) (s : State) : Result :=
  .next (if s.tailed queue then (s.readTail queue reads).tendTail queue else s)

/-- The tail lines that writes have taken while commands ran are read again. -/
def State.tendTails (s : State) : State :=
  s.each ((s.work.queues.map (fun (kv : Nat × QueueX) => kv.1)).filter s.tailed) State.tendTail

/-- CREATE_QUEUE in the order of R106: the block of Table 4-11, the states and a core, then the rings. -/
def State.createQueue (s : State) (i : Nat) (b : List Byte) (rs : List Ext) : State :=
  let n := NewQueue.parse b
  let st := s.getF .SLC_STATE_STATE n.slice
  let limit := if n.slice = 0 then 64 else s.getF .SLC_PLACE_QUEUES n.slice
  if !s.queueBlockOk b then s.badDesc i 5
  else if s.qState n.id ≠ 0 ∨ (st ≠ 1 ∧ st ≠ 2) ∨ (s.sliceQueues n.slice).any (fun q => s.getF .QCX_OWNER_SLOT q == n.slot) ∨
      limit ≤ (s.sliceQueues n.slice).length then s.badDesc i 8
  else match s.bindCore n.slice (n.flags.testBit 0) with
    | none => s.badDesc i 8
    | some c =>
      let (ok, s) := s.ringsOk (secOfCore c) n.slice n.kind n.port n.log2 n.sq n.cq n.tail
      if !ok || rs.contains .atsFail then s.badDesc i 5
      else ((s.fillQueue n c (if n.flags.testBit 3 then 2 else 1)).tendTail n.id).finishOk i (BitVec.ofNat 64 c)

/-- R106: CREATE_QUEUE fills the context of a FREE QueueID, binds a core and moves it to ACTIVE or PAUSED. -/
def execCreateQueue (item : Nat) (reads : List Ext) (s : State) : Result :=
  match s.live item 0x88 with
  | some x => .next (s.withArgs item 64 x reads (fun b rs s => s.createQueue item b rs))
  | none => .next s

end Sys2Proof.Machine
end

