-- ==== Sys2Proof/Machine/Reset.lean ====
section
/-!
DEFINITION. Reset domains of units and sections (chapter 16): voiding, the start of a reset, units leaving service, and
the records of a hang.
-/

namespace Sys2Proof.Machine

/-! ### Voided work (R75, R385, Table 8-5) -/

/-- Void an item in a domain reset: row 1 of Table 3-6 counts it, and its completion is written once no other holder has it (R141,
R385). An item that had stopped for another cause, or was withdrawn, completes by that cause: the reset counts as the release it waits
for (R109). -/
def State.voidItem (s : State) (i reason : Nat) (ref : Option Nat) : State :=
  match s.item i with
  | none => s
  | some x => (s.stopItem i (x.withdrawn.getD ⟨3, reason, true, ref, some 1⟩)).endStopped i

/-- The end of a step's context, which has no completion of its own. -/
def causeStepGone : EndCause := ⟨0, 0, false, none, none⟩

/-- Void steps of a model's chain: the running one, the unstarted ones, or both. Their members complete ST_FAULT, their
reservations are cleared, and the context of a voided running step ends (Table 8-5). -/
def State.voidSteps (s : State) (m reason : Nat) (ref : Option Nat) (running unstarted : Bool) : State :=
  let c := s.chain m
  let hit (st : Step) : Bool := if st.started then running else unstarted
  let gone := c.steps.filter hit
  let rest := c.steps.filter (fun st => !hit st)
  let s := s.setChain m { c with
    steps := rest, nextStart := if running && unstarted then s.now else c.nextStart
    last := c.last ++ (gone.filter (fun st => st.started)).flatMap (fun st => st.members) }
  let ctxs := if running then s.itemsWhere (fun (x : Item) => x.step && x.model == some m) else []
  let s := s.each ctxs (fun s kv => (s.stopItem kv.1 causeStepGone).endStopped kv.1)
  let s := s.each (gone.flatMap (fun st => st.dropped)) State.unreserve
  let s := if running then s.freeClosed m else s
  s.each gone (fun s (st : Step) => s.each st.members (fun s i => (if st.started then s.keepSeq i else s).voidItem i reason ref))

/-- Void the steps of every model that is placed in section `k`. -/
def State.voidModels (s : State) (k reason : Nat) (ref : Option Nat) : State :=
  s.each ((s.serve.chains.map (fun (kv : Nat × Chain) => kv.1)).filter (fun m => (s.modelSecs m).contains k))
    (fun s m => s.voidSteps m reason ref true true)

/-- Void the work of a context: an item, or the members of the step whose context it is (R215). -/
def State.voidContext (s : State) (i reason : Nat) (ref : Option Nat) : State :=
  match s.item i with
  | some x => (match (if x.step then x.model else none) with
    | some m => s.voidSteps m reason ref true false
    | none => s.voidItem i reason ref)
  | none => s

/-- Void the items that hold an operation on a unit, and forget the unit's operations. -/
def State.voidUnit (s : State) (on : UnitId) (reason : Nat) (ref : Option Nat) : State :=
  let mine := s.work.ops.filter (fun (kv : Nat × Op) => kv.2.on == on)
  let s := { s with work := { s.work with ops := s.work.ops.filter (fun (kv : Nat × Op) => kv.2.on != on) } }
  s.each (mine.map (fun kv => kv.2.item)) (fun s i => s.voidContext i reason ref)

/-- Whether an item's context is on a core: a step request has none, it is served by the context of its step (R213). -/
def Item.contextOn (x : Item) (c : Nat) : Bool := x.core == c && !(x.req.isSome && !x.step)

/-- Void the items whose context is on a core, running or parked; a step whose context is there ends with its members. -/
def State.voidCore (s : State) (c reason : Nat) (ref : Option Nat) : State :=
  let mine := s.itemsWhere (fun (x : Item) => x.contextOn c)
  s.each mine (fun s kv => (s.unload kv.1).voidContext kv.1 reason ref)

/-! ### Clearing (R386, Table 14-2) -/

/-- The per-core fields of the interrupt controller, with the number of registers of each kind. -/
def cicFields : List (Fld × Nat) :=
  [(.CIC_PEND, 4), (.CIC_SET, 4), (.CIC_EN, 4), (.CIC_PRIO, 16), (.CIC_STACK_DEPTH, 1), (.CIC_STACK_TOP_PRIO, 1), (.CIC_STACK_TOP_SRC, 1),
    (.CIC_PSF_COUNT, 1), (.CIC_PSF_NAMED, 1), (.CIC_PSF_TOP, 1), (.CIC_PSF_DEPTH, 1)]

/-- Clear a core: its context, control words, priority stack, local store, halt state and CIC entries. -/
def State.clearCore (s : State) (c : Nat) : State :=
  let s := { s with work := { s.work with cores := s.work.cores.del c } }
  let s := s.each cicFields (fun s f => s.each (List.range f.2) (fun s n => s.setF f.1 (c * f.2 + n) f.1.reset))
  (s.setF .CUE_DBG_CTRL_HALT_REQ c 0).setF .CUE_DBG_CTRL_HALTED c 0

/-- Invalidate the codebook slots of a tensor engine, eight from slot 8 × t on (R179). -/
def State.clearCb (s : State) (t : Nat) : State :=
  { s with work := { s.work with cb := s.work.cb.keep (fun k _ => k / 8 != t) } }

/-- The registers of a tensor engine's block. -/
def tenFields : List Fld :=
  [.TEN_CB_LOADS_COUNT, .TEN_OPS_COUNT, .TEN_BUSY_US, .TEN_PREEMPT_COUNT, .TEN_ERR_CORRECTED, .TEN_ERR_UNCORRECTED, .TEN_ERR_SPARES,
    .TEN_LAST_CHECK, .TEN_LAST_SLICE]
/-- The registers of an attention unit's block. -/
def attFields : List Fld := [.TEN_ATT_PAGES_COUNT, .TEN_ATT_ERR_CORRECTED, .TEN_ATT_ERR_UNCORRECTED]

/-! ### Units (R386, R391, R401) -/

/-- Domain number of a unit of FLT_RSTu (Table 16-1). -/
def unitDomain (u : Nat) : Nat := if u < 48 then 1 else if u < 56 then 2 else if u < 120 then 3 else if u < 152 then 4 else 5

/-- A record that names a unit of FLT_RSTu. -/
def FaultRec.ofUnit (u reason action : Nat) : FaultRec :=
  let r := FaultRec.blank reason action (unitDomain u)
  if u < 48 then { r with te := u }
  else if u < 56 then { r with unit := u - 48 }
  else if u < 120 then { r with core := u - 56 }
  else if u < 152 then { r with unit := u - 120 }
  else { r with unit := u - 152 }

/-- The REASON of ST_FAULT that a unit's reset gives (Table 4-6). -/
def unitReason (u : Nat) : Nat := if u < 56 then 1 else if u < 120 then 2 else if u < 152 then 3 else 4

/-- LIMIT and WINDOW_S of a unit's class (Table 16-6). -/
def State.escalation (s : State) (u : Nat) : Nat × Nat :=
  if u < 152 then (s.getF .BLK_ESC_UNIT_LIMIT 0, s.getF .BLK_ESC_UNIT_WINDOW_S 0)
  else (s.getF .BLK_ESC_SEC_LIMIT 0, s.getF .BLK_ESC_SEC_WINDOW_S 0)

/-- Start times that lie within the last `w` seconds. -/
def State.within (s : State) (w : Nat) (ts : List Nat) : Nat := (ts.filter (fun t => decide (s.now ≤ t + w * 1000000000))).length

/-- Resets of a unit within its class window. -/
def State.resetsInWindow (s : State) (u : Nat) : Nat := s.within (s.escalation u).2 (s.recov.rstTimes.findD u [])

/-- Whether a reset of a unit starts now: the unit is in service, in no reset of its own or of its section, and no warm reset
runs (Table 16-5). -/
def State.canReset (s : State) (u : Nat) : Bool := !s.unitOos u && !s.inReset u && s.recov.warm.isNone && s.coreOn

/-- Count the start of a reset of a unit (R391) and keep the reset as running; it ends with the unit leaving service when
the starts within the window reach LIMIT. -/
def State.countReset (s : State) (u : Nat) : State :=
  let ts := s.recov.rstTimes.findD u [] ++ [s.now]
  let s := { s with recov := { s.recov with rstTimes := s.recov.rstTimes.put u ts } }
  let s := s.bumpF .FLT_RST_TOTAL u
  { s with recov := { s.recov with resets := s.recov.resets.put u ⟨s.now, decide ((s.escalation u).1 ≤ s.resetsInWindow u), 0⟩ } }

/-- A reset that a larger one absorbs stops, and is not counted (R390, Table 16-5). -/
def State.absorbReset (s : State) (u : Nat) : State :=
  if s.inReset u then
    let s := { s with recov := { s.recov with resets := s.recov.resets.del u, rstTimes := s.recov.rstTimes.upd u List.dropLast } }
    s.setF .FLT_RST_TOTAL u (s.getF .FLT_RST_TOTAL u - 1)
  else s

/-- Void a TOUCHSTONE item whose test runs on a unit (Table 17-5). -/
def State.voidTouch (s : State) (u reason : Nat) (ref : Option Nat) : State :=
  s.each (s.work.touches.filter (fun (kv : Nat × Touch) => kv.2.borrowed == some u)) (fun s kv => s.voidItem kv.1 reason ref)

/-- Void and clear what a unit reset takes (Table 16-4). -/
def State.wipeUnit (s : State) (u : Nat) (ref : Option Nat) : State :=
  let s := s.dropCurs u
  if u < 48 then ((s.voidUnit (.te u) 1 ref).voidModels (secOfTe u) 1 ref).clearCb u
  else if u < 56 then (s.voidUnit (.att (u - 48)) 1 ref).voidModels (u - 48) 1 ref
  else if u < 120 then ((s.voidCore (u - 56) 2 ref).deadCore (u - 56)).clearCore (u - 56)
  else s.voidUnit (.me (u - 120)) 3 ref

/-- An engine or attention unit reports an uncorrectable error or enters reset: TE_ERR, ATT_ERR or ME_ERR at its section's cores
(Table 14-1). -/
def State.unitEvent (s : State) (u : Nat) : State :=
  if u < 48 then s.cicSection (secOfTe u) (8 + u % 6)
  else if u < 56 then s.cicSection (u - 48) 14
  else if 120 ≤ u ∧ u < 152 then s.cicSection ((u - 120) / 4) (16 + u % 4)
  else s

/-- A TE, CUE or MOVE reset starts (R386, steps 1 to 3). -/
def State.resetUnit (s : State) (u : Nat) (ref : Option Nat) : State :=
  (((s.countReset u).voidTouch u (unitReason u) ref).wipeUnit u ref).unitEvent u

/-- A fault whose action is a reset of a unit: the record is written first, with ACTION 2 and the count of resets, or
ACTION 0 where no reset starts (Tables 16-3, 16-5). -/
def State.faultReset (s : State) (u : Nat) (r : FaultRec) : State :=
  let can := s.canReset u
  let ref := s.nextIndex
  let s := s.fault { r with action := if can then 2 else 0, count := s.resetsInWindow u + b2n can }
  if can then s.resetUnit u (some ref) else s

/-! ### Leaving service (R387, R160, R389) -/

/-- Give a queue whose core left service another core, or none (R160). -/
def State.rebindQueue (s : State) (q : Nat) : State :=
  match s.rebindCore (s.qSlice q) (s.bitF .QCX_CFG_LC_OK q) with
  | some c => s.setF .QCX_BIND_CORE q c
  | none => (s.setQx q { s.qx q with unbound := true }).pauseOnError q 5

/-- Rebind the queues of cores that are out of service. -/
def State.rebindQueues (s : State) : State :=
  let qs := (s.work.queues.map (fun (kv : Nat × QueueX) => kv.1)).filter (fun q =>
    s.qState q != 0 && s.qState q != 4 && !(s.qx q).unbound && s.coreOos (s.getF .QCX_BIND_CORE q))
  s.each qs State.rebindQueue

/-- The units of a section, by their FLT_RSTu numbers. -/
def unitsOfSec (k : Nat) : List Nat :=
  (List.range 6).map (6 * k + ·) ++ [unitOfAtt k] ++ (coresOfSec k).map unitOfCore ++ (List.range 4).map (fun i => unitOfMe (4 * k + i))

/-- Mark a unit out of service. -/
def State.markUnit (s : State) (u : Nat) : State :=
  if u < 48 then s.setBit .BLK_OOS_TE_UNITS 0 u true
  else if u < 56 then s.setBit .BLK_OOS_SEC_ATT 0 (u - 48) true
  else if u < 120 then s.setBit .BLK_OOS_CUE_UNITS 0 (u - 56) true
  else if u < 152 then s.setBit .BLK_OOS_ME_UNITS 0 (u - 120) true
  else s.setBit .BLK_OOS_SEC_SECTIONS 0 (u - 152) true

/-- Mark a unit, or a section with all its units, out of service (R391). -/
def State.markOos (s : State) (u : Nat) : State :=
  s.each (if 152 ≤ u then unitsOfSec (u - 152) ++ [u] else [u]) State.markUnit

/-- A unit, or a section with all its units, leaves service: it is isolated and marked, a record is written, manager cause
STATE is raised, queues of cores that went are rebound, and the block is DEGRADED (R387, R389). -/
def State.leaveService (s : State) (u : Nat) (r : FaultRec) : State :=
  let s := { s with recov := { s.recov with resets := s.recov.resets.del u } }
  let s := (s.markOos u).fault r
  ((s.managerCause 3).rebindQueues).degrade

/-- The Touchstone test of a unit's kind (Table 17-3). -/
def kindTest (u : Nat) : Nat := if u < 48 then 2 else if u < 56 then 3 else if u < 120 then 1 else if u < 152 then 4 else 5

/-- Note a Touchstone run on a unit (TCH_UNITu): the tests of the run and those that failed, as masks. -/
def State.noteTest (s : State) (u tests failed : Nat) : State :=
  ((s.setF .TCH_UNIT_LAST_TESTS u tests).setF .TCH_UNIT_LAST_FAILED u failed).bumpF .TCH_UNIT_RUNS u

/-! ### Sections (R384, R388) -/

/-- A section reset starts: resets of its units are absorbed, every item with state in them is voided, the gateway is
declared dead, and the units are cleared (R384, R390, Tables 16-4, 16-5). -/
def State.resetSection (s : State) (k : Nat) (ref : Option Nat) : State :=
  let us := unitsOfSec k
  let s := (s.each us State.absorbReset).countReset (unitOfSec k)
  let s := s.each (us ++ [unitOfSec k]) (fun s u => s.voidTouch u 4 ref)
  let s := s.each ((List.range 6).map (6 * k + ·)) (fun s t => s.voidUnit (.te t) 4 ref)
  let s := s.voidUnit (.att k) 4 ref
  let s := s.each ((List.range 4).map (4 * k + ·)) (fun s m => s.voidUnit (.me m) 4 ref)
  let s := s.voidModels k 4 ref
  let s := s.each (coresOfSec k) (fun s c => s.voidCore c 4 ref)
  let s := s.deadSection k
  let s := s.each (coresOfSec k) State.clearCore
  s.each ((List.range 6).map (6 * k + ·)) (fun s t => (s.clearCb t).each tenFields (fun s f => s.setF f t f.reset)) |>.each attFields
    (fun s f => s.setF f k f.reset)

/-! ### The commands of unit resets -/

/-- R386: a TE reset of a tensor engine (0–47) or attention unit (48–55) starts. -/
def execTeReset (unit : Nat) (s : State) : Result :=
  .next (if unit < 56 ∧ s.canReset unit then s.resetUnit unit none else s)

/-- R386: a CUE reset of a core starts. -/
def execCueReset (core : Nat) (s : State) : Result :=
  .next (if core < 64 ∧ s.canReset (unitOfCore core) then s.resetUnit (unitOfCore core) none else s)

/-- R386: a MOVE reset of a move engine starts. -/
def execMoveReset (engine : Nat) (s : State) : Result :=
  .next (if engine < 32 ∧ s.canReset (unitOfMe engine) then s.resetUnit (unitOfMe engine) none else s)

/-- R386: the unit's Touchstone check has ended within the bound: a unit that failed it, or whose escalation limit is
reached, leaves service; another returns to service. -/
def execUnitResetDone (unit : Nat) (check : TestResult) (s : State) : Result :=
  match s.recov.resets.find unit with
  | some r =>
    if unit < 152 then
      let s := s.noteTest unit (2 ^ (kindTest unit - 1)) check.failed
      if check.failed ≠ 0 then
        .next (s.leaveService unit { FaultRec.ofUnit unit 0x22 3 with aux1 := check.failed, count := s.resetsInWindow unit })
      else if r.leaving then
        .next (s.leaveService unit { FaultRec.ofUnit unit 0x20 3 with aux1 := s.resetsInWindow unit, count := s.resetsInWindow unit })
      else .next { s with recov := { s.recov with resets := s.recov.resets.del unit } }
    else .next s
  | none => .next s

/-- R387: a unit reset passes its bound of 2 ms: the unit leaves service with a record of reason RESET_HANG. -/
def execUnitResetTimeout (unit : Nat) (s : State) : Result :=
  match s.recov.resets.find unit with
  | some r =>
    if unit < 152 ∧ r.startAt + 2000000 ≤ s.now then
      .next (s.leaveService unit { FaultRec.ofUnit unit 0x0A 3 with count := s.resetsInWindow unit })
    else .next s
  | none => .next s

/-- R384: a section reset starts. -/
def execSectionReset (sec : Nat) (s : State) : Result :=
  .next (if sec < 8 ∧ s.canReset (unitOfSec sec) then s.resetSection sec none else s)

/-- R384: a section reset ends within its bound: a section whose limit is reached leaves service (R391), another returns and
its gateway rejoins (R295). -/
def execSectionResetDone (sec : Nat) (s : State) : Result :=
  match s.recov.resets.find (unitOfSec sec) with
  | some r =>
    let u := unitOfSec sec
    if 8 ≤ sec then .next s
    else if r.leaving then
      .next (s.leaveService u { FaultRec.ofUnit u 0x20 5 with aux1 := s.resetsInWindow u, count := s.resetsInWindow u })
    else .next ({ s with recov := { s.recov with resets := s.recov.resets.del u } }.rejoinOf (.gateway sec))
  | none => .next s

/-! ### Items whose limits pass (R76, R109, R148, Table 16-3) -/

/-- A record that names an item: its slice, queue, cast and core (Table 16-1). -/
def FaultRec.ofItem (x : Item) (reason action domain : Nat) : FaultRec :=
  { FaultRec.blank reason action domain with
    slice := x.slice, queue := x.queue, core := x.core,
    castId := if x.desc.opc = 2 then x.desc.castId else 0xFFFF,
    castVer := if x.desc.opc = 2 then x.desc.castVer else 0,
    pc := x.ctx.pc.toNat }

/-- The record of an item with the version that its launch pinned and the node whose code runs. -/
def State.recordOf (s : State) (x : Item) (reason action domain : Nat) : FaultRec :=
  { FaultRec.ofItem x reason action domain with
    castVer := match x.castSlot with | some k => s.slotVer (k / 4) (k % 4) | none => 0
    castNode := match x.runner with | some r => r.running.getD 0xFFFF | none => 0xFFFF }

/-- The item whose context does an item's work: a member of a running step is served by the context of its step, and an item's own
otherwise (R213). -/
def State.servedBy (s : State) (i : Nat) (x : Item) : Nat × Item :=
  if x.req.isSome then ((s.itemsWhere (fun (y : Item) => y.step && y.model == x.model && y.started)).head?).getD (i, x) else (i, x)

/-- The core that holds an item's context; a step request has none before its step starts, which will run on its model's core (R213). -/
def State.contextCore (s : State) (x : Item) : Nat :=
  if x.req.isSome then (x.model.bind s.coreOfModel).getD x.core else x.core

/-- The unit that holds an item: the engine whose handle it awaits, otherwise the core that holds its context (Table 16-3). -/
def State.holderOf (s : State) (i : Nat) (x : Item) : Nat :=
  let y := s.servedBy i x
  match (s.opsOf y.1).find? (fun kv => kv.2.handle.isNone || y.2.cause.isSome || kv.2.handle.any (fun h => y.2.waiting.testBit h)) with
  | some (_, o) => o.on.number
  | none => unitOfCore (s.contextCore x)

/-- The units that have not released an item: the engines of its operations and the core that runs it, or that runs the step which it is a
member of until the step's next yield point (R109, Table 8-5). -/
def State.unreleased (s : State) (i : Nat) (x : Item) : List Nat :=
  let core := if s.isRunning i then [unitOfCore x.core] else if s.inRunningStep i then [unitOfCore (s.servedBy i x).2.core] else []
  ((s.opsOf i).map (fun kv => kv.2.on.number)).foldl addNew core

/-- A record of an item's fault that resets the item's holder; `fin` ends the item itself between the record and the reset. -/
def State.resetHolder (s : State) (u : Nat) (r : FaultRec) (fin : State → Nat → State) : State :=
  let can := s.canReset u
  let ref := s.nextIndex
  let s := s.fault { r with action := if can then 2 else 0, count := s.resetsInWindow u + b2n can }
  let s := fin s ref
  if can then s.resetUnit u (some ref) else s

/-- Whether an end that an item has already taken stands when its effective timeout elapses: it is withdrawn, voided, or has timed out
(R74, Table 4-13). -/
def EndCause.stands (c : EndCause) : Bool := !c.complete || c.void.isSome || [2, 4, 9, 0x0A, 0x0B].contains c.status

/-- The effective timeout of an item that has ended elapses while its completion waits for earlier ones: the promise is broken, and
ST_TIMEOUT takes the completion's place (R74, R103). Nothing holds the item, so that no domain is reset. -/
def State.lateWaiting (s : State) (i : Nat) : State :=
  match s.work.queues.findSome? (fun kv => (kv.2.ordered.find? (fun p => p.num == i && p.deadline.any (fun t => decide (t ≤ s.now)))).map (kv.1, ·)) with
  | none => s
  | some (q, p) =>
    let ref := s.nextIndex
    let s := ((s.incF .PRM_BROKEN_COUNT 0).countQ q 3).fault { FaultRec.blank 0x07 0 0 with slice := s.qSlice q, queue := q, status := 2 }
    let late : Posting := { p with deadline := none, comp := { p.comp with status := 2, reason := 0, result := 0, faultRef := some ref } }
    let x := s.qx q
    s.setQx q { x with ordered := x.ordered.map (fun y => if y.num = i then late else y) }

/-- R76: an item's effective timeout elapses: ST_TIMEOUT, a record, PRM_BROKEN, and the reset of its holder, whatever else had stopped it
without voiding or withdrawing it. On a TOMBSTONE queue only the record is written, and a cancelled item never completes ST_TIMEOUT
(Table 4-13). -/
def execItemTimeout (item : Nat) (s : State) : Result :=
  match s.itemNow item with
  | none => .next (s.lateWaiting item)
  | some x =>
    if x.step ∨ s.now < x.acceptAt + x.timeout then .next s
    else
      let u := s.holderOf item x
      let r := { s.recordOf x 0x07 2 (unitDomain u) with aux0 := x.promise, status := 2 }
      if s.qState x.queue = 4 then .next (s.fault { r with action := 0, status := 0 })
      else if (x.cause.or x.withdrawn).any EndCause.stands then .next s
      else
        .next ((if x.broken then s else s.incF .PRM_BROKEN_COUNT 0).resetHolder u r (fun s ref =>
          ((s.updItem item (fun y => { y with cause := none })).stopItem item ⟨2, 0, true, some ref, none⟩).endStopped item))

/-- R148: the elapsed time of a RUN or LAUNCH reaches its run limit B − T_block − T_done: its context ends, ST_FAULT, CORE, with a record
of reason BOUND_OVERRUN and ACTION 1. A step past its limit ends with every member so (R215). -/
def execRunLimitExpiry (item : Nat) (s : State) : Result :=
  match s.itemNow item with
  | none => .next s
  | some x =>
    if x.cause.isSome ∨ s.now < x.acceptAt + x.promise - tBlock x.sAdm - tDone x.sAdm ∨ !(x.desc.opc = 1 ∨ x.desc.opc = 2) then .next s
    else
      let ref := s.nextIndex
      let s := s.fault { s.recordOf x 0x02 1 3 with aux0 := s.now - x.acceptAt, status := 3, creason := 2 }
      .next (s.stopItem item ⟨3, 2, true, some ref, none⟩)

/-- Whether the release limit counts for an item: its queue is destroyed, or its slice is being reset (R109, R337). -/
def State.limited (s : State) (x : Item) : Bool := s.qState x.queue == 4 || s.bitF .SLC_STATE_RESETTING x.slice

/-- R109: holders have not released an item within the release limit of Table 4-9, counted from the destroy or the slice reset: each of
their domains is reset, which counts as its release. -/
def execReleaseLimitExpiry (item : Nat) (s : State) : Result :=
  match s.itemNow item with
  | none => .next s
  | some x =>
    match x.stopAt with
    | some t =>
      if !s.limited x ∨ s.now < t + 10 * scale s.sg 100000 then .next s
      else .next ((s.each (s.unreleased item x) (fun s u =>
        s.resetHolder u (s.recordOf x 0x08 2 (unitDomain u)) (fun s _ => s))).endStopped item)
    | none => .next s

end Sys2Proof.Machine
end

