-- ==== Sys2Proof/Machine/Warm.lean ====
section
/-!
DEFINITION. Core warm reset and crash dump (chapter 16, Tables 16-7 to 16-10): the trigger, what is lost and kept, and
the core leaving reset.
-/

namespace Sys2Proof.Machine

/-! ### Fault records as bytes (Table 16-1) -/

/-- The 64 bytes of a record. -/
def FaultRec.bytes (r : FaultRec) : List Byte :=
  bytesLE 4 r.index ++ bytesLE 1 r.domain ++ bytesLE 1 r.action ++ bytesLE 2 r.reason ++ bytesLE 8 r.time ++ bytesLE 2 r.slice ++
    bytesLE 2 r.queue ++ bytesLE 2 r.castId ++ bytesLE 2 r.castVer ++ bytesLE 2 r.castNode ++ bytesLE 1 r.core ++ bytesLE 1 r.te ++
    bytesLE 2 r.unit ++ bytesLE 2 r.count ++ bytesLE 8 r.pc ++ bytesLE 8 r.addr ++ bytesLE 8 r.aux0 ++ bytesLE 4 r.aux1 ++
    bytesLE 1 r.status ++ bytesLE 1 r.creason ++ bytesLE 2 0

/-- The record in slot `i` of the fault log (R381). -/
def State.faultSlot (s : State) (i : Nat) : Option FaultRec := s.recov.faults.find? (fun r => r.index % 1024 == i)

/-! ### What a warm reset keeps (R396, Table 16-9) -/

/-- The field that a key of the register store stands for. -/
def fldOf (k : Nat) : Option Fld :=
  ((regTable.flatMap (fun r => r.fields)).find? (fun (d : FldDesc) => d.fld.ctorIdx == k % 1024)).map (fun d => d.fld)

/-- Whether a warm reset keeps the register field under a key. -/
def warmKeeps (k : Nat) : Bool :=
  match fldOf k with
  | some f => match f.warm with
    | .keep => true
    | .reset => false
    | .others => decide (k / 1024 < (if f = .QCX_CNT_COUNT then 5 else 1))
    | .sections => decide (8 ≤ k / 1024)
  | none => true

/-- Queue 0 after a warm reset: its ring positions stay, what was fetched, held or open is lost (R397). -/
def QueueX.recovered (x : QueueX) : QueueX := { QueueX.fresh with unfreed := x.unfreed }

/-- The slices whose pages a recovery scrub walks again (R396). -/
def State.scrubAgain (s : State) : List Nat :=
  ((List.range 4096).filter (fun i => s.getF .SLC_STATE_STATE i == 4 || s.getF .SLC_STATE_STATE i == 5)).foldl addNew s.slices.recScrub

/-- Zeroise the keys of slots 1–4,351: slots that were LIVE or DRAINING become DRAINING with ZEROISED (R396). -/
def KeySlot.zero (now slot : Nat) (k : KeySlot) : KeySlot :=
  if slot = 0 ∨ k.state = .free then k else { k with state := .draining, zeroised := true, since := now }

/-- A mailbox channel with a core side (Table 16-7). -/
def State.coreChannel (s : State) (ch : Nat) : Bool :=
  let k (b : Bool) : Nat := bits (s.mbxSide ch b) 28 4
  k false == 1 || k false == 2 || k true == 1 || k true == 2

/-- Every TDI bound to a slice other than 0 enters ERROR (R396, R374). -/
def State.tdiErrors (s : State) : State :=
  let gone := ((List.range 4095).map (· + 1)).filter (fun i => s.getF .SLC_STATE_STATE i != 0 && s.bitF .SLC_HOST_BOUND i)
  let keys := gone.map (fun i => s.getF .SLC_HOST_PORT i * 512 + s.getF .SLC_HOST_VF i)
  { s with sec := { s.sec with tdis := s.sec.tdis.mapVals (fun k t => if keys.contains k then { t with state := .error } else t) } }

/-- The slices whose key slot is LIVE or DRAINING, each with its slot. -/
def State.slotHolders (s : State) : List (Nat × Nat) :=
  (((List.range 4095).map (· + 1)).filter (fun i => s.getF .SLC_STATE_KEYST i != 0)).map (fun i => (i, s.getF .SLC_STATE_KEY i))

/-- The slot of a slice shows as DRAINING and ZEROISED (R396). -/
def State.showZeroised (s : State) (p : Nat × Nat) : State :=
  ((s.setF .SLC_STATE_KEY p.1 p.2).setF .SLC_STATE_KEYST p.1 2).setF .SLC_STATE_ZEROISED p.1 1

/-- Steps 5 and 6 of Table 16-8: the stacks enter self-refresh and the core logic is reset (R384, domain CORE); what Table 16-9 lists as
lost is lost. -/
def State.coreDown (s : State) : State :=
  let s := s.each (List.range s.nStacks) (fun s st =>
    (if s.getF .MEM_STK_STAT_STATE st = 1 ∨ s.getF .MEM_STK_STAT_STATE st = 2 then s.setF .MEM_STK_STAT_STATE st 3 else s).emit (.selfRefresh st))
  let again := s.scrubAgain
  let s := s.tdiErrors
  let s := s.each ((List.range 64).filter s.coreChannel) State.mbxClear
  let q0 := (s.work.queues.find 0).map QueueX.recovered
  let slots := s.slotHolders
  let s : State := { s with
    regs := s.regs.keep (fun k _ => warmKeeps k)
    edge := { s.edge with coreOut := false }
    temper := { Temper.reset with
      dur := s.temper.dur, atRisk := s.temper.atRisk, staleAt := s.temper.staleAt, staleLogged := s.temper.staleLogged }
    work := { Work.reset with
      queues := (match q0 with | some x => [(0, x)] | none => []), nextItem := s.work.nextItem, nextOp := s.work.nextOp }
    serve := ⟨[], none, [], [], [], none, []⟩
    slices := { s.slices with ext := [], buckets := [], scrub := [], oneTime := [], recScrub := again, scrubLeft := [], keys := s.slices.keys.mapVals (KeySlot.zero s.now) }
    mem := { s.mem with
      cells := s.mem.cells.filter (fun c => decide (c.1 < 0xC00000000000)), lines := s.mem.lines.keep (fun l _ => decide (l * 64 < 0xC00000000000)),
      dirty := [], copies := [], tlb := [], holes := s.mem.holes.filter (fun h => !h.frame),
      stks := (s.mem.stks.keep (fun n _ => decide (n < 32))).mapVals (fun _ (x : StackX) => { x with moves := [], rowCe := [] }) }
    coh := { s.coh with
      l0 := [], l1 := [], ways := [], dir := [], txns := [], tickets := [], ups := [], barred := [], walks := [], rejoins := [], recalled := [], peers := [],
      recallAt := none, curs := [], takes := [], reopened := false }
    sec := { s.sec with
      pairings := [], castLog := [],
      sessions := s.sec.sessions.keep (fun _ x => match x.port with | .peer _ => false | _ => true) }
    recov := { s.recov with
      resets := [], stages := [], image := none, dump := none,
      warm := s.recov.warm.map (fun (w : WarmReset) => { w with step := .resetting }) } }
  s.each slots State.showZeroised

/-- Step 4: while a PST flush runs, or the core has no power, the reset is held; then the core goes down (R246, Table 2-10). -/
def State.warmGoOn (s : State) : State :=
  if s.flushAhead ∨ !s.edge.pins.corePwrOk then
    { s with recov := { s.recov with warm := s.recov.warm.map (fun (w : WarmReset) => { w with step := .held }) } }
  else s.coreDown

/-! ### The crash dump (R399, Table 16-10) -/

/-- Units that a dump reads: the spine, 8 home slices, 8 sections, 64 cores, 48 tensor engines, 8 attention units, 32 move
engines. -/
def dumpUnits : Nat := 169

/-- The dump begins: the well's header and unit records take contents that the spec lays out but for their bodies, so its
lines read as values left open; the copy of the fault log at +0x1000 is written under key slot 0, uncached. -/
def State.beginDump (s : State) : State :=
  let base := s.getF .FLT_DUMP_BASE 0 * 0x200000
  let off := base % 2 ^ 48
  let s := (s.setF .FLT_DUMP_CTRL_STATUS 0 4).setF .FLT_DUMP_CTRL_TIMEOUTS 0 0
  let s := s.incF .FLT_DUMP_SEQ_COUNT 0
  let s := if base / 2 ^ 48 = s.node ∧ s.poolRange off 0x10000000 then
      let l := off / 64
      let s := { s with mem := { s.mem with lines := s.mem.lines.keep (fun k _ => decide (k < l ∨ l + 0x400000 ≤ k)) } }
      let log := (List.range 1024).flatMap (fun i => match s.faultSlot i with | some r => r.bytes | none => List.replicate 64 0)
      match s.coverStore (off + 0x1000) 0x10000 with
      | some s => s.writeMem (off + 0x1000) 0 log
      | none => s
    else s
  { s with recov := { s.recov with
    dump := some ⟨s.now, 0, s.now⟩, warm := s.recov.warm.map (fun (w : WarmReset) => { w with step := .dumping }) } }

/-- The dump ends with a STATUS (1 COMPLETE, 2 PARTIAL), and the warm reset goes on. -/
def State.endDump (s : State) (status : Nat) : State :=
  ({ s.setF .FLT_DUMP_CTRL_STATUS 0 status with recov := { s.recov with dump := none, announce := true } }).warmGoOn

/-! ### The trigger (R393, R394) -/

/-- The record of a warm reset's cause: WARM_REQUEST, or that of the cause; `aux` is the section or the junction. -/
def State.warmRecord (s : State) (cause aux action : Nat) : FaultRec :=
  match cause with
  | 4 => { FaultRec.blank 0x0B action 5 with unit := aux, count := s.resetsInWindow (unitOfSec aux) }
  | 5 => FaultRec.blank 0x1C action 11
  | 6 => { FaultRec.blank 0x17 action 11 with aux0 := aux }
  | c => { FaultRec.blank 0x1F action 8 with aux1 := c }

/-- Every open item is void and none completes (R384, R395); counters of voided promises count them, and resets that run are absorbed (R390,
Table 16-5). -/
def State.voidAll (s : State) : State :=
  let s := s.each (s.recov.resets.map (·.1)) State.absorbReset
  let n := (s.itemsWhere (fun (x : Item) => !x.step)).length
  { s.setF .PRM_VOIDED_COUNT 1 (s.getF .PRM_VOIDED_COUNT 1 + n) with
    work := { s.work with items := [], ops := [], touches := [] }, serve := { s.serve with chains := [], load := none, stage := [] } }

/-- Steps 1 to 4 of Table 16-8. A reset from FENCED ends in FENCED again: only READMIT leaves it (R392). -/
def State.beginWarm (s : State) (cause aux : Nat) : State :=
  let times := s.recov.warmTimes ++ [s.now]
  let n := s.within (s.getF .BLK_ESC_BLOCK_WINDOW_S 0) times
  let excess := decide (s.getF .BLK_ESC_BLOCK_LIMIT 0 ≤ n)
  let fence := cause == 3 || excess || s.blkState == stFenced
  let ref := s.nextIndex
  let s := { s with recov := { s.recov with warmTimes := times, warmHeld := none } }
  let s := s.fault (s.warmRecord cause aux (if fence then 7 else 6))
  let s := if excess ∧ cause ≠ 3 then s.fault { FaultRec.blank 0x20 7 8 with aux1 := n, count := n } else s
  let s := (s.setF .BLK_CAUSE 0 cause).setF .BLK_CAUSE_REF_INDEX 0 ref
  let s := ((s.bumpF .FLT_WARM_TOTAL 0).bumpF .BLK_STATE_WARM_TOTAL 0).setF .BLK_STATE_READY 0 0
  let s := ((s.setF .BLK_STAGE_DONE 0 0).setBlkState stRecovering).voidAll
  let want := (cause == 4 || cause == 5 || ((cause == 2 || cause == 3) && s.bitF .BLK_CTRL_DUMP 0)) && s.bitF .FLT_DUMP_CTRL_EN 0
  let s := { s with recov := { s.recov with warm := some ⟨.triggered, cause, fence, want, s.now⟩ } }
  let s := s.tellPeers .dead
  if !want then s.warmGoOn
  else if s.coreOos 0 then ((s.setF .FLT_DUMP_CTRL_STATUS 0 3).setF .FLT_DUMP_CTRL_TIMEOUTS 0 0).warmGoOn
  else s.beginDump

/-- A trigger of a core warm reset arrives. One that meets a running reset is absorbed, but for WRST_N, which stops a dump
(R390, Table 16-5); one that meets a PST flush is held until the flush ends (R246, R393); one without core power is held until power
returns (Table 2-10). In cold reset, by PORST_N or by EDGE_PWR_OK, nothing starts. -/
def State.warmTrigger (s : State) (cause aux : Nat) : State :=
  if !s.edgeUp then s
  else if s.recov.warm.isSome then
    if cause = 1 ∧ s.recov.dump.isSome then s.endDump 2 else s
  else if s.flushAhead ∨ !s.edge.pins.corePwrOk then
    (if s.recov.warmHeld.isNone then { s with recov := { s.recov with warmHeld := some (cause, aux) } } else s)
  else s.beginWarm cause aux

/-- What was held for a PST flush or for core power goes on (R246, Table 2-10). -/
def State.warmRelease (s : State) : State :=
  if s.flushAhead ∨ !s.edge.pins.corePwrOk then s
  else match s.recov.warm, s.recov.warmHeld with
    | some w, _ => if w.step = .held then s.coreDown else s
    | none, some (c, a) => s.beginWarm c a
    | none, none => s

/-! ### The commands -/

/-- R393: a trigger with a cause of BLK_CAUSE, 1 to 6, that has no command of its own here. -/
def execWarmResetTrigger (cause : Nat) (s : State) : Result := .next (if 1 ≤ cause ∧ cause ≤ 6 then s.warmTrigger cause 0 else s)

/-- R393: BLK_CTRL.WARM is written 1. -/
def execBlkCtrlWarm (s : State) : Result := .next (s.warmTrigger 2 0)

/-- R393: BLK_CTRL.FENCE is written 1: a warm reset that ends in FENCED. -/
def execBlkCtrlFence (s : State) : Result := .next (s.warmTrigger 3 0)

/-- R388: a section reset passes 400 ms: the core takes a warm reset, but a section that was leaving service is isolated. -/
def execSectionResetTimeout (sec : Nat) (s : State) : Result :=
  match s.recov.resets.find (unitOfSec sec) with
  | some r =>
    if 8 ≤ sec ∨ s.now < r.startAt + 400000000 then .next s
    else if r.leaving then
      .next (s.leaveService (unitOfSec sec) { FaultRec.ofUnit (unitOfSec sec) 0x0B 5 with count := s.resetsInWindow (unitOfSec sec) })
    else .next (s.warmTrigger 4 sec)
  | none => .next s

/-- R399: the unit being read does not answer within 10 µs: it is recorded TIMEOUT with its last fault record, and the dump
goes on with the next. -/
def execDumpUnitTimeout (s : State) : Result :=
  match s.recov.dump with
  | some d =>
    if d.unitAt + 10000 ≤ s.now ∧ d.unit < dumpUnits then
      let s := (s.bumpF .FLT_DUMP_CTRL_TIMEOUTS 0).emit (.dumpUnit d.unit 1)
      .next { s with recov := { s.recov with dump := some { d with unit := d.unit + 1, unitAt := s.now } } }
    else .next s
  | none => .next s

/-- R399: a dump still running at 6 ms stops and is marked PARTIAL. -/
def execDumpTimeout (s : State) : Result :=
  match s.recov.dump with
  | some d => .next (if d.startAt + 6000000 ≤ s.now then s.endDump 2 else s)
  | none => .next s

end Sys2Proof.Machine
end

