-- ==== Sys2Proof/Machine/Sched.lean ====
section
/-!
DEFINITION. Contexts on cue cores (chapters 05, 08): which context a core chooses, loading and parking, stretches and
what they are charged to.
-/

namespace Sys2Proof.Machine

/-! ### Readiness (R218) -/

/-- Handles of a context that are BUSY, as a mask. -/
def Ctx.busy (x : Ctx) : Nat := maskOf ((List.range 16).filter (fun i => match x.h.toList.getD i .free with | .busy _ => true | _ => false))
/-- Handles of a context that are DONE, as a mask. -/
def Ctx.doneMask (x : Ctx) : Nat := maskOf ((List.range 16).filter (fun i => match x.h.toList.getD i .free with | .done _ => true | _ => false))

/-- The number of the next node that a runner starts: it takes the nodes in index order (R150). -/
def Runner.next (r : Runner) : Nat := r.ended.length + r.outstanding.length + b2n r.running.isSome

/-- Whether a runner can start its next node: every predecessor has ended and, but for a CUE node, fewer than 32 nodes are
outstanding (R150). -/
def Runner.canStart (r : Runner) (nodes : List CastNode) : Bool :=
  r.running.isNone && (match nodes[r.next]? with
    | some n => n.preds.all (fun p => r.ended.contains p) && (n.kind == 0 || decide (r.outstanding.length < 32))
    | none => false)

/-- The nodes of an item's cast. -/
def State.nodesOf (s : State) (x : Item) : List CastNode :=
  match x.castSlot with | some k => (match s.castVer k with | some v => v.nodes | none => []) | none => []

/-- Whether an item owns a context that runs on a core: a RUN, a LAUNCH that is no step request, or a step. -/
def Item.hasContext (x : Item) : Bool := x.step || x.desc.opc == 1 || (x.desc.opc == 2 && x.req.isNone)

/-- Whether an item's context is ready: nothing has stopped it, its model is not LOADING and it waits for no handle or node (R205,
R218). -/
def State.ready (s : State) (x : Item) : Bool :=
  x.hasContext && x.cause.isNone && x.waiting == 0 && !x.model.any (fun m => s.modelState m == 1) && (match x.runner with
    | none => true
    | some r => r.running.isSome || r.canStart (s.nodesOf x))

/-- The items whose contexts are ready on a core. -/
def State.readyOn (s : State) (c : Nat) : List (Nat × Item) := s.itemsWhere (fun (x : Item) => x.core == c && s.ready x)

/-! ### Which context a core runs (R218–R220, R234) -/

/-- When an item's promise ends; a step context has that of its earliest-ending member (R218). -/
def State.endsAt (s : State) (x : Item) : Nat :=
  if x.step then
    let ms := match x.model with
      | some m => match (s.chain m).steps.find? (fun (st : Step) => st.started || st.members != []) with
        | some st => st.members
        | none => []
      | none => []
    (ms.filterMap s.item).foldl (fun t (y : Item) => if t = 0 then y.acceptAt + y.promise else min t (y.acceptAt + y.promise)) 0
  else x.acceptAt + x.promise

/-- The item of a list whose promise ends first; ties fall to the earlier acceptance. -/
def State.earliest (s : State) (l : List (Nat × Item)) : Option (Nat × Item) :=
  l.foldl (fun b kv => match b with
    | none => some kv
    | some y => if s.endsAt kv.2 < s.endsAt y.2 then some kv else some y) none

/-- Whether a slice is floor-due in a section (R219); slice 0 always is (R328). -/
def State.floorDue (s : State) (slice sec : Nat) : Bool := slice == 0 || decide (0 < (s.creditNow (sec * 4096 + slice)).value)

/-- Whether a context fits a section's remaining grant, in mW·ns (R234). -/
def State.fits (s : State) (x : Item) : Bool :=
  match s.temper.grants.find (secOfCore x.core) with
  | some g => decide (((x.energy * 1000000 * scale x.sAdm 100000 : Nat) : Int) ≤ g * (max 1 x.runTime : Nat))
  | none => false

/-- What each round adds to a slice's deficit: TURN_US × BE_WEIGHT µs (R220). -/
def State.quantum (s : State) (slice : Nat) : Nat := max 1 (s.getF .SRV_CTRL_TURN_US 0 * max 1 (s.getF .SRV_SLC_CFG_BE_WEIGHT slice) * 1000)

/-- Rounds that a slice needs until its deficit is positive, at least one. -/
def State.roundsFor (s : State) (c slice : Nat) : Nat :=
  let d := s.deficitOf c slice
  if 0 < d then 1 else (-d).toNat / s.quantum slice + 1

/-- The slices in the order in which turns come to them: those above the last served, then the others (DESIGN CHOICE: the
spec gives no order among slices, log entry 32). -/
def turnOrder (last : Option Nat) (l : List Nat) : List Nat :=
  match last with
  | some t => l.filter (fun x => decide (t < x)) ++ l.filter (fun x => decide (x ≤ t))
  | none => l

/-- Insert a number in a rising list without repeats. -/
def insertNat (n : Nat) : List Nat → List Nat
  | [] => [n]
  | x :: t => if n < x then n :: x :: t else if n = x then x :: t else x :: insertNat n t

/-- The slices of a list of items, rising. -/
def slicesOf (l : List (Nat × Item)) : List Nat := l.foldl (fun t kv => insertNat kv.2.slice t) []

/-- The slice whose turn comes next among some, with the rounds that pass (R220). -/
def State.nextTurn (s : State) (c : Nat) (order : List Nat) : Option (Nat × Nat) :=
  order.foldl (fun b sl => match b with
    | none => some (sl, s.roundsFor c sl)
    | some (t, r) => if s.roundsFor c sl < r then some (sl, s.roundsFor c sl) else some (t, r)) none

/-- Deficits after `r` rounds end at slice `w` of the order: slices up to it in the last round are added `r` times, those
after it once less. -/
def State.addRounds (s : State) (c w r : Nat) (order : List Nat) : State :=
  let upTo := order.takeWhile (fun x => decide (x ≠ w)) ++ [w]
  { s with work := { s.work with deficit := order.foldl (fun (t : Tbl Int) sl =>
      let n := if upTo.contains sl then r else r - 1
      t.put (c * 4096 + sl) (t.findD (c * 4096 + sl) 0 + (n * s.quantum sl : Nat))) s.work.deficit } }

/-- Discard the positive deficit of slices with no ready BE context on a core (R220). -/
def State.dropIdle (s : State) (c : Nat) (busy : List Nat) : State :=
  { s with work := { s.work with deficit := s.work.deficit.keep (fun k (d : Int) => k / 4096 != c || busy.contains (k % 4096) || decide (d < 0)) } }

/-- The BE context next by turns among those that fit, and the state with the turn taken (R220, R234). -/
def State.chooseTurn (s : State) (c : Nat) (be : List (Nat × Item)) : Option Nat × State :=
  let fit := be.filter (fun kv => s.fits kv.2)
  let slices := slicesOf fit
  let k := s.core c
  let first (sl : Nat) : Option Nat := (fit.find? (fun kv => kv.2.slice == sl)).map (fun kv => kv.1)
  match k.turn with
  | some t =>
    if slices.contains t ∧ 0 < s.deficitOf c t then (first t, s)
    else match s.nextTurn c (turnOrder (some t) slices) with
      | some (w, r) => (first w, (s.addRounds c w r (turnOrder (some t) slices)).setCore c { k with turn := some w })
      | none => (none, s)
  | none => match s.nextTurn c slices with
    | some (w, r) => (first w, (s.addRounds c w r slices).setCore c { k with turn := some w })
    | none => (none, s)

/-- R218: the context that a core runs next, and whether it runs ahead on a grant. `holdBe` holds BE contexts that are not
floor-due (R236). -/
def State.choose (s : State) (c : Nat) : Option (Nat × Bool) × State :=
  let rs := s.readyOn c
  let lc := rs.filter (fun kv => kv.2.cls == Cls.lc)
  let be := rs.filter (fun kv => kv.2.cls == Cls.be)
  let s := s.dropIdle c (slicesOf be)
  let due := be.filter (fun kv => s.floorDue kv.2.slice (secOfCore c))
  match s.earliest lc with
  | some (i, _) => (some (i, false), s)
  | none => match s.earliest due with
    | some (i, _) => (some (i, false), s)
    | none =>
      if s.temper.holdBe then (none, s)
      else match s.chooseTurn c be with
        | (some i, s) => (some (i, true), s)
        | (none, s) => (none, s)

/-! ### Loading and parking (R117, R119) -/

/-- Whether an item's context stands in steward code: its runner, or a backend's adapter (R150, R167). -/
def State.stewardCode (s : State) (x : Item) : Bool :=
  match x.runner with
  | none => false
  | some r => match r.running with
    | none => true
    | some n => match (s.nodesOf x)[n]? with | some nd => nd.kind == 2 | none => true

/-- A cast runner with no node started. -/
def Runner.fresh : Runner := ⟨[], [], none, 0⟩

/-! ### Steps that are due (R213) -/

/-- The step of a model that may start: the first with members, while none runs, the model is RESIDENT and the step before has
ended, its context with it, and its completions are written. -/
def State.dueStep (s : State) (m : Nat) : Option Step :=
  let c := s.chain m
  let open_ := c.last.any (fun i => (s.item i).isSome)
  let unwritten := open_ || s.work.queues.any (fun (kv : Nat × QueueX) => (kv.2.ordered ++ kv.2.held ++ kv.2.posted).any (fun p => c.last.contains p.num))
  let lingers := s.work.items.any (fun (kv : Nat × Item) => kv.2.step && kv.2.started && kv.2.model == some m)
  if !s.resident m || unwritten || lingers || c.steps.any (fun (st : Step) => st.started) then none
  else c.steps.find? (fun (st : Step) => st.members != [])

/-- The descriptor that stands for a step: a LAUNCH of no queue. -/
def stepDesc : Desc := parseDesc (2 :: List.replicate 63 0) false 0

/-- The context of a step (R213): slice 0, at LC when any member is LC, granted every engine of the model's sections for which its step holds a
reservation (R192, R211); R148 stops it at its reserved length. -/
def State.stepItem (s : State) (m core : Nat) (st : Step) (v : CastVer) (base : Nat) : Item :=
  let cls := if st.members.any (fun i => match s.item i with | some x => x.cls == Cls.lc | none => false) then Cls.lc else Cls.be
  let secs := s.modelSecs m
  let tes := maskOf ((secsOf (maskOf secs)).flatMap (fun k => ((List.range 6).map (6 * k + ·)).filter (fun t => st.tes.testBit t && !s.teOos t)))
  { queue := 0xFFFF, slice := 0, desc := stepDesc, cls := cls, core := core, acceptAt := s.now,
    promise := st.duration + tBlock s.sg + tDone s.sg, timeout := 0, sAdm := s.sg, boundCore := v.boundCore, boundFix := v.boundFix,
    energy := s.energyOf v.energyRef, power := 0, bytes := 0, loadPower := 0, group := maskOf secs, ledger := false,
    teGrant := tes, meGrant := s.grantMes secs cls,
    ctx := entryCtx stepDesc 0 base (v.windowKib * 1024) (s.getF .PRM_REMOTE_RT_REMOTE_RT 0), phase := .accepted, started := false,
    winBase := base, winSize := v.windowKib * 1024, hasWindow := v.windowKib != 0, castSlot := some st.castSlot, model := some m,
    step := true, runner := none, durResv := 0, links := [], bkOps := [], cause := none, withdrawn := none, stopAt := none,
    doneResult := none, seqKey := none, req := none, newPages := [], isOpen := false, waiting := 0, vCode := s.commitCode,
    rt := s.getF .PRM_REMOTE_RT_REMOTE_RT 0, resv := none, broken := false }

/-- Put the contexts of the steps due on a core among the items, so that the core's choice counts them. -/
def State.stageSteps (s : State) (c : Nat) : State :=
  let ms := (s.serve.chains.map (fun (kv : Nat × Chain) => kv.1)).filter (fun m => s.coreOfModel m == some c)
  s.each ms (fun s m => match s.dueStep m with
    | none => s
    | some st => match s.castVer st.castSlot with
      | none => s
      | some v => match s.windowBase c (v.windowKib * 1024) with
        | none => s
        | some base =>
          let i := s.work.nextItem
          let s := s.setItem i (s.stepItem m c st v base)
          { s with work := { s.work with nextItem := i + 1 } })

/-- Take the contexts of the steps that were not chosen out again. -/
def State.unstage (s : State) (next : Nat) : State :=
  let items := s.work.items.keep (fun _ (x : Item) => !x.step || x.started)
  { s with work := { s.work with items := items, nextItem := if items.any (fun (kv : Nat × Item) => decide (next ≤ kv.1)) then s.work.nextItem else next } }

/-- A step starts (R213): its members are fixed, their waiting is counted (R225), and its window is cleared. -/
def State.beginStep (s : State) (x : Item) : State :=
  match x.model with
  | some m =>
    let c := s.chain m
    let mine := (c.steps.find? (fun (st : Step) => st.members != [])).getD ⟨0, 0, 0, 0, [], [], false, 0, none, [], 0⟩
    let rest := (c.steps.dropWhile (fun (st : Step) => st.members == [])).drop 1
    let s := s.setChain m { c with steps := { mine with started := true, core := x.core } :: rest, last := [], number := (c.number + 1) % 2 ^ 32 }
    let s := s.each mine.members (fun s i => match s.item i with
      | some y => s.addNs .SRV_SLC_STEPWAIT_COUNT y.slice (s.now - y.acceptAt)
      | none => s)
    let k' := s.core x.core
    if x.hasWindow then s.setCore x.core { k' with store := clearStore k'.store x.winBase x.winSize } else s
  | none => s

/-- Mark the entries of members that were withdrawn, or stopped by a reset of their slice, DROPPED in a step's batch table (Table 8-4). -/
def State.markDropped (s : State) (st : Step) : State :=
  match st.table with
  | none => s
  | some t => s.each st.seats.zipIdx (fun s p =>
      let a := t + 64 * (p.2 + 1) + 4
      if (s.item p.1.item).all (fun y => y.cause.isSome || y.withdrawn.isSome) then s.stageWrite a ((s.stageRead a 1).map (· ||| 8)) else s)

/-- The members of a running step that were withdrawn or reset are marked DROPPED at its yield point, and those withdrawn are released there
(Table 8-5). -/
def State.dropMembers (s : State) (x : Item) : State :=
  match x.step, x.model with
  | true, some m =>
    let run := (s.chain m).steps.filter (fun (st : Step) => st.started)
    let s := s.each run State.markDropped
    let ms := run.flatMap (fun (st : Step) => st.members)
    s.each ms (fun s i => match (s.item i).bind (fun y => y.withdrawn) with
      | some w => s.finishCause i w
      | none => s)
  | _, _ => s

/-- Load an item's context on a core; its stretch begins, and so does a step not yet started. A LAUNCH runs under the cast runner (R150). -/
def State.loadCtx (s : State) (c i : Nat) (ahead : Bool) : State :=
  match s.item i with
  | none => s
  | some x =>
    let x := if x.runner.isNone && x.desc.opc == 2 then { x with runner := some Runner.fresh } else x
    let s := s.setCore c { s.core c with
      item := some i, ctx := x.ctx, priv := s.stewardCode x, exl := false, stretchAt := s.now, serviceAt := none, ahead := ahead,
      yielded := true }
    let s := s.setItem i { x with phase := .running, started := true }
    if x.step && !x.started then s.beginStep x else s

/-- Whether a core may take up a context: up, not halted, with none loaded and not inside an exception or an adapter's entry. -/
def State.idleCore (s : State) (c : Nat) : Bool :=
  s.coreUp c && !s.bitF .CUE_DBG_CTRL_HALTED c && (s.core c).item.isNone && !(s.core c).exl && (s.core c).reading.isNone

/-- An idle core with a ready context runs the one that it chooses, the steps due there among them (R213, R218). -/
def State.dispatch (s : State) (c : Nat) : State :=
  if s.idleCore c then
    match (s.stageSteps c).choose c with
    | (some (i, a), t) => (t.loadCtx c i a).unstage s.work.nextItem
    | (none, t) => t.unstage s.work.nextItem
  else s

/-- Park the context that a core runs in its record, waiting for the handles of a mask (R117). The record is kept beside the local store,
whose bytes at 0x1_0000–0x1_7FFF it leaves as they are (DESIGN CHOICE, log entry 87: the spec gives the record no layout). -/
def State.park (s : State) (c waiting : Nat) : State :=
  let k := s.core c
  match k.item with
  | none => s
  | some i => (s.updItem i (fun x => { x with ctx := k.ctx, phase := .parked, waiting := waiting })).setCore c k.unloaded

/-! ### Stretches (R128, R219–R221) -/

/-- A slice suffers a pre-emption: its ready context was parked for another slice's (R222). -/
def State.notePreempt (s : State) (from_ to_ : Nat) : State :=
  match s.item from_, s.item to_ with
  | some x, some y => if x.slice ≠ y.slice then s.incF .SRV_SLC_PREEMPT_COUNT x.slice else s
  | _, _ => s

/-- What happens at every yield point: the stretch closes, and a step drops its withdrawn members. -/
def State.atYield (s : State) (c : Nat) : State :=
  let s := s.closeStretch c
  match (s.core c).item.bind s.item with
  | some x => s.dropMembers x
  | none => s

/-- The yield point of a context that must wait for handles: a withdrawn item stops, another is parked, and the core runs
the context it chooses (R128). -/
def State.yieldWait (s : State) (c waiting : Nat) : State :=
  let s := s.atYield c
  match (s.core c).item with
  | none => s
  | some i =>
    match (s.item i).bind (fun x => x.withdrawn) with
    | some w => ((s.park c 0).stopItem i w).dispatch c
    | none => (s.park c waiting).dispatch c

/-- The yield point of a context that could go on: a withdrawn item stops; another context that the scheduler wants is run
instead; else the context continues (R128, R218). -/
def State.yieldPoint (s : State) (c : Nat) : State :=
  let s := s.atYield c
  match (s.core c).item with
  | none => s
  | some i =>
    match (s.item i).bind (fun x => x.withdrawn) with
    | some w => ((s.park c 0).stopItem i w).dispatch c
    | none =>
      match (s.stageSteps c).choose c with
      | (some (j, a), t) =>
        let t := if j = i then t.setCore c { t.core c with ahead := a, yielded := true } else ((t.notePreempt i j).park c 0).loadCtx c j a
        t.unstage s.work.nextItem
      | (none, t) => (t.park c 0).unstage s.work.nextItem

/-- A handle of a context changes state; one that waits is woken when its wait is over (R126). Bit 16 of `waiting` says that
any one handle is enough. -/
def Item.wake (x : Item) : Item :=
  let mask := x.waiting % 2 ^ 16
  let any := x.waiting.testBit 16
  if x.waiting = 0 then x
  else if x.ctx.busy &&& mask = 0 ∨ (any ∧ x.ctx.doneMask &&& mask ≠ 0) then { x with waiting := 0 } else x

/-- Set a handle of an item's context, where it is: loaded on its core or in its record. -/
def State.setHandle (s : State) (i h : Nat) (v : HState) : State :=
  match s.item i with
  | none => s
  | some x =>
    let k := s.core x.core
    let set (y : Ctx) : Ctx := { y with h := y.h.setIfInBounds h v }
    if k.item = some i then
      s.setCore x.core (match k.reading with | some r => { k with reading := some { r with ctx := set r.ctx } } | none => { k with ctx := set k.ctx })
    else
      let s := s.dropIdle x.core (slicesOf ((s.readyOn x.core).filter (fun kv => kv.2.cls == Cls.be)))
      s.updItem i (fun x => { x with ctx := set x.ctx }.wake)

/-! ### The commands that start items (R119, R150) -/

/-- Start an accepted item on its core, if the core is idle and the item is the context that R218 chooses there. -/
def State.startItem (s : State) (i opc : Nat) : State :=
  match s.live i opc with
  | none => s
  | some x =>
    if x.started ∨ !x.hasContext ∨ !s.idleCore x.core then s
    else match (s.stageSteps x.core).choose x.core with
      | (some (j, a), s') => if j = i then (s'.loadCtx x.core i a).unstage s.work.nextItem else s
      | (none, _) => s

/-- R119: a RUN item starts at CUE_ENTRY, at guest privilege, with the registers of Table 5-5. -/
def execRun (item : Nat) (s : State) : Result := .next (s.startItem item 1)

/-- R150: a LAUNCH starts in one context under the cast runner, no node started. -/
def execLaunch (item : Nat) (s : State) : Result := .next (s.startItem item 2)

end Sys2Proof.Machine
end

