-- ==== Sys2Proof/Machine/Operands.lean ====
section
/-!
DEFINITION. Operand forms of the Cue instructions (Tables 5-1, 5-6, 5-9a): registers, predicates, immediates, and window
operands in the local store.
-/

namespace Sys2Proof.Machine

/-! ### Registers and predicates (R113) -/

/-- A register as read: g0 reads zero. -/
def Ctx.rd (x : Ctx) (r : BitVec 5) : Word := if r = 0 then 0 else x.g.toList.getD r.toNat 0
/-- A register written: writes to g0 are ignored. -/
def Ctx.wr (x : Ctx) (r : BitVec 5) (v : Word) : Ctx := if r = 0 then x else { x with g := x.g.setIfInBounds r.toNat v }
/-- A predicate as read: p0 reads 1. -/
def Ctx.rdP (x : Ctx) (p : BitVec 3) : Bool := if p = 0 then true else x.p.toList.getD p.toNat false
/-- A predicate written: writes to p0 are ignored. -/
def Ctx.wrP (x : Ctx) (p : BitVec 3) (v : Bool) : Ctx := if p = 0 then x else { x with p := x.p.setIfInBounds p.toNat v }
/-- The state of a handle. -/
def Ctx.rdH (x : Ctx) (h : Nat) : HState := x.h.toList.getD h .free
/-- A handle set. -/
def Ctx.wrH (x : Ctx) (h : Nat) (v : HState) : Ctx := { x with h := x.h.setIfInBounds h v }

/-! ### Immediates (Tables 5-6, 5-7) -/

/-- A sign-extended 12-bit immediate. -/
def sext12 (i : BitVec 12) : Word := i.signExtend 64
/-- A zero-extended 12-bit immediate. -/
def zext12 (i : BitVec 12) : Word := i.setWidth 64
/-- The value of LUI: its sign-extended immediate shifted left by 12. -/
def luiValue (i : BitVec 17) : Word := i.signExtend 64 <<< 12
/-- A branch displacement in bytes: four times its sign-extended immediate. -/
def branchOff (i : BitVec 22) : Word := i.signExtend 64 <<< 2
/-- The address of a load or a store: the base register plus the sign-extended immediate. -/
def Ctx.ea (x : Ctx) (ra : BitVec 5) (imm : BitVec 12) : Word := x.rd ra + sext12 imm

/-! ### The ALU group (Table 5-8) -/

/-- Arithmetic shift right. -/
def sraW (a : Word) (n : Nat) : Word := a.sshiftRight n
/-- High half of the signed product. -/
def mulhW (a b : Word) : Word := BitVec.ofInt 64 (a.toInt * b.toInt / 2 ^ 64)
/-- High half of the unsigned product. -/
def mulhuW (a b : Word) : Word := BitVec.ofNat 64 (a.toNat * b.toNat / 2 ^ 64)
/-- Signed minimum. -/
def minW (a b : Word) : Word := if a.slt b then a else b
/-- Signed maximum. -/
def maxW (a b : Word) : Word := if a.slt b then b else a
/-- Unsigned minimum. -/
def minuW (a b : Word) : Word := if a.ult b then a else b
/-- Unsigned maximum. -/
def maxuW (a b : Word) : Word := if a.ult b then b else a
/-- Count of set bits. -/
def popcW (a : Word) : Word := BitVec.ofNat 64 ((List.range 64).countP (fun i => a.getLsbD i))
/-- Leading zero bits, 64 for zero. -/
def clzW (a : Word) : Word := BitVec.ofNat 64 (((List.range 64).map (fun i => a.getLsbD (63 - i))).takeWhile (fun b => !b)).length

/-! ### Window operands (R116, R125) -/

/-- Position in the local store of `n` bytes at a window offset, if they lie in the window of the context and in the store. -/
def Ctx.window (x : Ctx) (off n : Nat) : Option Nat :=
  if off + n ≤ x.lsSize ∧ x.lsBase + off + n ≤ 0x40000 then some (x.lsBase + off) else none

/-- Bytes of a core's local store. -/
def Core.lsRead (k : Core) (a n : Nat) : List Byte := cellsGet k.store a n
/-- Write bytes of a core's local store. -/
def Core.lsWrite (k : Core) (a : Nat) (b : List Byte) : Core := { k with store := cellsPut k.store a b }

/-- Bytes of an access by its size code: B, H, W, D are 0 to 3. -/
def sizeOf (code : Nat) : Nat := 2 ^ code

end Sys2Proof.Machine
end

