-- ==== Sys2Proof/Machine/Flags.lean ====
section
/-!
DEFINITION. Predicates of the Cue instructions: guards (R122), comparisons and predicate operations (Table 5-7).
-/

namespace Sys2Proof.Machine

/-- A guard holds when p(PG) XOR PN is 1 (R122). -/
def Ctx.guardOk (x : Ctx) (g : Guard) : Bool := x.rdP g.pg != g.pn

/-- Conditions of CMP and CMPI. -/
inductive Cond where
  | eq
  | ne
  | lt
  | ltu
  | ge
  | geu
deriving DecidableEq, Repr

/-- Whether a condition holds of two words: LT and GE signed, LTU and GEU unsigned. -/
def Cond.holds (c : Cond) (a b : Word) : Bool :=
  match c with
  | .eq => a == b
  | .ne => a != b
  | .lt => a.slt b
  | .ltu => a.ult b
  | .ge => !a.slt b
  | .geu => !a.ult b

/-- Operations of PSET. -/
inductive PredOp where
  | and
  | or
  | xor
  | andn
deriving DecidableEq, Repr

/-- The value that PSET gives. -/
def PredOp.apply (o : PredOp) (a b : Bool) : Bool :=
  match o with
  | .and => a && b
  | .or => a || b
  | .xor => a != b
  | .andn => a && !b

end Sys2Proof.Machine
end

