-- ==== Sys2Proof/Machine/Staging.lean ====
section
/-!
DEFINITION. What the steward writes before the first node of a step (R213, R214): the batch table, the page directories and the
members' input. The spec gives the places no addresses, so each is a free value (DESIGN CHOICE, log entry 28).
-/

namespace Sys2Proof.Machine

/-! ### Causes -/

/-- Stop an item, and let its core take up another context. -/
def State.endContext (s : State) (i : Nat) (c : EndCause) : State :=
  match s.item i with
  | some x => (s.stopItem i c).dispatch x.core
  | none => s

/-- Count an exception in CUE_CAUSE. -/
def State.noteExc (s : State) (c code : Nat) : State := (s.setF .CUE_CAUSE_CAUSE c code).bumpF .CUE_CAUSE_COUNT c

/-- An engine's operation raises a cause of Table 5-10: it is the last cause of its item's core, and ends the item (R146). -/
def State.engineExc (s : State) (i code : Nat) (c : EndCause) : State :=
  match s.item i with
  | some x => (if x.cause.isNone then s.noteExc x.core code else s).endContext i c
  | none => s

/-- A failed engine node, by a refusal or an expiry: ST_FAULT, EDGE (R425). -/
def causeEdge : EndCause := ⟨3, 5, true, none, none⟩
/-- A failed translation with its reason (Table 5-10). -/
def causeXlate (reason : Nat) : EndCause := ⟨8, reason, true, none, none⟩
/-- Poisoned or LOST data: the promise is void, row 0 of Table 3-6. -/
def causePoison : EndCause := ⟨4, 0, true, none, some 0⟩

/-- An engine's translation fails (R134). -/
def State.engineXlate (s : State) (i reason : Nat) : State := s.engineExc i (0x0F + reason) (causeXlate reason)
/-- An engine reads poisoned data (R134). -/
def State.enginePoison (s : State) (i : Nat) : State := s.engineExc i 0x14 causePoison

/-- How a member ends whose input cannot be read. -/
def readCause : Read → EndCause
  | .xlate r => causeXlate r
  | .poison => causePoison
  | .refused 5 _ => ⟨5, 0, true, none, none⟩
  | _ => causeEdge

/-! ### Places -/

/-- An address that the spec leaves open, aligned to 64 KiB. -/
def State.freePlace (s : State) : Nat × State :=
  let (w, s) := s.freeWord
  (w.toNat % 2 ^ 48 / 65536 * 65536, s)

/-- Put a body at a place of a model's staging area; the place. -/
def State.putStage (s : State) (m : Nat) (body : KeptBody) : Nat × State :=
  let (a, s) := s.freePlace
  (a, { s with serve := { s.serve with stage := ⟨m, a, body⟩ :: s.serve.stage } })

/-- Put bytes at a place of a model's staging area, with zeros up to a whole page; the place. -/
def State.putBytes (s : State) (m : Nat) (b : List Byte) : Nat × State :=
  s.putStage m (.bytes (fit (ceilDiv (max 1 b.length) 4096 * 4096) b))

/-- The KV pages of a sequence, by node offset: page j of layer l is page j × LAYERS + l of the order in which it took them (DESIGN
CHOICE, log entry 76). -/
def State.kvPages (s : State) (q : Seq) : List Nat := q.pages.map (fun p => s.kvBase q.lcPool q.sec + p * 65536)

/-- The page directory of a sequence of `n` pages a layer: for each layer the address of its list, then the lists (Table 8-4);
`pages` is the address of the sequence's first page. -/
def directory (layers n base pages : Nat) : List Byte :=
  (List.range layers).flatMap (fun l => bytesLE 8 (base + 8 * layers + 8 * n * l)) ++
    (List.range layers).flatMap (fun l => (List.range n).flatMap (fun j => bytesLE 8 (pages + 65536 * (j * layers + l))))

/-- Lay out a sequence's pages and their directory for a step; the directory's address (Table 8-4). -/
def State.putDirectory (s : State) (m kvLen : Nat) (q : Seq) : Nat × State :=
  let layers := s.getF .SRV_MDL_KV_LAYERS m
  let n := ceilDiv kvLen (s.getF .SRV_MDL_KV_KV_TOK m)
  let (p, s) := s.putStage m (.pages (s.kvPages q))
  let (a, s) := s.freePlace
  let d := directory layers n a p
  (a, { s with serve := { s.serve with stage := ⟨m, a, .bytes (fit (ceilDiv (max 1 d.length) 4096 * 4096) d)⟩ :: s.serve.stage } })

/-! ### The batch table (R214) -/

/-- An entry of the batch table (Table 8-4). -/
def batchRow (slice seqId mflags section_ qLen kvLen qRow pages inAt outAt outLen result : Nat) : List Byte :=
  bytesLE 2 slice ++ bytesLE 2 seqId ++ bytesLE 1 mflags ++ bytesLE 1 section_ ++ bytesLE 2 qLen ++ bytesLE 4 kvLen ++ bytesLE 4 qRow ++
    bytesLE 8 pages ++ bytesLE 8 inAt ++ bytesLE 8 outAt ++ bytesLE 4 outLen ++ bytesLE 4 0 ++ bytesLE 8 result ++ bytesLE 8 0

/-- The header of the batch table (Table 8-3). -/
def batchHeader (count cls step tokens rows : Nat) : List Byte :=
  bytesLE 2 count ++ bytesLE 1 cls ++ bytesLE 1 0 ++ bytesLE 4 step ++ bytesLE 4 tokens ++ bytesLE 4 rows ++ List.replicate 48 0

/-- What the steward has prepared of a batch: the entries, the seats, the sums of TOKENS and of Q_LEN, and the members whose input
failed. -/
structure Batch where
  rows : List Byte
  seats : List Seat
  tokens : Nat
  qRows : Nat
  failed : List (Nat × EndCause)
deriving DecidableEq, Repr

/-- Copy a member's input tokens into the staging area, through the member's own translation (R213): the staged address, zero
without PREFILL. -/
def State.stageInput (s : State) (m sec : Nat) (y : Item) (r : StepReq) (rs : List Ext) : Except EndCause Nat × List Ext × State :=
  if !y.desc.seq.testBit 18 then (.ok 0, rs, s)
  else match s.readGuest sec ⟨y.slice, none, false⟩ r.inAddr (4 * r.tokens) rs with
    | (.bytes b, rs, s) => let (a, s) := s.putBytes m b; (.ok a, rs, s)
    | (e, rs, s) => (.error (readCause e), rs, s)

/-- Whether a member of a running step is to be marked DROPPED: withdrawn, or stopped by a reset of its slice (Table 8-5). -/
def State.leaving (s : State) (i : Nat) : Bool := (s.item i).all (fun y => y.cause.isSome || y.withdrawn.isSome)

/-- Prepare one member: its input, its output, its directory, its entry. A member whose input fails has no entry, and ends by itself
(DESIGN CHOICE, log entry 76). RESULT and the output hold free values until the cast writes them. -/
def State.stageMember (s : State) (m sec i : Nat) (b : Batch) (rs : List Ext) : Batch × List Ext × State :=
  match s.item i with
  | none => (b, rs, s)
  | some y => match y.req, y.seqKey.bind (fun k => s.serve.seqs.find k) with
    | some r, some q => match s.stageInput m sec y r rs with
      | (.error e, rs, s) => ({ b with failed := b.failed ++ [(i, e)] }, rs, s)
      | (.ok inAt, rs, s) =>
        let (o, s) := s.freeBytes r.outLen
        let (outAt, s) := s.putBytes m o
        let (dir, s) := s.putDirectory m (q.kvLen + r.qLen) q
        let (w, s) := s.freeWord
        let flags := y.desc.seq / 65536 % 8 + 8 * b2n (s.leaving i)
        ({ rows := b.rows ++ batchRow y.slice (y.desc.seq % 65536) flags q.sec r.qLen (q.kvLen + r.qLen) b.qRows dir inAt outAt r.outLen w.toNat
           seats := b.seats ++ [⟨i, outAt⟩], tokens := b.tokens + r.tokens, qRows := b.qRows + r.qLen, failed := b.failed }, rs, s)
    | _, _ => (b, rs, s)

/-- Prepare the members of a step in order. -/
def State.stageMembers (s : State) (m sec : Nat) : List Nat → Batch → List Ext → Batch × State
  | [], b, _ => (b, s)
  | i :: rest, b, rs =>
    let (b, rs, s) := s.stageMember m sec i b rs
    s.stageMembers m sec rest b rs

/-- A member ends by itself while its step runs on for the others. -/
def State.leaveEarly (s : State) (i : Nat) (e : EndCause) : State :=
  (match e.void with | some r => s.incF .PRM_VOIDED_COUNT r | none => s).finishCause i e

/-- The running step of a step's context. -/
def State.runningStep (s : State) (x : Item) : Option Step :=
  match x.step, x.model with
  | true, some m => (s.chain m).steps.find? (fun (st : Step) => st.started)
  | _, _ => none

/-- Where the batch table of a step's context stands, once it is written. -/
def State.tableOf (s : State) (x : Item) : Option Nat := (s.runningStep x).bind (fun st => st.table)

/-- Write the batch table of a model's running step (R214), with what it points to; STEP counts the steps of the chain from 0. -/
def State.stageStep (s : State) (m : Nat) (x : Item) (st : Step) (rs : List Ext) : State :=
  let s := s.clearStage m
  let (b, s) := s.stageMembers m (secOfCore x.core) st.members ⟨[], [], 0, 0, []⟩ rs
  let step := ((s.chain m).number + 2 ^ 32 - 1) % 2 ^ 32
  let (t, s) := s.putBytes m (batchHeader b.seats.length (clsNum x.cls) step b.tokens b.qRows ++ b.rows)
  let c := s.chain m
  let s := s.setChain m { c with steps := c.steps.map (fun (z : Step) => if z.started then { z with table := some t, seats := b.seats } else z) }
  s.each b.failed (fun s p => s.leaveEarly p.1 p.2)

/-- Before the first node of a step starts, the steward prepares it (R213); a step with no member left stops there. -/
def State.stageFirst (s : State) (i : Nat) (x : Item) (rs : List Ext) : State :=
  match s.runningStep x, x.model with
  | some st, some m =>
    if st.table.isSome then s
    else
      let s := s.stageStep m x st rs
      if (s.runningStep x).any (fun z => z.seats == []) then s.endContext i ⟨3, 2, true, none, none⟩ else s
  | _, _ => s

end Sys2Proof.Machine
end

