-- ==== Sys2Proof/Machine/Launch.lean ====
section
/-!
DEFINITION. How the nodes of a cast run (chapter 06): the runner's starts and ends, the hand-over of operations to engines,
and the adapters of backends.
-/

namespace Sys2Proof.Machine

/-! ### Ends -/

/-- Whether every node of a runner has ended. -/
def Runner.finished (r : Runner) (nodes : List CastNode) : Bool := decide (nodes.length ≤ r.ended.length)

/-- A node ends with a value: the RESULT node's value is kept, and the item completes ST_OK when its last node ends (R151); the
members of a step complete with STEP_END. -/
def State.endNode (s : State) (i n : Nat) (v : Word) : State :=
  match s.item i with
  | none => s
  | some x => match x.runner with
    | none => s
    | some r =>
      let nodes := s.nodesOf x
      let r := { r with
        ended := addNew r.ended n, outstanding := r.outstanding.filter (· ≠ n), running := if r.running = some n then none else r.running,
        result := if (nodes[n]?).any (fun (d : CastNode) => d.result) then v else r.result }
      let s := s.updItem i (fun x => { x with runner := some r })
      if x.cause.isSome ∨ !r.finished nodes then s.dispatch x.core
      else if x.step then (s.unload i).dispatch x.core
      else (s.finishOk i r.result).dispatch x.core

/-- A backend's failure (R168). -/
def causeBackend : EndCause := ⟨3, 7, true, none, none⟩

/-- An engine operation ends with an outcome: its handle is DONE, or its node ends (R115, R151, R425). -/
def State.opDone (s : State) (o : Nat) (x : Op) (out : Outcome3) (result : Word) : State :=
  let s := s.delOp o
  match x.handle, x.node with
  | some h, _ => match s.item x.item with
    | some y => (s.setHandle x.item h (.done out)).dispatch y.core
    | none => s
  | none, some n => if out = .ok then s.endNode x.item n result else s.endContext x.item causeEdge
  | none, none => s

/-! ### Operations for engines (R125, R150, R185) -/

/-- The lowest engine of a mask that satisfies a test, those of section `k` first. -/
def pickUnit (mask n per k : Nat) (ok : Nat → Bool) : Option Nat :=
  let l := (List.range n).filter (fun u => mask.testBit u && ok u)
  match l.find? (fun u => u / per == k) with
  | some u => some u
  | none => l.head?

/-- A granted tensor engine in service, one that is not in reset and of the core's own section first (R125). -/
def State.pickTe (s : State) (mask c : Nat) : Option Nat :=
  match pickUnit mask 48 6 (secOfCore c) (fun t => !s.teOos t && !s.inReset (unitOfTe t)) with
  | some t => some t
  | none => pickUnit mask 48 6 (secOfCore c) (fun t => !s.teOos t)

/-- A granted move engine in service, chosen in the same way. -/
def State.pickMe (s : State) (mask c : Nat) : Option Nat :=
  match pickUnit mask 32 4 (secOfCore c) (fun m => !s.meOos m && !s.inReset (unitOfMe m)) with
  | some m => some m
  | none => pickUnit mask 32 4 (secOfCore c) (fun m => !s.meOos m)

/-- An operation that has done nothing. -/
def TenRun.fresh : TenRun := ⟨0, ⟨0, 0, 0, false⟩, none, false, [], [], [], ⟨0, 0, [], [], [], []⟩⟩

/-- An operation with nothing in it. -/
def Op.blank (item : Nat) (x : Item) (on : UnitId) (now : Nat) : Op :=
  { item := item, handle := none, node := none, on := on, te := 0, cls := x.cls, slice := x.slice, tod := [], todWin := 0, src := 0, srcWin := false,
    dst := 0, dstWin := false, len := 0, zero := false, phase := .waiting, cancelled := false, issuedAt := now, startedAt := 0,
    progressAt := now, outcome := .ok, moved := 0, run := TenRun.fresh }

/-- Put an operation into a unit's store. -/
def State.addOp (s : State) (o : Op) : State :=
  { s with work := { s.work with ops := s.work.ops.put s.work.nextOp o, nextOp := s.work.nextOp + 1 } }

/-- Bytes of the descriptor whose first bytes are given: 192 where its LEN is 3, else 128 (R185). -/
def todLen (b : List Byte) : Nat := if fieldLE b 2 1 = 3 then 192 else 128

/-- The unit that runs a descriptor issued to a tensor engine: an ATTEND goes to the section's attention unit (R189). -/
def todUnit (tod : List Byte) (te : Nat) : UnitId := if fieldLE tod 0 1 = 6 then .att (secOfTe te) else .te te

/-- Hand a tensor operation to an engine. -/
def State.issueTod (s : State) (i : Nat) (x : Item) (handle node : Option Nat) (te : Nat) (tod : List Byte) (win : Nat) : State :=
  s.addOp { Op.blank i x (todUnit tod te) s.now with te := te, handle := handle, node := node, tod := tod, todWin := win }

/-! ### Starting a node (R150, R151, R167) -/

/-- The registers that a CUE node enters with: Table 5-5 with g7 and g8 (R151). -/
def nodeCtx (x : Item) (n pc batch : Nat) : Ctx :=
  let c := entryCtx x.desc x.slice x.winBase x.winSize x.rt
  { c with pc := BitVec.ofNat 64 pc, g := (c.g.setIfInBounds 7 (BitVec.ofNat 64 n)).setIfInBounds 8 (BitVec.ofNat 64 batch) }

/-- The registers that an adapter's entry has: its window, its bound on remote operations and the slice of the launch. -/
def adapterEntry (pc rt base size slice : Nat) : Ctx :=
  { Ctx.fresh with pc := BitVec.ofNat 64 pc, remoteRt := rt, lsBase := base, lsSize := size, xctx := BitVec.ofNat 64 slice }

/-- Where an address of the adapter image lies in its copy, which starts at the lower of the two headers (R165). -/
def Backend.inCopy (b : Backend) (va : Nat) : Nat := b.copyAddr + (va - (min b.toNative b.fromNative - 0x40))

/-- Change an item's runner. -/
def State.updRunner (s : State) (i : Nat) (f : Runner → Runner) : State :=
  s.updItem i (fun x => { x with runner := x.runner.map f })

/-- Read bytes of the cast store, which lies in this node's pool under key slot 0. -/
def State.readStore (s : State) (a n : Nat) : LineVal × State := s.readMem (a % 2 ^ 48) n 0

/-- Start a TENSOR node: its descriptor is copied into the window and issued (R150). -/
def State.startTensor (s : State) (i n : Nat) (x : Item) (v : CastVer) (d : CastNode) : State :=
  match s.pickTe x.teGrant x.core with
  | none => s.endContext i ⟨3, 1, true, none, some 1⟩
  | some te =>
    let a := v.addr + v.todOff + d.entry
    match s.readStore a 3 with
    | (.poison, s) => s.endContext i causePoison
    | (.bytes h, s) => match s.readStore a (todLen h) with
      | (.poison, s) => s.endContext i causePoison
      | (.bytes b, s) =>
        let k := s.core x.core
        let s := s.setCore x.core (k.lsWrite (x.winBase + d.todWin * 64) b)
        (s.updRunner i (fun r => { r with outstanding := r.outstanding ++ [n] })).issueTod i x none (some n) te b (d.todWin * 64)

/-- The lowest token of a backend that no operation holds. -/
def Backend.freeToken (b : Backend) : Option Nat := (List.range 1024).find? (fun t => (b.tokens.find t).isNone)

/-- Start a BACKEND node: the context enters the adapter at to-native with a token; service time runs from here (R167, R168). -/
def State.startBackend (s : State) (i n : Nat) (x : Item) (v : CastVer) (d : CastNode) : State :=
  match s.work.backends.find d.backend with
  | none => s.endContext i causeBackend
  | some b => match b.freeToken with
    | none => s
    | some t =>
      let c := adapterEntry (b.inCopy b.toNative) x.rt x.winBase x.winSize x.slice
      let g := (c.g.setIfInBounds 1 (BitVec.ofNat 64 (v.addr + v.todOff + d.entry))).setIfInBounds 2 (BitVec.ofNat 64 d.argLen)
      let g := ((g.setIfInBounds 3 (BitVec.ofNat 64 d.bop)).setIfInBounds 4 (BitVec.ofNat 64 t)).setIfInBounds 5 (BitVec.ofNat 64 b.nativeBase)
      let s := { s with work := { s.work with
        backends := s.work.backends.put d.backend { b with tokens := b.tokens.put t ⟨i, x.queue, x.slice, n, s.now, false⟩ } } }
      let s := s.setCore x.core { s.core x.core with ctx := { c with g := g }, priv := true, exl := false }
      s.updRunner i (fun r => { r with running := some n })

/-- Start the next node of the runner that a core runs. -/
def State.startNode (s : State) (i : Nat) (x : Item) (r : Runner) : State :=
  match x.castSlot.bind s.castVer with
  | none => s
  | some v =>
    let n := r.next
    match v.nodes[n]? with
    | none => s
    | some d => match d.kind with
      | 0 =>
        let c := nodeCtx x n (v.addr + v.codeOff + d.entry) ((s.tableOf x).getD 0)
        let s := s.setCore x.core { s.core x.core with ctx := c, priv := false, exl := false }
        s.updRunner i (fun r => { r with running := some n })
      | 1 => s.startTensor i n x v d
      | _ => s.startBackend i n x v d

/-- R150: the runner that a core runs starts its next node, if every predecessor of it has ended; a runner that can start none
waits. Before the first node of a step the steward prepares the step (R213, R214); `reads` answers what that reads outside the block. -/
def execCastNodeStart (item : Nat) (reads : List Ext) (s : State) : Result :=
  match s.item item with
  | none => .next s
  | some x =>
    if (s.core x.core).item ≠ some item ∨ x.cause.isSome ∨ (s.core x.core).serviceAt.isSome then .next s
    else match x.runner with
      | none => .next s
      | some r =>
        if r.running.isSome then .next s
        else if r.canStart (s.nodesOf x) then
          let s := s.stageFirst item x reads
          if (s.core x.core).item ≠ some item then .next s else .next (s.startNode item x r)
        else .next (s.yieldWait x.core 0)

end Sys2Proof.Machine
end

