-- ==== Sys2Proof/Machine/Cue.lean ====
section
/-!
DEFINITION. Execution of a Cue instruction (chapter 05): what every instruction shares, exceptions and their entry, and the
instructions that work on registers, predicates and the pc.
-/

namespace Sys2Proof.Machine

/-! ### Exceptions (R138, R139, Table 5-10) -/

/-- Causes of Table 5-10 that an instruction raises. -/
inductive Cause where
  | illegal
  | priv
  | align
  | lsRange
  | grant
  | handle
  | enqDenied
  | mbxDenied
  | amoSpace
  | trap
  | xlate (reason : Nat)
  | domainOff
  | poison
  | psf
deriving DecidableEq, Repr

/-- The code of a cause. -/
def Cause.code : Cause → Nat
  | .illegal => 1 | .priv => 2 | .align => 3 | .lsRange => 4 | .grant => 5 | .handle => 6 | .enqDenied => 7 | .mbxDenied => 8
  | .amoSpace => 9 | .trap => 10 | .xlate r => 0x0F + r | .domainOff => 0x13 | .poison => 0x14 | .psf => 0x21

/-- An exception: its cause, cw.badaddr and the TRAP code. -/
structure Exc where
  cause : Cause
  badaddr : Nat
  code : Nat
deriving DecidableEq, Repr

/-- Entry of an exception or an interrupt (R138, R140): the pc and the privilege are saved, and the core goes on at `pc` with
EXL set and interrupts off. -/
def Core.enter (k : Core) (cause badaddr : Word) (pc : Word) : Core :=
  { k with epc := k.ctx.pc, cause := cause, badaddr := badaddr, ppriv := k.priv, priv := true, exl := true, ie := false,
           ctx := { k.ctx with pc := pc } }

/-- The contents of cw.cause for an exception. -/
def Exc.word (e : Exc) : Word := BitVec.ofNat 64 (e.cause.code + e.code * 2 ^ 32)

/-- Whether a core runs a to-native entry in its launch's context (R167). -/
def State.inToNative (s : State) (c : Nat) : Bool :=
  let k := s.core c
  k.priv && k.serviceAt.isNone && (match k.item.bind s.item with
    | some x => (x.runner.bind (fun r => r.running)).any (fun n => ((s.nodesOf x)[n]?).any (fun (d : CastNode) => d.kind == 2))
    | none => false)

/-- Whether a core's steward code is a backend's adapter, and not a handler that interrupted it (R167). -/
def State.inAdapter (s : State) (c : Nat) : Bool :=
  let k := s.core c
  !k.exl && (if k.reading.isSome then k.priv && k.stack.isEmpty else s.inToNative c)

/-- Steward service of a context ends: the stretch leaves it out, the context has its window again, and one stopped meanwhile ends instead
of resuming (R116, R128, R144). A handler that interrupted a from-native entry gives that its window back. -/
def State.endService (s : State) (c : Nat) : State :=
  let k := s.core c
  match k.reading, k.serviceAt with
  | some r, _ => s.setCore c { k with ctx := { k.ctx with lsSize := r.size } }
  | none, none => s
  | none, some t =>
    let s := s.setCore c { k with serviceAt := none, stretchAt := k.stretchAt + (s.now - t) }
    match k.item.bind (fun i => (s.item i).map (fun x => (i, x))) with
    | some (i, x) =>
      if x.cause.isSome then ((s.unload i).endStopped i).dispatch c else s.setCore c { s.core c with ctx := { k.ctx with lsSize := x.winSize } }
    | none => s.setCore c (s.core c).unloaded

/-- A from-native entry leaves its core, which goes on with what it did before (R167). -/
def State.leaveNative (s : State) (c : Nat) : State :=
  let k := s.core c
  match k.reading with
  | none => s
  | some r => (s.setCore c { k with ctx := r.ctx, priv := r.priv, exl := false, reading := none }).endService c

/-- A guest exception: it is handed to the steward as R138 says, and ends the item with the outcome of Table 5-10. What the steward does
then is R141, which the block performs here, so that the core leaves the exception with the item (DESIGN CHOICE, log entry 81). -/
def State.guestExc (s : State) (c i : Nat) (x : Item) (e : Exc) : State :=
  let k := s.core c
  let s := s.setCore c (k.enter e.word (BitVec.ofNat 64 e.badaddr) k.tvec)
  match e.cause with
  | .xlate r => s.endContext i (causeXlate r)
  | .domainOff => s.endContext i ⟨0x0E, 0, true, none, none⟩
  | .poison => s.endContext i causePoison
  | cause =>
    let ref := s.nextIndex
    let s := s.fault { s.recordOf x 0x0001 1 3 with
      core := c, pc := k.ctx.pc.toNat, addr := e.badaddr, aux0 := e.code, aux1 := cause.code, status := 3, creason := 2 }
    s.endContext i ⟨3, 2, true, some ref, none⟩

/-- A backend's operation failed: its item ends ST_FAULT, BACKEND (R168). -/
def State.backendFailed (s : State) (b i : Nat) : State := (s.incF .CST_BK_FAILED_COUNT b).endContext i causeBackend

/-- The backend whose to-native entry an item runs. -/
def State.toBackend (s : State) (x : Item) : Nat :=
  (((x.runner.bind (fun r => r.running)).bind (fun n => (s.nodesOf x)[n]?)).map (fun (d : CastNode) => d.backend)).getD 0

/-- An exception in an adapter's entry: the item in whose context it ran ends ST_FAULT, BACKEND (R168). -/
def State.adapterExc (s : State) (c : Nat) : State :=
  let k := s.core c
  match k.reading with
  | some r =>
    let s := s.leaveNative c
    match r.item.bind (fun i => (s.item i).map (fun x => (i, x))) with
    | some (i, x) => if x.cause.isNone then s.backendFailed r.backend i else s
    | none => s.dispatch c
  | none => match k.item.bind (fun i => (s.item i).map (fun x => (i, x))) with
    | some (i, x) => s.backendFailed (s.toBackend x) i
    | none => s

/-- An exception raised on a core. At guest privilege it is handed to the steward and ends the item. At steward privilege it enters cw.tvec; with EXL set it
is a double fault, which resets the core, but for PSF, which R352 hands to the handler that raised it; an exception of an
adapter is its backend's failure. -/
def State.raise (s : State) (c : Nat) (e : Exc) : State :=
  let k := s.core c
  let s := s.noteExc c e.cause.code
  match k.priv, k.item.bind (fun i => (s.item i).map (fun x => (i, x))) with
  | false, some (i, x) => s.guestExc c i x e
  | false, none => s.setCore c (k.enter e.word (BitVec.ofNat 64 e.badaddr) k.tvec)
  | true, _ =>
    if k.exl ∧ e.cause ≠ .psf then
      (s.noteExc c 0x22).faultReset (unitOfCore c)
        { FaultRec.ofUnit (unitOfCore c) 0x0005 2 with pc := k.ctx.pc.toNat, addr := e.badaddr, aux1 := e.cause.code }
    else if s.inAdapter c then s.adapterExc c
    else s.setCore c (k.enter e.word (BitVec.ofNat 64 e.badaddr) k.tvec)

/-! ### What every instruction shares (R121–R124, R138) -/

/-- What an instruction whose guard is true does: it retires and the pc advances; it jumps; it retires and leaves its context;
it waits at a yield point; it raises an exception. -/
inductive Eff where
  | next (s : State)
  | jump (s : State) (pc : Word)
  | left (s : State)
  | stay (s : State)
  | exc (e : Exc) (s : State)

/-- Change the context that a core holds. -/
def State.mapCtx (s : State) (c : Nat) (f : Ctx → Ctx) : State := s.setCore c { s.core c with ctx := f (s.core c).ctx }
/-- The context that a core holds. -/
def State.ctx (s : State) (c : Nat) : Ctx := (s.core c).ctx

/-- Count a retired instruction and its pc (CUE_RETIRED, CUE_PC). -/
def State.retire (s : State) (c : Nat) (pc : Word) : State := (s.incF .CUE_RETIRED_COUNT c).setF .CUE_PC c (pc.toNat / 4)

/-- Whether a core executes instructions: it is up and not halted, and the context it holds has not been stopped, or it is in
steward service; the cast runner between nodes executes none of these. -/
def State.executes (s : State) (c : Nat) : Bool :=
  s.coreUp c && !s.bitF .CUE_DBG_CTRL_HALTED c && (match (s.core c).item with
    | none => true
    | some i => (s.core c).serviceAt.isSome || (match s.item i with
      | some x => x.cause.isNone && !(x.runner.any (fun r => r.running.isNone))
      | none => false))

/-- Whether an instruction of `len` bytes at a core's pc may be fetched: a CUE node fetches within its cast's code (R151). -/
def State.fetchOk (s : State) (c len : Nat) : Bool :=
  let k := s.core c
  if k.priv then true
  else match (k.item.bind s.item).bind (fun (x : Item) => x.castSlot) with
    | none => true
    | some v => match s.castVer v with
      | some v => decide (v.addr + v.codeOff ≤ k.ctx.pc.toNat ∧ k.ctx.pc.toNat + len ≤ v.addr + v.codeOff + v.codeLen)
      | none => false

/-- A core leaves the yield point at which its context stood (R161). -/
def State.leavePoint (s : State) (c : Nat) : State := if (s.core c).yielded then s.setCore c { s.core c with yielded := false } else s

/-- One instruction of `len` bytes on core `c`: a misaligned pc, a fetch outside the code, an illegal encoding, then the
guard, then its effect. -/
def State.instr (s : State) (c : Nat) (g : Guard) (len : Nat) (legal : Bool) (f : State → Eff) : State :=
  let pc := (s.core c).ctx.pc
  let runs := s.executes c
  let s := if runs then s.leavePoint c else s
  if !runs then s
  else if pc.toNat % 4 ≠ 0 then s.raise c ⟨.align, pc.toNat, 0⟩
  else if !s.fetchOk c len then s.raise c ⟨.xlate xNotMapped, pc.toNat, 0⟩
  else if !legal then s.raise c ⟨.illegal, pc.toNat, 0⟩
  else if !(s.core c).ctx.guardOk g then (s.retire c pc).mapCtx c (fun x => { x with pc := pc + BitVec.ofNat 64 len })
  else match f s with
    | .next s => (s.retire c pc).mapCtx c (fun x => { x with pc := pc + BitVec.ofNat 64 len })
    | .jump s t => (s.retire c pc).mapCtx c (fun x => { x with pc := t })
    | .left s => s.retire c pc
    | .stay s => s
    | .exc e s => s.raise c e

/-- An exception of the instruction at a core's pc that names no other address. -/
def State.excAt (s : State) (c : Nat) (cause : Cause) : Eff := .exc ⟨cause, (s.core c).ctx.pc.toNat, 0⟩ s

/-- An instruction that writes a register from the context. -/
def State.alu (s : State) (c : Nat) (g : Guard) (rd : BitVec 5) (f : Ctx → Word) : State :=
  s.instr c g 4 true (fun s => .next (s.mapCtx c (fun x => x.wr rd (f x))))

/-- An instruction that writes a predicate from the context. -/
def State.pred (s : State) (c : Nat) (g : Guard) (pd : BitVec 3) (f : Ctx → Bool) : State :=
  s.instr c g 4 true (fun s => .next (s.mapCtx c (fun x => x.wrP pd (f x))))

/-! ### The ALU group (Table 5-8) -/

/-- R123: ADD. -/
def execAdd (core : Nat) (guard : Guard) (rd ra rb : BitVec 5) (s : State) : Result := .next (s.alu core guard rd (fun x => x.rd ra + x.rd rb))
/-- R123: SUB. -/
def execSub (core : Nat) (guard : Guard) (rd ra rb : BitVec 5) (s : State) : Result := .next (s.alu core guard rd (fun x => x.rd ra - x.rd rb))
/-- R123: AND. -/
def execAnd (core : Nat) (guard : Guard) (rd ra rb : BitVec 5) (s : State) : Result := .next (s.alu core guard rd (fun x => x.rd ra &&& x.rd rb))
/-- R123: OR. -/
def execOr (core : Nat) (guard : Guard) (rd ra rb : BitVec 5) (s : State) : Result := .next (s.alu core guard rd (fun x => x.rd ra ||| x.rd rb))
/-- R123: XOR. -/
def execXor (core : Nat) (guard : Guard) (rd ra rb : BitVec 5) (s : State) : Result := .next (s.alu core guard rd (fun x => x.rd ra ^^^ x.rd rb))
/-- R123: ANDN. -/
def execAndn (core : Nat) (guard : Guard) (rd ra rb : BitVec 5) (s : State) : Result := .next (s.alu core guard rd (fun x => x.rd ra &&& ~~~(x.rd rb)))
/-- R123: SHL by rb[5:0]. -/
def execShl (core : Nat) (guard : Guard) (rd ra rb : BitVec 5) (s : State) : Result :=
  .next (s.alu core guard rd (fun x => x.rd ra <<< ((x.rd rb).toNat % 64)))
/-- R123: SHR by rb[5:0]. -/
def execShr (core : Nat) (guard : Guard) (rd ra rb : BitVec 5) (s : State) : Result :=
  .next (s.alu core guard rd (fun x => x.rd ra >>> ((x.rd rb).toNat % 64)))
/-- R123: SRA by rb[5:0]. -/
def execSra (core : Nat) (guard : Guard) (rd ra rb : BitVec 5) (s : State) : Result :=
  .next (s.alu core guard rd (fun x => sraW (x.rd ra) ((x.rd rb).toNat % 64)))
/-- R123: MUL, the low 64 bits. -/
def execMul (core : Nat) (guard : Guard) (rd ra rb : BitVec 5) (s : State) : Result := .next (s.alu core guard rd (fun x => x.rd ra * x.rd rb))
/-- R123: MULH, the high 64 bits of the signed product. -/
def execMulh (core : Nat) (guard : Guard) (rd ra rb : BitVec 5) (s : State) : Result := .next (s.alu core guard rd (fun x => mulhW (x.rd ra) (x.rd rb)))
/-- R123: MULHU, the high 64 bits of the unsigned product. -/
def execMulhu (core : Nat) (guard : Guard) (rd ra rb : BitVec 5) (s : State) : Result := .next (s.alu core guard rd (fun x => mulhuW (x.rd ra) (x.rd rb)))
/-- R123: MIN, signed. -/
def execMin (core : Nat) (guard : Guard) (rd ra rb : BitVec 5) (s : State) : Result := .next (s.alu core guard rd (fun x => minW (x.rd ra) (x.rd rb)))
/-- R123: MAX, signed. -/
def execMax (core : Nat) (guard : Guard) (rd ra rb : BitVec 5) (s : State) : Result := .next (s.alu core guard rd (fun x => maxW (x.rd ra) (x.rd rb)))
/-- R123: MINU. -/
def execMinu (core : Nat) (guard : Guard) (rd ra rb : BitVec 5) (s : State) : Result := .next (s.alu core guard rd (fun x => minuW (x.rd ra) (x.rd rb)))
/-- R123: MAXU. -/
def execMaxu (core : Nat) (guard : Guard) (rd ra rb : BitVec 5) (s : State) : Result := .next (s.alu core guard rd (fun x => maxuW (x.rd ra) (x.rd rb)))
/-- R123: SEXT.B. -/
def execSextB (core : Nat) (guard : Guard) (rd ra : BitVec 5) (s : State) : Result :=
  .next (s.alu core guard rd (fun x => ((x.rd ra).setWidth 8).signExtend 64))
/-- R123: SEXT.H. -/
def execSextH (core : Nat) (guard : Guard) (rd ra : BitVec 5) (s : State) : Result :=
  .next (s.alu core guard rd (fun x => ((x.rd ra).setWidth 16).signExtend 64))
/-- R123: SEXT.W. -/
def execSextW (core : Nat) (guard : Guard) (rd ra : BitVec 5) (s : State) : Result :=
  .next (s.alu core guard rd (fun x => ((x.rd ra).setWidth 32).signExtend 64))
/-- R123: POPC. -/
def execPopc (core : Nat) (guard : Guard) (rd ra : BitVec 5) (s : State) : Result := .next (s.alu core guard rd (fun x => popcW (x.rd ra)))
/-- R123: CLZ. -/
def execClz (core : Nat) (guard : Guard) (rd ra : BitVec 5) (s : State) : Result := .next (s.alu core guard rd (fun x => clzW (x.rd ra)))

/-! ### Immediate forms (Table 5-7) -/

/-- R123: ADDI. -/
def execAddi (core : Nat) (guard : Guard) (rd ra : BitVec 5) (imm : BitVec 12) (s : State) : Result :=
  .next (s.alu core guard rd (fun x => x.rd ra + sext12 imm))
/-- R123: ANDI. -/
def execAndi (core : Nat) (guard : Guard) (rd ra : BitVec 5) (imm : BitVec 12) (s : State) : Result :=
  .next (s.alu core guard rd (fun x => x.rd ra &&& zext12 imm))
/-- R123: ORI. -/
def execOri (core : Nat) (guard : Guard) (rd ra : BitVec 5) (imm : BitVec 12) (s : State) : Result :=
  .next (s.alu core guard rd (fun x => x.rd ra ||| zext12 imm))
/-- R123: XORI. -/
def execXori (core : Nat) (guard : Guard) (rd ra : BitVec 5) (imm : BitVec 12) (s : State) : Result :=
  .next (s.alu core guard rd (fun x => x.rd ra ^^^ zext12 imm))
/-- R123: SHLI. -/
def execShli (core : Nat) (guard : Guard) (rd ra : BitVec 5) (sh : BitVec 6) (s : State) : Result :=
  .next (s.alu core guard rd (fun x => x.rd ra <<< sh.toNat))
/-- R123: SHRI. -/
def execShri (core : Nat) (guard : Guard) (rd ra : BitVec 5) (sh : BitVec 6) (s : State) : Result :=
  .next (s.alu core guard rd (fun x => x.rd ra >>> sh.toNat))
/-- R123: SRAI. -/
def execSrai (core : Nat) (guard : Guard) (rd ra : BitVec 5) (sh : BitVec 6) (s : State) : Result :=
  .next (s.alu core guard rd (fun x => sraW (x.rd ra) sh.toNat))
/-- R123: LUI. -/
def execLui (core : Nat) (guard : Guard) (rd : BitVec 5) (imm : BitVec 17) (s : State) : Result := .next (s.alu core guard rd (fun _ => luiValue imm))

/-! ### Comparisons and predicates -/

/-- R123: CMP.EQ. -/
def execCmpEq (core : Nat) (guard : Guard) (pd : BitVec 3) (ra rb : BitVec 5) (s : State) : Result :=
  .next (s.pred core guard pd (fun x => Cond.eq.holds (x.rd ra) (x.rd rb)))
/-- R123: CMP.NE. -/
def execCmpNe (core : Nat) (guard : Guard) (pd : BitVec 3) (ra rb : BitVec 5) (s : State) : Result :=
  .next (s.pred core guard pd (fun x => Cond.ne.holds (x.rd ra) (x.rd rb)))
/-- R123: CMP.LT. -/
def execCmpLt (core : Nat) (guard : Guard) (pd : BitVec 3) (ra rb : BitVec 5) (s : State) : Result :=
  .next (s.pred core guard pd (fun x => Cond.lt.holds (x.rd ra) (x.rd rb)))
/-- R123: CMP.LTU. -/
def execCmpLtu (core : Nat) (guard : Guard) (pd : BitVec 3) (ra rb : BitVec 5) (s : State) : Result :=
  .next (s.pred core guard pd (fun x => Cond.ltu.holds (x.rd ra) (x.rd rb)))
/-- R123: CMP.GE. -/
def execCmpGe (core : Nat) (guard : Guard) (pd : BitVec 3) (ra rb : BitVec 5) (s : State) : Result :=
  .next (s.pred core guard pd (fun x => Cond.ge.holds (x.rd ra) (x.rd rb)))
/-- R123: CMP.GEU. -/
def execCmpGeu (core : Nat) (guard : Guard) (pd : BitVec 3) (ra rb : BitVec 5) (s : State) : Result :=
  .next (s.pred core guard pd (fun x => Cond.geu.holds (x.rd ra) (x.rd rb)))
/-- R123: CMPI.EQ. -/
def execCmpiEq (core : Nat) (guard : Guard) (pd : BitVec 3) (ra : BitVec 5) (imm : BitVec 12) (s : State) : Result :=
  .next (s.pred core guard pd (fun x => Cond.eq.holds (x.rd ra) (sext12 imm)))
/-- R123: CMPI.NE. -/
def execCmpiNe (core : Nat) (guard : Guard) (pd : BitVec 3) (ra : BitVec 5) (imm : BitVec 12) (s : State) : Result :=
  .next (s.pred core guard pd (fun x => Cond.ne.holds (x.rd ra) (sext12 imm)))
/-- R123: CMPI.LT. -/
def execCmpiLt (core : Nat) (guard : Guard) (pd : BitVec 3) (ra : BitVec 5) (imm : BitVec 12) (s : State) : Result :=
  .next (s.pred core guard pd (fun x => Cond.lt.holds (x.rd ra) (sext12 imm)))
/-- R123: CMPI.LTU. -/
def execCmpiLtu (core : Nat) (guard : Guard) (pd : BitVec 3) (ra : BitVec 5) (imm : BitVec 12) (s : State) : Result :=
  .next (s.pred core guard pd (fun x => Cond.ltu.holds (x.rd ra) (sext12 imm)))
/-- R123: PSET.AND. -/
def execPsetAnd (core : Nat) (guard : Guard) (pd pa pb : BitVec 3) (s : State) : Result :=
  .next (s.pred core guard pd (fun x => PredOp.and.apply (x.rdP pa) (x.rdP pb)))
/-- R123: PSET.OR. -/
def execPsetOr (core : Nat) (guard : Guard) (pd pa pb : BitVec 3) (s : State) : Result :=
  .next (s.pred core guard pd (fun x => PredOp.or.apply (x.rdP pa) (x.rdP pb)))
/-- R123: PSET.XOR. -/
def execPsetXor (core : Nat) (guard : Guard) (pd pa pb : BitVec 3) (s : State) : Result :=
  .next (s.pred core guard pd (fun x => PredOp.xor.apply (x.rdP pa) (x.rdP pb)))
/-- R123: PSET.ANDN. -/
def execPsetAndn (core : Nat) (guard : Guard) (pd pa pb : BitVec 3) (s : State) : Result :=
  .next (s.pred core guard pd (fun x => PredOp.andn.apply (x.rdP pa) (x.rdP pb)))

/-! ### Branches -/

/-- R123: BR: pc + 4 × the sign-extended immediate. -/
def execBr (core : Nat) (guard : Guard) (imm : BitVec 22) (s : State) : Result :=
  .next (s.instr core guard 4 true (fun s => .jump s ((s.ctx core).pc + branchOff imm)))

/-- R123: CALL: g31 takes the address of the next instruction. -/
def execCall (core : Nat) (guard : Guard) (imm : BitVec 22) (s : State) : Result :=
  .next (s.instr core guard 4 true (fun s =>
    .jump (s.mapCtx core (fun x => x.wr 31 (x.pc + 4))) ((s.ctx core).pc + branchOff imm)))

/-- R123: JR: t = ra; rd = pc + 4; pc = t. -/
def execJr (core : Nat) (guard : Guard) (rd ra : BitVec 5) (s : State) : Result :=
  .next (s.instr core guard 4 true (fun s =>
    .jump (s.mapCtx core (fun x => x.wr rd (x.pc + 4))) ((s.ctx core).rd ra)))

/-- R139: TRAP raises TRAP with its code. -/
def execTrap (core : Nat) (guard : Guard) (code : BitVec 16) (s : State) : Result :=
  .next (s.instr core guard 4 true (fun s => .exc ⟨.trap, (s.ctx core).pc.toNat, code.toNat⟩ s))

end Sys2Proof.Machine
end

