-- ==== Sys2Proof/Machine/CueMem.lean ====
section
/-!
DEFINITION. Memory instructions of a cue core (chapter 05): global loads, stores and atomics through the coherence of
chapter 11, window loads and stores, FENCE.
-/

namespace Sys2Proof.Machine

/-! ### Lines that a core's own access asks for -/

/-- What an access to a line finds: its data, poison, a failed translation at another node, a refusal or an expiry, or that holders
elsewhere must answer first. -/
inductive LineGet where
  | data (b : List Byte)
  | poison
  | xlate (reason : Nat)
  | failed (expired : Bool)
  | wait

/-- Whether a core holds a line in a state that serves a read, or with `own` a write (R137). -/
def State.holds (s : State) (l c : Nat) (own : Bool) : Bool :=
  match s.l0 l c with
  | .m | .e => true
  | .s | .o => !own
  | _ => false

/-- Data of a line that a core holds. -/
def State.heldData (s : State) (l key : Nat) : LineGet × State :=
  let (b, p, s) := s.cached l key
  (if p then .poison else .data b, s)

/-- A core's request for a line; one for another node's line carries cw.remote_rt as its allowance (R133). -/
def State.lineMsg (s : State) (c addr key : Nat) (own : Bool) : Msg :=
  let m := { s.mkMsg (if own then .rdOwn else .rdShr) (addr >>> 48) (addr - addr % 64) with src := .core c, key := key }
  if s.ownsAddr addr then m
  else { m with
    allow := (s.ctx c).remoteRt, slice := (s.ctx c).xctx.toNat % 4096
    lc := ((s.core c).item.bind s.item).any (fun (x : Item) => x.cls == Cls.lc) }

/-- The fabric gateway receives what another node answers to a line requested there: the line, granted M to a request for ownership and S
to another (DESIGN CHOICE, log entry 82), poison, or a refusal or an expiry. -/
def State.farAnswer (s : State) (addr key : Nat) (own : Bool) (e : Ext) : State :=
  let m (k : MsgKind) : Msg := { s.mkMsg k s.node (addr - addr % 64) with src := .node (addr >>> 48), key := key }
  match e with
  | .ok b => s.grantArrives { m .data with data := fit64 b } (if own then 3 else 1)
  | .poison | .refused 4 _ => s.grantArrives { m .data with poison := true } 0
  | .expired => s.failArrives (m .expired)
  | .refused st r => s.failArrives { m .refuse with aux := st * 256 + r }
  | .atsFail => s.failArrives (m .refuse)

/-- Obtain a line at a core, for reading or in ownership: from what it holds, within its section, or from the line's home, which at
another node answers with `far`. A refusal's meaning says what the access gives (R133). An exchange that must wait for holders outside the block, or for other transactions, stays open, and the
access is made again. -/
def State.coreLine (s : State) (c addr key : Nat) (own : Bool) (far : Ext) : LineGet × State :=
  let l := s.lid addr
  if s.holds l c own then s.heldData l key
  else if s.l0 l c = .evicting ∨ (s.coh.ups.find (upKey l (secOfCore c))).any (fun (u : UpReq) => u.waiters.any (fun w => w.src == Who.core c)) then (.wait, s)
  else
    let n := s.out.length
    let s := State.pump n 64 (s.coreRequest (s.lineMsg c addr key own) c)
    let asked := !localLid l && (s.coh.ups.find (upKey l 8)).isSome
    let s := if asked then State.pump n 64 (s.farAnswer addr key own far) else s
    let mine := (s.out.drop n).filterMap (fun o => match o with | .ring w m => if w = .core c then some m else none | _ => none)
    let s := { s with out := s.out.take n ++ (s.out.drop n).filter (fun o => match o with | .ring w _ => w ≠ .core c | _ => true) }
    if mine.any (fun (m : Msg) => m.poison) then (.poison, s)
    else if s.holds l c own then s.heldData l key
    else if mine.any (fun (m : Msg) => m.kind == .expired) then (.failed true, s)
    else match mine.find? (fun (m : Msg) => m.kind == .refuse) with
      | some m => (match m.aux / 256 with | 4 => .poison | 8 => .xlate (m.aux % 256) | _ => .failed false, s)
      | none => (.wait, s)

/-! ### Targets of a core's access (R79, R114, R254) -/

/-- Who makes a core's accesses: the slice of cw.xctx, with PHYS at steward privilege only. -/
def State.accessor (s : State) (c : Nat) : Accessor :=
  let k := s.core c
  ⟨k.ctx.xctx.toNat % 4096, (k.item.bind s.item).bind (fun (x : Item) => x.model), k.priv && k.ctx.xctx.getLsbD 63⟩

/-- What a global access gives. -/
inductive Got where
  | val (b : List Byte)
  | rerr (expired : Bool)
  | wait
  | exc (c : Cause)

/-- What a host's answer gives to an access of `n` bytes (R133, R134). -/
def extGot (n : Nat) : Ext → Got
  | .ok b => .val (fit n b)
  | .poison => .exc .poison
  | .refused 8 r => .exc (.xlate r)
  | .refused 4 _ => .exc .poison
  | .refused _ _ => .rerr false
  | .expired => .rerr true
  | .atsFail => .exc (.xlate xAts)

/-- The outcome of a line at a core for an access of `n` bytes at an address. -/
def lineGot (addr n : Nat) : LineGet → Got
  | .data b => .val ((b.drop (addr % 64)).take n)
  | .poison => .exc .poison
  | .xlate r => .exc (.xlate r)
  | .failed e => .rerr e
  | .wait => .wait

/-- Read `n` bytes, which lie in one line, at a target. -/
def State.loadAt (s : State) (c : Nat) (t : Target) (va key n : Nat) (answer : Ext) : Got × State :=
  match t with
  | .fail r => (.exc (.xlate r), s)
  | .pool off | .hot off =>
    let (g, s) := s.coreLine c (s.gaddr off) (s.slotAt off key) false answer
    (lineGot off n g, s)
  | .remote a =>
    let (g, s) := s.coreLine c a key false answer
    (lineGot a n g, s)
  | .host p => (extGot n answer, (s.emit (.hostRead p va n)).hostAnswered p answer)
  | .stage a => (.val (s.stageRead a n), s)

/-- Resolve a core's access. One that has been translated and waits to be performed is performed under that translation, whatever has been
invalidated since (R259). -/
def State.resolveFor (s : State) (c va : Nat) (write : Bool) : Target × State :=
  let k := s.core c
  let a := s.accessor c
  let s := if k.access.isSome then s.setCore c { k with access := none } else s
  match k.access with
  | some x =>
    if x.pc = k.ctx.pc ∧ x.slice = a.slice ∧ x.va = va ∧ x.write = write then
      (if s.ownsAddr x.addr then .pool (x.addr % 2 ^ 48) else .remote x.addr, s)
    else s.resolve (secOfCore c) a va write
  | none => s.resolve (secOfCore c) a va write

/-- A core's access to a target waits for holders of its line: its translation stands until it is performed (R259). -/
def State.keepAccess (s : State) (c va : Nat) (write : Bool) (t : Target) : State :=
  let k := s.core c
  let kept (addr : Nat) : State := s.setCore c { k with access := some ⟨k.ctx.pc, (s.accessor c).slice, va, write, addr⟩ }
  match t with
  | .pool off | .hot off => kept (s.gaddr off)
  | .remote a => kept a
  | .host _ | .stage _ | .fail _ => s

/-! ### Stores and durable pages (R243) -/

/-- An item's store passes its durable reservation: its context ends ST_FAULT, CORE, with a record HOLDUP_OVERRUN (R243). -/
def State.holdupOverrun (s : State) (i addr : Nat) : State :=
  match s.itemNow i with
  | none => s
  | some x =>
    let ref := s.nextIndex
    (s.fault { s.recordOf x 0x0004 1 3 with addr := addr, status := 3, creason := 2 }).endContext i ⟨3, 2, true, some ref, none⟩

/-- What a store or an atomic gives: the bytes that stood there, or why it is not performed. -/
inductive Put where
  | done (old : List Byte)
  | rerr (expired : Bool)
  | wait
  | overrun (off : Nat)
  | exc (c : Cause)

/-- Read and change `n` bytes of a line in ownership, in the core's cache; `f` gives the new bytes, or none to leave them (R137). -/
def State.modifyLine (s : State) (c addr key n : Nat) (far : Ext) (f : List Byte → Option (List Byte)) : Put × State :=
  match s.coreLine c addr key true far with
  | (.poison, s) => (.exc .poison, s)
  | (.xlate r, s) => (.exc (.xlate r), s)
  | (.failed e, s) => (.rerr e, s)
  | (.wait, s) => (.wait, s)
  | (.data b, s) =>
    let l := s.lid addr
    let old := (b.drop (addr % 64)).take n
    match f old with
    | none => (.done old, s)
    | some new =>
      match (if localLid l then s.takeDurable (s.core c).item (addr % 2 ^ 48) n else some s) with
      | none => (.overrun addr, s)
      | some s => (.done old, (s.dirtyLine (l * 64) key (patch b (addr % 64) new) false).setL0 l c .m)

/-- Read and change bytes at a target; `amo` says that host memory cannot take the access. -/
def State.modifyAt (s : State) (c : Nat) (t : Target) (va key n : Nat) (amo : Bool) (answer : Ext) (f : List Byte → Option (List Byte)) : Put × State :=
  match t with
  | .fail r => (.exc (.xlate r), s)
  | .pool off | .hot off => s.modifyLine c (s.gaddr off) (s.slotAt off key) n answer f
  | .remote a => s.modifyLine c a key n answer f
  | .stage a =>
    let old := s.stageRead a n
    (.done old, match f old with | some b => s.stageWrite a b | none => s)
  | .host p =>
    if amo then (.exc .amoSpace, s)
    else match answer with
      | .atsFail => (.exc (.xlate xAts), s.atsFailed p)
      | _ => (.done [], match f [] with | some b => s.emit (.hostWrite p va b) | none => s)

/-- Record a refusal or an expiry in cw.rerr (R133). -/
def State.setRerr (s : State) (c : Nat) (expired : Bool) : State :=
  s.mapCtx c (fun x => { x with rerr := x.rerr ||| (if expired then 2 else 1) })

/-! ### Loads and stores (R133, R134) -/

/-- A global load of size code `z`, zero-extended. -/
def State.load (s : State) (c : Nat) (g : Guard) (rd ra : BitVec 5) (imm : BitVec 12) (z : Nat) (answer : Ext) : State :=
  s.instr c g 4 true (fun s =>
    let va := ((s.ctx c).ea ra imm).toNat
    let n := sizeOf z
    if va % n ≠ 0 then .exc ⟨.align, va, 0⟩ s
    else
      let a := s.accessor c
      let (t, s) := s.resolveFor c va false
      match s.loadAt c t va (s.sliceKey a.slice) n answer with
      | (.val b, s) => .next (s.mapCtx c (fun x => x.wr rd (BitVec.ofNat 64 (natLE b))))
      | (.rerr e, s) => .next ((s.setRerr c e).mapCtx c (fun x => x.wr rd 0))
      | (.wait, s) => .stay (s.keepAccess c va false t)
      | (.exc e, s) => .exc ⟨e, va, 0⟩ s)

/-- A global store of size code `z`. -/
def State.store (s : State) (c : Nat) (g : Guard) (rs ra : BitVec 5) (imm : BitVec 12) (z : Nat) (answer : Ext) : State :=
  s.instr c g 4 true (fun s =>
    let va := ((s.ctx c).ea ra imm).toNat
    let n := sizeOf z
    let v := bytesLE n ((s.ctx c).rd rs).toNat
    if va % n ≠ 0 then .exc ⟨.align, va, 0⟩ s
    else
      let a := s.accessor c
      let (t, s) := s.resolveFor c va true
      match s.modifyAt c t va (s.sliceKey a.slice) n false answer (fun _ => some v) with
      | (.done _, s) => .next s
      | (.rerr e, s) => .next (s.setRerr c e)
      | (.wait, s) => .stay (s.keepAccess c va true t)
      | (.overrun off, s) => match (s.core c).item with
        | some i => .left (s.holdupOverrun i off)
        | none => .stay s
      | (.exc e, s) => .exc ⟨e, va, 0⟩ s)

/-- A window load of size code `z`, zero-extended (R116). -/
def State.loadWin (s : State) (c : Nat) (g : Guard) (rd ra : BitVec 5) (imm : BitVec 12) (z : Nat) : State :=
  s.instr c g 4 true (fun s =>
    let va := ((s.ctx c).ea ra imm).toNat
    let n := sizeOf z
    if va % n ≠ 0 then .exc ⟨.align, va, 0⟩ s
    else match (s.ctx c).window va n with
      | none => .exc ⟨.lsRange, va, 0⟩ s
      | some p => .next (s.mapCtx c (fun x => x.wr rd (BitVec.ofNat 64 (natLE ((s.core c).lsRead p n))))))

/-- A window store of size code `z` (R116). -/
def State.storeWin (s : State) (c : Nat) (g : Guard) (rs ra : BitVec 5) (imm : BitVec 12) (z : Nat) : State :=
  s.instr c g 4 true (fun s =>
    let va := ((s.ctx c).ea ra imm).toNat
    let n := sizeOf z
    if va % n ≠ 0 then .exc ⟨.align, va, 0⟩ s
    else match (s.ctx c).window va n with
      | none => .exc ⟨.lsRange, va, 0⟩ s
      | some p => .next (s.setCore c ((s.core c).lsWrite p (bytesLE n ((s.ctx c).rd rs).toNat))))

/-- R133: LD.B. -/
def execLdB (core : Nat) (guard : Guard) (rd ra : BitVec 5) (imm : BitVec 12) (answer : Ext) (s : State) : Result := .next (s.load core guard rd ra imm 0 answer)
/-- R133: LD.H. -/
def execLdH (core : Nat) (guard : Guard) (rd ra : BitVec 5) (imm : BitVec 12) (answer : Ext) (s : State) : Result := .next (s.load core guard rd ra imm 1 answer)
/-- R133: LD.W. -/
def execLdW (core : Nat) (guard : Guard) (rd ra : BitVec 5) (imm : BitVec 12) (answer : Ext) (s : State) : Result := .next (s.load core guard rd ra imm 2 answer)
/-- R133: LD.D. -/
def execLdD (core : Nat) (guard : Guard) (rd ra : BitVec 5) (imm : BitVec 12) (answer : Ext) (s : State) : Result := .next (s.load core guard rd ra imm 3 answer)
/-- R116: LDL.B. -/
def execLdlB (core : Nat) (guard : Guard) (rd ra : BitVec 5) (imm : BitVec 12) (s : State) : Result := .next (s.loadWin core guard rd ra imm 0)
/-- R116: LDL.H. -/
def execLdlH (core : Nat) (guard : Guard) (rd ra : BitVec 5) (imm : BitVec 12) (s : State) : Result := .next (s.loadWin core guard rd ra imm 1)
/-- R116: LDL.W. -/
def execLdlW (core : Nat) (guard : Guard) (rd ra : BitVec 5) (imm : BitVec 12) (s : State) : Result := .next (s.loadWin core guard rd ra imm 2)
/-- R116: LDL.D. -/
def execLdlD (core : Nat) (guard : Guard) (rd ra : BitVec 5) (imm : BitVec 12) (s : State) : Result := .next (s.loadWin core guard rd ra imm 3)
/-- R133: ST.B. -/
def execStB (core : Nat) (guard : Guard) (rs ra : BitVec 5) (imm : BitVec 12) (answer : Ext) (s : State) : Result := .next (s.store core guard rs ra imm 0 answer)
/-- R133: ST.H. -/
def execStH (core : Nat) (guard : Guard) (rs ra : BitVec 5) (imm : BitVec 12) (answer : Ext) (s : State) : Result := .next (s.store core guard rs ra imm 1 answer)
/-- R133: ST.W. -/
def execStW (core : Nat) (guard : Guard) (rs ra : BitVec 5) (imm : BitVec 12) (answer : Ext) (s : State) : Result := .next (s.store core guard rs ra imm 2 answer)
/-- R133: ST.D. -/
def execStD (core : Nat) (guard : Guard) (rs ra : BitVec 5) (imm : BitVec 12) (answer : Ext) (s : State) : Result := .next (s.store core guard rs ra imm 3 answer)
/-- R116: STL.B. -/
def execStlB (core : Nat) (guard : Guard) (rs ra : BitVec 5) (imm : BitVec 12) (s : State) : Result := .next (s.storeWin core guard rs ra imm 0)
/-- R116: STL.H. -/
def execStlH (core : Nat) (guard : Guard) (rs ra : BitVec 5) (imm : BitVec 12) (s : State) : Result := .next (s.storeWin core guard rs ra imm 1)
/-- R116: STL.W. -/
def execStlW (core : Nat) (guard : Guard) (rs ra : BitVec 5) (imm : BitVec 12) (s : State) : Result := .next (s.storeWin core guard rs ra imm 2)
/-- R116: STL.D. -/
def execStlD (core : Nat) (guard : Guard) (rs ra : BitVec 5) (imm : BitVec 12) (s : State) : Result := .next (s.storeWin core guard rs ra imm 3)

/-! ### Atomics (R137, Table 5-9) -/

/-- Operations of AMO. -/
inductive AmoOp where
  | add
  | swap
  | cas
  | min
  | max
  | minu
  | maxu
deriving DecidableEq, Repr

/-- Signed order of two words of `w` bits. -/
def sltBits (w a b : Nat) : Bool := decide ((BitVec.ofNat w a).toInt < (BitVec.ofNat w b).toInt)

/-- The new value of a word of `w` bits, or none for a CAS that fails: `old` in memory, `b` of rb, `d` of the incoming rd. -/
def AmoOp.new (o : AmoOp) (w old b d : Nat) : Option Nat :=
  match o with
  | .add => some ((old + b) % 2 ^ w)
  | .swap => some b
  | .cas => if old = d then some b else none
  | .min => some (if sltBits w b old then b else old)
  | .max => some (if sltBits w old b then b else old)
  | .minu => some (Nat.min old b)
  | .maxu => some (Nat.max old b)

/-- An atomic on 8 bytes (`d`) or 4: the old value goes to rd, zero-extended. AQ and RL order accesses that this model performs
in program order (R136). -/
def State.amo (s : State) (o : AmoOp) (c : Nat) (g : Guard) (rd ra rb : BitVec 5) (d : Bool) (answer : Ext) : State :=
  s.instr c g 4 true (fun s =>
    let x := s.ctx c
    let va := (x.rd ra).toNat
    let n := if d then 8 else 4
    let cut (w : Word) : Nat := w.toNat % 2 ^ (8 * n)
    if va % n ≠ 0 then .exc ⟨.align, va, 0⟩ s
    else
      let a := s.accessor c
      let (t, s) := s.resolveFor c va true
      match s.modifyAt c t va (s.sliceKey a.slice) n true answer
          (fun old => (o.new (8 * n) (natLE old) (cut (x.rd rb)) (cut (x.rd rd))).map (bytesLE n)) with
      | (.done old, s) => .next (s.mapCtx c (fun x => x.wr rd (BitVec.ofNat 64 (natLE old))))
      | (.rerr e, s) => .next ((s.setRerr c e).mapCtx c (fun x => x.wr rd 0))
      | (.wait, s) => .stay (s.keepAccess c va true t)
      | (.overrun off, s) => match (s.core c).item with
        | some i => .left (s.holdupOverrun i off)
        | none => .stay s
      | (.exc e, s) => .exc ⟨e, va, 0⟩ s)

/-- R137: AMO.ADD. -/
def execAmoAdd (core : Nat) (guard : Guard) (rd ra rb : BitVec 5) (_aq _rl d : Bool) (answer : Ext) (s : State) : Result :=
  .next (s.amo .add core guard rd ra rb d answer)
/-- R137: AMO.SWAP. -/
def execAmoSwap (core : Nat) (guard : Guard) (rd ra rb : BitVec 5) (_aq _rl d : Bool) (answer : Ext) (s : State) : Result :=
  .next (s.amo .swap core guard rd ra rb d answer)
/-- R137: AMO.CAS. -/
def execAmoCas (core : Nat) (guard : Guard) (rd ra rb : BitVec 5) (_aq _rl d : Bool) (answer : Ext) (s : State) : Result :=
  .next (s.amo .cas core guard rd ra rb d answer)
/-- R137: AMO.MIN. -/
def execAmoMin (core : Nat) (guard : Guard) (rd ra rb : BitVec 5) (_aq _rl d : Bool) (answer : Ext) (s : State) : Result :=
  .next (s.amo .min core guard rd ra rb d answer)
/-- R137: AMO.MAX. -/
def execAmoMax (core : Nat) (guard : Guard) (rd ra rb : BitVec 5) (_aq _rl d : Bool) (answer : Ext) (s : State) : Result :=
  .next (s.amo .max core guard rd ra rb d answer)
/-- R137: AMO.MINU. -/
def execAmoMinu (core : Nat) (guard : Guard) (rd ra rb : BitVec 5) (_aq _rl d : Bool) (answer : Ext) (s : State) : Result :=
  .next (s.amo .minu core guard rd ra rb d answer)
/-- R137: AMO.MAXU. -/
def execAmoMaxu (core : Nat) (guard : Guard) (rd ra rb : BitVec 5) (_aq _rl d : Bool) (answer : Ext) (s : State) : Result :=
  .next (s.amo .maxu core guard rd ra rb d answer)

/-- R135: FENCE. Accesses of a context are performed in program order here, so every order that it asks for holds. -/
def execCueFence (core : Nat) (guard : Guard) (_mask : BitVec 5) (s : State) : Result := .next (s.instr core guard 4 true .next)

end Sys2Proof.Machine
end

