-- ==== Sys2Proof/Machine/CueSys.lean ====
section
/-!
DEFINITION. Instructions of a cue core on control words, handles, engines, queues, mailboxes and privilege (chapter 05).
-/

namespace Sys2Proof.Machine

/-! ### Control words (R114, Table 5-2) -/

/-- Indexes that Table 5-2 lists. -/
def cwListed (i : Nat) : Bool := decide (i ≤ 0x0C) || (decide (0x10 ≤ i) && decide (i ≤ 0x18))
/-- Control words that a guest reaches. -/
def cwGuest (i : Nat) : Bool := decide (i ≤ 0x0C)

/-- The item whose context a core holds. -/
def State.loaded (s : State) (c : Nat) : Option (Nat × Item) := (s.core c).item.bind (fun i => (s.item i).map (fun x => (i, x)))

/-- ns since an item's acceptance. -/
def State.elapsed (s : State) (x : Item) : Nat := s.now - x.acceptAt + s.holdover x.acceptAt

/-- A time as a guest sees it: a whole µs, rounded down (Table 15-6). -/
def Core.seen (k : Core) (ns : Nat) : Nat := if k.priv then ns else ns / 1000 * 1000

/-- The value of a control word as Table 5-2 gives it. -/
def State.cwPlain (s : State) (c i : Nat) : Word :=
  let k := s.core c
  let of (f : Item → Nat) : Word := match s.loaded c with | some (_, x) => BitVec.ofNat 64 (f x) | none => 0
  match i with
  | 0x00 => BitVec.ofNat 64 (b2n k.priv + 2 * b2n k.exl + 4 * b2n k.ie + 8 * b2n k.ppriv)
  | 0x01 => of (fun x => x.slice)
  | 0x02 => of (fun x => x.queue)
  | 0x03 => of (fun x => x.desc.tag)
  | 0x04 => of (fun x => x.desc.seq)
  | 0x05 => of (fun x => encodePromise x.slice x.promise)
  | 0x06 => of (fun x => k.seen (s.elapsed x))
  | 0x07 => BitVec.ofNat 64 k.ctx.rerr
  | 0x08 => BitVec.ofNat 64 k.ctx.remoteRt
  | 0x09 => BitVec.ofNat 64 (k.ctx.busy + k.ctx.doneMask * 2 ^ 16)
  | 0x0A => BitVec.ofNat 64 k.ctx.lsSize
  | 0x0B => of (fun x => x.teGrant)
  | 0x0C => of (fun x => x.meGrant)
  | 0x10 => k.epc
  | 0x11 => k.cause
  | 0x12 => k.badaddr
  | 0x13 => k.tvec
  | 0x14 => k.ivec
  | 0x15 => k.ctx.xctx
  | 0x16 => BitVec.ofNat 64 k.ctx.lsBase
  | 0x17 => BitVec.ofNat 64 c
  | 0x18 => of (fun x => x.sAdm)
  | _ => 0

/-- The value of a control word: what debug has put in its place goes before, an elapsed time counting on from it (R146). -/
def State.cwRead (s : State) (c i : Nat) : Word :=
  match (s.core c).ctx.forced.find? (fun f => f.index == i) with
  | some f => if i = 0x06 then f.value + BitVec.ofNat 64 (s.now - f.at_) else f.value
  | none => s.cwPlain c i

/-- A control word written at the privilege that may write it; bits that Table 5-2 holds at zero stay zero, and the words that
it marks RO keep their values. A write of cw.status sets PRIV as it says, so that firmware which clears it goes on at guest privilege
(DESIGN CHOICE, log entry 86: R118 names only ERET as the return). -/
def Core.cwWrite (k : Core) (i : Nat) (v : Word) : Core :=
  match i with
  | 0x00 => { k with priv := v.getLsbD 0, exl := v.getLsbD 1, ie := v.getLsbD 2, ppriv := v.getLsbD 3 }
  | 0x07 => { k with ctx := { k.ctx with rerr := v.toNat % 4 } }
  | 0x10 => { k with epc := v }
  | 0x11 => { k with cause := v &&& 0x0000FFFF007F00FF }
  | 0x12 => { k with badaddr := v }
  | 0x13 => { k with tvec := v &&& ~~~(63 : Word) }
  | 0x14 => { k with ivec := v &&& ~~~(63 : Word) }
  | 0x15 => { k with ctx := { k.ctx with xctx := v &&& 0x8000000000000FFF } }
  | 0x16 => { k with ctx := { k.ctx with lsBase := (v &&& ~~~(4095 : Word)).toNat } }
  | _ => k

/-- R114: CWR reads a control word; at guest privilege one marked "—" raises PRIV. -/
def execCwr (core : Nat) (guard : Guard) (rd : BitVec 5) (cw : BitVec 8) (s : State) : Result :=
  .next (s.instr core guard 4 (cwListed cw.toNat) (fun s =>
    if !(s.core core).priv ∧ !cwGuest cw.toNat then s.excAt core .priv
    else .next (s.mapCtx core (fun x => x.wr rd (s.cwRead core cw.toNat)))))

/-- R114: CWW writes a control word; at guest privilege only cw.rerr is writable, and any other raises PRIV. -/
def execCww (core : Nat) (guard : Guard) (cw : BitVec 8) (ra : BitVec 5) (s : State) : Result :=
  .next (s.instr core guard 4 (cwListed cw.toNat) (fun s =>
    if !(s.core core).priv ∧ cw.toNat ≠ 0x07 then s.excAt core .priv
    else .next (s.setCore core ((s.core core).cwWrite cw.toNat ((s.ctx core).rd ra)))))

/-! ### Waiting (R126, R128, R131) -/

/-- Handles of a context that are DONE with an outcome, as a mask. -/
def Ctx.outcomes (x : Ctx) (o : Outcome3) : Nat :=
  maskOf ((List.range 16).filter (fun i => match x.rdH i with | .done p => p == o | _ => false))

/-- What a WAITE writes to rd for the handles of a mask (R126). -/
def Ctx.report (x : Ctx) (mask : Nat) : Word :=
  BitVec.ofNat 64 ((x.doneMask &&& mask) + (x.outcomes .refused &&& mask) * 2 ^ 16 + (x.outcomes .expired &&& mask) * 2 ^ 32)

/-- Free the DONE handles of a mask. -/
def Ctx.freeDone (x : Ctx) (mask : Nat) : Ctx :=
  (List.range 16).foldl (fun x i => match x.rdH i with
    | .done _ => if mask.testBit i then x.wrH i .free else x
    | _ => x) x

/-- R126: WAITE waits for the named handles, a yield point while it must, then reports and frees them. -/
def execWaite (core : Nat) (guard : Guard) (rd : BitVec 5) (any : Bool) (mask : BitVec 16) (s : State) : Result :=
  .next (s.instr core guard 4 true (fun s =>
    let x := s.ctx core
    let m := mask.toNat
    if x.busy &&& m ≠ 0 ∧ !(any ∧ x.doneMask &&& m ≠ 0) then .stay (s.yieldWait core (m + b2n any * 2 ^ 16))
    else .next (s.mapCtx core (fun x => (x.freeDone m).wr rd (x.report m)))))

/-- Whether a core's instruction stream is a context of an item, and not steward service or the firmware's own. -/
def State.inContext (s : State) (c : Nat) : Bool := (s.core c).item.isSome && (s.core c).serviceAt.isNone

/-- R128: YIELD is a yield point. -/
def execYield (core : Nat) (guard : Guard) (s : State) : Result :=
  .next (s.instr core guard 4 true (fun s =>
    if s.inContext core then .left ((s.mapCtx core (fun x => { x with pc := x.pc + 4 })).yieldPoint core) else .next s))

/-- R129: BUDGET sets rd to what is left of the promise, and lowers cw.remote_rt to at most ra ns. -/
def execBudget (core : Nat) (guard : Guard) (rd ra : BitVec 5) (s : State) : Result :=
  .next (s.instr core guard 4 true (fun s =>
    let k := s.core core
    let left := match s.loaded core with | some (_, x) => k.seen (x.promise - s.elapsed x) | none => 0
    let a := (k.ctx.rd ra).toNat
    let rt := if a ≠ 0 ∧ a < (allowNs k.ctx.remoteRt).getD 0 then encodeDown a else k.ctx.remoteRt
    .next (s.mapCtx core (fun x => { x with remoteRt := rt }.wr rd (BitVec.ofNat 64 left)))))

/-- The runner goes on after a CUE node or a submission: it keeps the core if it can start a node, else it waits. -/
def State.runnerOn (s : State) (c i : Nat) : State :=
  match s.item i with
  | none => s
  | some x =>
    let s := s.setCore c { s.core c with priv := true, exl := false }
    if (s.core c).item = some i ∧ !(x.runner.any (fun r => r.canStart (s.nodesOf x))) then s.yieldWait c 0 else s

/-- An adapter's to-native entry ends: DONE 0 submits the operation, another value is a failure of the backend (R167, R168). -/
def State.submitted (s : State) (c i n b : Nat) (v : Word) : State :=
  if v = 0 then
    (s.updRunner i (fun r => { r with running := none, outstanding := r.outstanding ++ [n] })).runnerOn c i
  else
    let s := { s with work := { s.work with backends := s.work.backends.upd b (fun be =>
      { be with tokens := be.tokens.filter (fun (t : Nat × Token) => !(t.2.item == i && t.2.node == n)) }) } }
    s.backendFailed b i

/-! ### From-native (R167, R168) -/

/-- Change a backend's entry. -/
def State.updBackend (s : State) (n : Nat) (f : Backend → Backend) : State :=
  { s with work := { s.work with backends := s.work.backends.upd n f } }

/-- Take a backend's report of one operation (R168, R170, Table 6-9). -/
def State.takeReport (s : State) (n : Nat) (r : BkReport) : State :=
  match (s.work.backends.find n).bind (fun (b : Backend) => b.tokens.find r.token) with
  | none => s.incF .CST_BK_DROPPED_COUNT n
  | some t =>
    let s := s.updBackend n (fun b => { b with tokens := b.tokens.del r.token })
    if t.abandoned then s.incF .CST_BK_DROPPED_COUNT n
    else if r.ok then s.endNode t.item t.node r.result
    else s.backendFailed n t.item

/-- The item in whose context from-native runs: the one that the command names, if it has an operation on the backend without a report and
nothing has stopped it, else the one whose operation is the oldest (DESIGN CHOICE, log entry 91: R167 names no launch where several have
operations open). -/
def State.nativeItem (s : State) (b : Backend) (want : Option Nat) : Option (Nat × Item) :=
  let live := b.tokens.filterMap (fun (t : Nat × Token) =>
    if t.2.abandoned then none
    else (s.item t.2.item).bind (fun x => if x.cause.isNone then some (t.2.startedAt, t.2.item, x) else none))
  let named := live.filter (fun t => want == some t.2.1)
  ((if named = [] then live else named).foldl (fun (m : Option (Nat × Nat × Item)) t => match m with | some u => if t.1 < u.1 then some t else m | none => some t) none).map (·.2)

/-- Whether a core can turn to a from-native entry: it runs neither steward service nor another entry of an adapter. -/
def State.nativeFree (s : State) (c : Nat) : Bool :=
  let k := s.core c
  s.coreUp c && !s.bitF .CUE_DBG_CTRL_HALTED c && k.serviceAt.isNone && !k.exl && k.stack.isEmpty && k.reading.isNone && !s.inToNative c

/-- Where a backend's from-native entry runs: core, item, and the window's place and size. With no operation of a launch open it runs in a
free window of the first core that has one (DESIGN CHOICE, log entry 91). -/
def State.nativePlace (s : State) (b : Backend) (want : Option Nat) : Option (Nat × Option Nat × Nat × Nat) :=
  match s.nativeItem b want with
  | some (i, x) => if s.nativeFree x.core then some (x.core, some i, x.winBase, x.winSize) else none
  | none => (List.range 64).findSome? (fun c =>
      if s.nativeFree c then (s.windowBase c 16384).map (fun p => (c, none, p, 16384)) else none)

/-- Enter from-native for a write of the notify line that waits for it, with g5 = NATIVE_BASE (R167). -/
def State.readNative (s : State) (n : Nat) (want : Option Nat := none) : State :=
  match s.work.backends.find n with
  | none => s
  | some b =>
    if b.notify = 0 then s
    else match s.nativePlace b want with
      | none => s
      | some (c, i, base, size) =>
        let k := s.core c
        let x := (i.bind s.item)
        let e := adapterEntry (b.inCopy b.fromNative) ((x.map (fun x => x.rt)).getD (s.getF .PRM_REMOTE_RT_REMOTE_RT 0)) base size
          ((x.map (fun x => x.slice)).getD 0)
        let ctx := { e with g := e.g.setIfInBounds 5 (BitVec.ofNat 64 b.nativeBase) }
        (s.updBackend n (fun b => { b with notify := b.notify - 1 })).setCore c { k with
          ctx := ctx, priv := true, reading := some ⟨n, i, size, k.ctx, k.priv⟩, serviceAt := if k.item.isSome then some s.now else k.serviceAt }

/-- The core on which a backend's adapter runs from-native, be it free or not: that of the item in whose context it runs, else the first core
that can take it, else the first one up. -/
def State.nativeCore (s : State) (b : Backend) (want : Option Nat) : Option Nat :=
  match s.nativeItem b want, s.nativePlace b want with
  | some (_, x), _ => some x.core
  | none, some p => some p.1
  | none, none => (List.range 64).find? s.coreUp

/-- The block observes a write to a backend's notify line: NOTIFY is set at the core on which the adapter runs (Table 14-1), and from-native is
entered for this write as soon as that core can (R167). -/
def State.notified (s : State) (n : Nat) (want : Option Nat := none) : State :=
  let s := s.updBackend n (fun b => { b with notify := b.notify + 1 })
  let c := (s.work.backends.find n).bind (s.nativeCore · want)
  (match c with | some c => s.cicEvent c 3 | none => s).readNative n want

/-- The entries that from-native left in its window: token, status and result, 16 bytes each (R167). -/
def Core.reports (k : Core) (p n : Nat) : List BkReport :=
  (List.range n).map (fun i =>
    let b := k.lsRead (p + 16 * i) 16
    ⟨natLE (b.take 2), natLE ((b.drop 2).take 1) == 0, BitVec.ofNat 64 (natLE (b.drop 8))⟩)

/-- From-native ends with DONE n: its n entries are taken, and a write that came meanwhile is served (R167). -/
def State.nativeDone (s : State) (c : Nat) (r : Reading) (p n : Nat) : State :=
  let l := (s.core c).reports p n
  ((((s.leaveNative c).each l (fun s x => s.takeReport r.backend x)).dispatch c)).readNative r.backend

/-- R131, R151: DONE waits for BUSY handles as a yield point; then a RUN item completes ST_OK with RESULT ra, and a cast's node
ends. In an adapter's from-native entry it hands over its entries (R167), and in other steward code of no item it only retires. -/
def execDone (core : Nat) (guard : Guard) (ra : BitVec 5) (s : State) : Result :=
  .next (s.instr core guard 4 true (fun s =>
    let v := (s.ctx core).rd ra
    match (if s.inAdapter core then (s.core core).reading else none) with
    | some r => (match (s.ctx core).window 0 (16 * v.toNat) with
      | some p => .left (s.nativeDone core r p v.toNat)
      | none => .exc ⟨.lsRange, 0, 0⟩ s)
    | none =>
    match s.inContext core, s.loaded core with
    | true, some (i, x) =>
      if (s.ctx core).busy ≠ 0 then .stay (s.yieldWait core (s.ctx core).busy)
      else match x.runner with
        | none => .left ((s.closeStretch core).finishOk i v |>.dispatch core)
        | some r => match r.running with
          | none => .next s
          | some n => match (s.nodesOf x)[n]? with
            | some d => if d.kind = 2 then .left (s.submitted core i n d.backend v) else .left ((s.endNode i n v).runnerOn core i)
            | none => .next s
    | _, _ => .next s))

/-! ### Engines (R125) -/

/-- R125: TISSUE: the handle, the engine number, the grant, the alignment and the window are checked, then the descriptor is handed to the
engine and the handle is BUSY. -/
def execTissue (core : Nat) (guard : Guard) (hd : BitVec 4) (ra : BitVec 5) (te : BitVec 6) (s : State) : Result :=
  .next (s.instr core guard 8 (decide (te.toNat ≤ 47) || te.toNat == 63) (fun s =>
    let k := s.core core
    match k.ctx.rdH hd.toNat with
    | .busy _ => s.excAt core .handle
    | _ =>
      match s.loaded core with
      | none => s.excAt core .grant
      | some (i, x) =>
        let grant := (s.cwRead core 0x0B).toNat
        match (if te.toNat = 63 then s.pickTe grant core else if grant.testBit te.toNat then some te.toNat else none) with
        | none => s.excAt core .grant
        | some t =>
          let off := (k.ctx.rd ra).toNat
          if off % 64 ≠ 0 then .exc ⟨.align, off, 0⟩ s else
          let n := match k.ctx.window off 3 with | some p => todLen (k.lsRead p 3) | none => 128
          match k.ctx.window off n with
          | none => .exc ⟨.lsRange, off, 0⟩ s
          | some p =>
            let o := s.work.nextOp
            .next ((s.issueTod i x (some hd.toNat) none t (k.lsRead p n) off).mapCtx core (fun y => y.wrH hd.toNat (.busy o)))))

/-- R125: MISSUE: the handle, the engine, the alignment and the windows are checked, then the move is handed to the engine. -/
def execMissue (core : Nat) (guard : Guard) (hd : BitVec 4) (ra rb rc : BitVec 5) (srcWin dstWin : Bool) (me : BitVec 6) (zero : Bool)
    (s : State) : Result :=
  .next (s.instr core guard 8 ((decide (me.toNat ≤ 31) || me.toNat == 63) && !(zero && (ra != 0 || srcWin))) (fun s =>
    let k := s.core core
    match k.ctx.rdH hd.toNat with
    | .busy _ => s.excAt core .handle
    | _ =>
      match s.loaded core with
      | none => s.excAt core .grant
      | some (i, x) =>
        let grant := (s.cwRead core 0x0C).toNat
        match (if me.toNat = 63 then s.pickMe grant core else if grant.testBit me.toNat then some me.toNat else none) with
        | none => s.excAt core .grant
        | some m =>
          let src := (k.ctx.rd ra).toNat
          let dst := (k.ctx.rd rb).toNat
          let len := (k.ctx.rd rc).toNat
          if src % 64 ≠ 0 ∨ dst % 64 ≠ 0 then .exc ⟨.align, if src % 64 ≠ 0 then src else dst, 0⟩ s
          else if len = 0 ∨ len % 64 ≠ 0 ∨ 2 ^ 32 < len then s.excAt core .align
          else
            let place (win : Bool) (a : Nat) : Option Nat := if win then k.ctx.window a len else some a
            match place srcWin src, place dstWin dst with
            | some a, some b =>
              let o := s.work.nextOp
              let op := { Op.blank i x (.me m) s.now with
                handle := some hd.toNat, src := a, srcWin := srcWin, dst := b, dstWin := dstWin, len := len, zero := zero }
              .next ((s.addOp op).mapCtx core (fun y => y.wrH hd.toNat (.busy o)))
            | none, _ => .exc ⟨.lsRange, src, 0⟩ s
            | _, none => .exc ⟨.lsRange, dst, 0⟩ s))

/-! ### ENQ and signals (R127, R130) -/

/-- R127: ENQ appends the descriptor at a window offset to a device-written ring, or sets rd to 1 when the ring is full. A ring line that holders
outside the block have is taken from them first (R281). -/
def execEnq (core : Nat) (guard : Guard) (rd ra : BitVec 5) (qid : BitVec 14) (s : State) : Result :=
  .next (s.instr core guard 8 true (fun s =>
    let k := s.core core
    let off := (k.ctx.rd ra).toNat
    let q := qid.toNat
    if off % 64 ≠ 0 then .exc ⟨.align, off, 0⟩ s
    else match k.ctx.window off 64 with
      | none => .exc ⟨.lsRange, off, 0⟩ s
      | some p =>
        if (s.qState q ≠ 1 ∧ s.qState q ≠ 2) ∨ s.getF .QCX_CFG_KIND q ≠ 2 ∨ (!k.priv ∧ !(s.loaded core).any (fun x => x.2.slice == s.qSlice q)) then
          s.excAt core .enqDenied
        else
          let t := s.getF .QCX_SQ_PTRS_TAIL q
          if (t + 1) % s.entries q = s.getF .QCX_SQ_PTRS_HEAD q then .next (s.mapCtx core (fun x => x.wr rd 1))
          else
            let va := s.getF .QCX_SQ_BASE q * 4096 + 64 * t
            match s.heldPages (secOfCore core) ⟨s.qSlice q, none, false⟩ 2 va 64 with
            | (l@(_ :: _), s) => .stay (s.takeFrom l)
            | ([], s) => match s.writeBytes (secOfCore core) ⟨s.qSlice q, none, false⟩ k.item va (k.lsRead p 64), k.item with
            | (.done, s), _ => .next ((s.newTail q ((t + 1) % s.entries q)).mapCtx core (fun x => x.wr rd 0))
            | (.uncovered a, s), some i => .left (s.holdupOverrun i a)
            | (.uncovered _, s), none => .next (s.mapCtx core (fun x => x.wr rd 1))
            | (.hole, s), _ => .exc ⟨.poison, va, 0⟩ s
            | (.xlate r, s), _ => .exc ⟨.xlate r, va, 0⟩ s))

/-- R130: SIGNAL in mode CORE sets a software source of another core's CIC; steward only. -/
def execSignalCore (core : Nat) (guard : Guard) (ra : BitVec 5) (src : BitVec 7) (s : State) : Result :=
  .next (s.instr core guard 4 (decide (96 ≤ src.toNat)) (fun s =>
    if !(s.core core).priv then s.excAt core .priv
    else .next (s.cicEvent (((s.ctx core).rd ra).toNat % 64) src.toNat)))

/-- R130: SIGNAL in mode QUEUE is an event of the owning queue's vector. -/
def execSignalQueue (core : Nat) (guard : Guard) (s : State) : Result :=
  .next (s.instr core guard 4 true (fun s =>
    match s.loaded core with
    | some (_, x) => .next (if x.queue < 16384 then s.queueEvent x.queue else s)
    | none => .next s))

/-! ### Mailboxes (R132) -/

/-- Who a core is towards the mailboxes (R357). -/
def State.party (s : State) (c : Nat) : Party :=
  match (s.core c).priv, s.loaded c with
  | false, some (_, x) => .guest c x.slice
  | _, _ => .steward c

/-- Words of the local store. -/
def Core.words (k : Core) (p n : Nat) : List Word := (List.range n).map (fun i => BitVec.ofNat 64 (natLE (k.lsRead (p + 8 * i) 8)))

/-- R132: MBX.SEND posts n words to a channel, or sets rd to 1 while FULL is set. -/
def execMbxSend (core : Nat) (guard : Guard) (rd ra rb : BitVec 5) (n : BitVec 3) (s : State) : Result :=
  .next (s.instr core guard 4 true (fun s =>
    let k := s.core core
    let ch := (k.ctx.rd ra).toNat % 64
    let len := n.toNat + 1
    match s.mbxAccess ch (s.party core) with
    | .inr e => (s.mbxErr ch e).excAt core (if e = 1 then .domainOff else .mbxDenied)
    | .inl b =>
      let d := s.mbxDir ch b
      if d.full then .next (s.mapCtx core (fun x => x.wr rd 1))
      else match k.ctx.window (k.ctx.rd rb).toNat (8 * len) with
        | none => .exc ⟨.lsRange, (k.ctx.rd rb).toNat, 0⟩ s
        | some p =>
          let w := ((k.words p len).zipIdx).foldl (fun (v : Vector Word 8) x => v.setIfInBounds x.2 x.1) d.words
          .next (((s.setMbxDir ch b { d with words := w }).mbxPost ch b len).mapCtx core (fun x => x.wr rd 0))))

/-- R132: MBX.RECV takes a waiting message into the window and clears FULL, or sets rd to 0. -/
def execMbxRecv (core : Nat) (guard : Guard) (rd ra rb : BitVec 5) (s : State) : Result :=
  .next (s.instr core guard 4 true (fun s =>
    let k := s.core core
    let ch := (k.ctx.rd ra).toNat % 64
    match s.mbxAccess ch (s.party core) with
    | .inr e => (s.mbxErr ch e).excAt core (if e = 1 then .domainOff else .mbxDenied)
    | .inl b =>
      let d := s.mbxDir ch (!b)
      if !d.full then .next (s.mapCtx core (fun x => x.wr rd 0))
      else match k.ctx.window (k.ctx.rd rb).toNat (8 * d.len) with
        | none => .exc ⟨.lsRange, (k.ctx.rd rb).toNat, 0⟩ s
        | some p =>
          let bytes := (d.words.toList.take d.len).flatMap (fun (w : Word) => bytesLE 8 w.toNat)
          .next (((s.setCore core (k.lsWrite p bytes)).mbxTake ch b).mapCtx core (fun x => x.wr rd (BitVec.ofNat 64 d.len)))))

/-! ### Ends of interrupts and exceptions (R118, R143, R352) -/

/-- R143: END retires the source on top of the priority stack; any other source raises PSF (R352). -/
def execEndSrc (core : Nat) (guard : Guard) (src : BitVec 7) (s : State) : Result :=
  .next (s.instr core guard 4 true (fun s =>
    let k := s.core core
    if !k.priv then s.excAt core .priv
    else match k.stack with
      | (top, _) :: rest =>
        if top = src.toNat then .next (s.setCore core { k with stack := rest })
        else psf s k top
      | [] => psf s k 0))
where
  /-- Record an out-of-order END. -/
  psf (s : State) (k : Core) (top : Nat) : Eff :=
    let s := ((s.bumpF .CIC_PSF_COUNT core).setF .CIC_PSF_NAMED core src.toNat).setF .CIC_PSF_TOP core top
    ((s.setF .CIC_PSF_DEPTH core k.stack.length).managerCause 8).excAt core .psf

/-- R123: ERET: PRIV = PPRIV, EXL = 0, pc = cw.epc; steward only. -/
def execEret (core : Nat) (guard : Guard) (s : State) : Result :=
  .next (s.instr core guard 4 true (fun s =>
    let k := s.core core
    if !k.priv then s.excAt core .priv
    else
      let s := s.setCore core { k with priv := k.ppriv, exl := false, ctx := { k.ctx with pc := k.epc } }
      .left (if !k.ppriv ∨ k.stack = [] then s.endService core else s)))

end Sys2Proof.Machine
end

