-- ==== Sys2Proof/Machine/Casts.lean ====
section
/-!
DEFINITION. Casts and backends (chapter 06): registering and patching cast images, the switch of versions, backends and their
reports.
-/

namespace Sys2Proof.Machine

/-! ### Cast images (R149, R152, Tables 6-2, 6-3) -/

/-- A node entry as read (Table 6-3), with its predecessors. -/
def parseNode (b : List Byte) (o predOff : Nat) : CastNode :=
  { kind := fieldLE b o 1, result := (fieldLE b (o + 1) 1).testBit 0,
    preds := (List.range (fieldLE b (o + 4) 2)).map (fun i => fieldLE b (predOff + 2 * (fieldLE b (o + 2) 2 + i)) 2),
    todWin := fieldLE b (o + 6) 2, entry := fieldLE b (o + 8) 4, backend := fieldLE b (o + 0x0C) 1, bop := fieldLE b (o + 0x0D) 1,
    argLen := fieldLE b (o + 0x0E) 2 }

/-- A cast image as read from its bytes (Table 6-2), at a store address. -/
def parseCast (b : List Byte) (addr : Nat) : CastVer :=
  let off := fieldLE b 0x10 4
  { addr := addr, len := fieldLE b 8 4, cflags := fieldLE b 0x0E 2,
    nodes := (List.range (min 1024 (fieldLE b 0x0C 2))).map (fun i => parseNode b (off + 32 * i) (fieldLE b 0x44 4)),
    codeOff := fieldLE b 0x14 4, codeLen := fieldLE b 0x18 4, todOff := fieldLE b 0x1C 4, todLen := fieldLE b 0x20 4,
    windowKib := fieldLE b 0x24 2, teNeed := fieldLE b 0x26 1, meNeed := fieldLE b 0x27 1, boundCore := fieldLE b 0x28 4,
    boundFix := fieldLE b 0x2C 4, energyRef := fieldLE b 0x30 4, rtrips := fieldLE b 0x34 2, backendOps := fieldLE b 0x36 2,
    bytes := fieldLE b 0x38 8, model := fieldLE b 0x40 2, batchMax := fieldLE b 0x42 2, digest := (b.drop 0x50).take 48, pins := 0 }

/-- Whether a node entry keeps Table 6-3 and lies within the image. -/
def nodeOk (b : List Byte) (v : CastVer) (i : Nat) (n : CastNode) : Bool :=
  let o := fieldLE b 0x10 4 + 32 * i
  let tensor := n.kind == 1
  let backend := n.kind == 2
  let tod := v.todOff + n.entry
  decide (n.kind ≤ 2 ∧ fieldLE b (o + 1) 1 < 2) && zeroAt b (o + 0x1C) 4 && n.preds.all (fun p => decide (p < i)) &&
    (n.preds == [] || decide (fieldLE b 0x44 4 + 2 * (fieldLE b (o + 2) 2 + n.preds.length) ≤ v.len)) &&
    (tensor || n.todWin == 0) && (backend || (n.backend == 0 && n.bop == 0 && n.argLen == 0)) && decide (n.backend < 64 ∧ n.bop < 64) &&
    (match n.kind with
    | 0 => n.entry % 4 == 0 && decide (n.entry < v.codeLen)
    | 1 => decide (n.entry + todLen ((b.drop tod).take 3) ≤ v.todLen ∧ n.todWin * 64 + todLen ((b.drop tod).take 3) ≤ v.windowKib * 1024)
    | _ => decide (n.entry + n.argLen ≤ v.todLen))

/-- Step 2 of R152: every field of the image within its range, and the image's parts in it. -/
def castOk (b : List Byte) (v : CastVer) (len : Nat) : Bool :=
  let isa := fieldLE b 6 2
  let inside (o n : Nat) : Bool := decide (o + n ≤ len)
  let stepOk := if v.cflags.testBit 0 then decide (1 ≤ v.batchMax ∧ v.batchMax ≤ 512) else v.batchMax == 0
  decide (128 ≤ len ∧ len ≤ 67108864 ∧ v.len = len ∧ fieldLE b 0 4 = 0x54534143 ∧ fieldLE b 4 2 = 1 ∧ isa / 256 = 1 ∧ isa % 256 ≤ 4) &&
    decide (1 ≤ fieldLE b 0x0C 2 ∧ fieldLE b 0x0C 2 ≤ 1024 ∧ v.cflags < 8) && zeroAt b 0x48 8 &&
    decide (fieldLE b 0x10 4 % 32 = 0 ∧ v.codeOff % 64 = 0 ∧ v.todOff % 64 = 0) && inside (fieldLE b 0x10 4) (32 * fieldLE b 0x0C 2) &&
    inside v.codeOff v.codeLen && inside v.todOff v.todLen && inside (fieldLE b 0x44 4) 0 &&
    decide (v.windowKib % 4 = 0 ∧ 4 ≤ v.windowKib ∧ v.windowKib ≤ 160 ∧ v.teNeed ≤ 48 ∧ v.meNeed ≤ 32) && stepOk &&
    decide (v.model < 1024 ∨ v.model = 0xFFFF) && v.nodes.countP (fun n => n.result) == 1 &&
    v.cflags.testBit 1 == v.nodes.any (fun n => n.kind == 2) && (decide (1 ≤ v.teNeed) || !v.nodes.any (fun n => n.kind == 1)) &&
    v.nodes.zipIdx.all (fun p => nodeOk b v p.2 p.1)

/-- Step 3 of R152: DIGEST is SHA-384 over the image with the field zero (R149). -/
def digestOk (b : List Byte) : Bool := Config.sha384 (b.take 0x50 ++ List.replicate 48 0 ++ b.drop 0x80) == (b.drop 0x50).take 48

/-! ### The cast store -/

/-- Copy bytes into the store for an item, and count its KiB; `none` where its durable pages pass the item's reservation (R243). An image
that waits for its switch counts as held already (DESIGN CHOICE, log entry 90). -/
def State.storeCopy (s : State) (i addr : Nat) (b : List Byte) : Option State :=
  let off := addr % 2 ^ 48
  (s.takeDurable (some i) off b.length).map (fun s =>
    (s.writeHome off 0 b).setF .CST_STORE_USED_USED_KIB 0 (s.getF .CST_STORE_USED_USED_KIB 0 + storeKib b.length))

/-- Release the KiB of a copy. -/
def State.storeFree (s : State) (len : Nat) : State :=
  s.setF .CST_STORE_USED_USED_KIB 0 (s.getF .CST_STORE_USED_USED_KIB 0 - storeKib len)

/-! ### Registering and patching (R152–R154) -/

/-- Supersede a cast's LIVE version, with no successor; with no pins it is freed. -/
def State.supersede (s : State) (cast : Nat) : State :=
  match (List.range 4).find? (fun k => s.slotState cast k == 1) with
  | none => s
  | some k => ((s.setSlot cast k 2 (s.slotVer cast k)).setF .CST_CAST_LIVE_VER cast 0).freeVersion cast k

/-- Copy and check an image (steps 1 to 3 of R152); a good one waits for its switch. -/
def State.takeImage (s : State) (i : Nat) (b : List Byte) (addr cast owner : Nat) (patch : Bool) : State :=
  match s.storeCopy i addr b with
  | none => s.holdupOverrun i addr
  | some s =>
    let v := parseCast b addr
    if castOk b v b.length && digestOk b then
      { s with work := { s.work with castPend := some ⟨cast, owner, patch, i, v⟩ } }
    else (s.storeFree b.length).badDesc i 5

/-- REGISTER_CAST and PATCH_CAST up to the switch: the argument block, the CastID's state, the room, then the image. While another
image waits for its switch, the operation waits (R158). -/
def State.takeCast (s : State) (i opc : Nat) (patch : Bool) (reads : List Ext) : Result :=
  match s.live i opc with
  | none => .next s
  | some x =>
    if s.work.castPend.isSome then .next s
    else .next (s.withArgs i 32 x reads (fun b rs s =>
      let cast := fieldLE b 0 2
      let len := fieldLE b 4 4
      match s.castBad b patch, x.takenOr (s.storeTake b len) with
      | some e, _ => s.finishItem i e.1 e.2 none 0
      | none, none => s.badDesc i 8
      | none, some r =>
        let addr := r.addr
        if len = 0 then (s.supersede cast).finishOk i 0
        else match s.readGuest 0 ⟨0, none, false⟩ (fieldLE b 8 8) len rs with
          | (.bytes img, _, s) => s.takeImage i img addr cast (fieldLE b 2 2) patch
          | (r, _, s) => s.readFailed i r))

/-- R152: REGISTER_CAST copies and checks an image; its version 1 becomes LIVE at the switch. -/
def execRegisterCast (item : Nat) (reads : List Ext) (s : State) : Result := s.takeCast item 0x90 false reads

/-- R153: PATCH_CAST copies and checks an image; the next version becomes LIVE at the switch. -/
def execPatchCast (item : Nat) (reads : List Ext) (s : State) : Result := s.takeCast item 0x91 true reads

/-- The number of a patch's version: the next after the last issued, wrapping after 4,095, past those held (R153). -/
def State.nextVersion (s : State) (cast : Nat) : Nat :=
  let hi := s.work.castHi.findD cast 0
  let held (v : Nat) : Bool := (List.range 4).any (fun k => s.slotState cast k != 0 && s.slotVer cast k == v)
  (((List.range 5).map (fun i => (hi + i) % 4095 + 1)).find? (fun v => !held v)).getD 1

/-- Extend the cast log (R370). -/
def State.logCast (s : State) (digest : List Byte) (n : Nat) : State :=
  { s with sec := { s.sec with castLog := s.sec.castLog ++ [⟨digest, n⟩] } }

/-- Put a version into an empty slot, LIVE. A registration leaves the highest number ever issued for the CastID as it is (R153). -/
def State.goLive (s : State) (p : CastPending) (ver : Nat) : State :=
  let k := ((List.range 4).find? (fun k => s.slotState p.cast k == 0)).getD 0
  let s := (s.setSlot p.cast k 1 ver).setF .CST_CAST_LIVE_VER p.cast ver
  { s with work := { s.work with casts := s.work.casts.put (p.cast * 4 + k) p.ver, castHi := s.work.castHi.put p.cast (if p.patch then ver else max ver (s.work.castHi.findD p.cast 0)) } }

/-- R154: the switch: the version becomes LIVE at one instant, the previous one SUPERSEDED; then the operation completes with the
version. An operation that ended meanwhile, or whose cast is gone, releases its copy. -/
def execCastVersionSwitch (s : State) : Result :=
  match s.work.castPend with
  | none => .next s
  | some p =>
    let s := { s with work := { s.work with castPend := none } }
    match s.live p.item (if p.patch then 0x91 else 0x90) with
    | none => .next (s.storeFree p.ver.len)
    | some _ =>
      if s.bitF .CST_CAST_VALID p.cast ≠ p.patch then .next ((s.storeFree p.ver.len).badDesc p.item 8)
      else
        let ver := if p.patch then s.nextVersion p.cast else 1
        let old := (List.range 4).find? (fun k => s.slotState p.cast k == 1)
        let s := if p.patch then s else (s.setF .CST_CAST_VALID p.cast 1).setF .CST_CAST_OWNER p.cast p.owner
        let s := match old with | some k => s.setSlot p.cast k 2 (s.slotVer p.cast k) | none => s
        let s := s.goLive p ver
        let s := match old with | some k => s.freeVersion p.cast k | none => s
        .next ((s.logCast p.ver.digest p.cast).finishOk p.item (BitVec.ofNat 64 ver))

/-! ### Backends (R165–R170) -/

/-- Keep the hold of a backend's notify line: where a write has taken it, the line is asked for again, and from-native runs when it is there. -/
def State.tendNotify (s : State) (n : Nat) : State :=
  match (s.work.backends.find n).bind (fun (b : Backend) => b.watch) with
  | none => s
  | some w =>
    if s.keeps w ∧ !w.lost then s
    else
      let s := s.holdLine w 0
      let there := s.keeps w || !s.asking w
      let s := s.updBackend n (fun b => { b with watch := if there && !s.keeps w then none else some { w with lost := !there } })
      if there then s.notified n else s

/-- Writes of notify lines since the last command are observed, and from-native is entered where a core has become free for it. -/
def State.tendBackends (s : State) : State :=
  s.each (s.work.backends.map (fun (kv : Nat × Backend) => kv.1)) (fun s n => (s.tendNotify n).readNative n)

/-- Whether a profile keeps Table 6-8. Entries and a notify line that are not 64-byte aligned do not: the table gives their alignment only by
what they are (DESIGN CHOICE, log entry 89). -/
def profileOk (b : List Byte) : Bool :=
  decide (fieldLE b 0 1 < 64 ∧ fieldLE b 1 1 ≤ 8 ∧ fieldLE b 2 2 < 2 ∧ 1 ≤ fieldLE b 4 2 ∧ fieldLE b 4 2 ≤ 1024) && zeroAt b 6 2 && zeroAt b 0x12 6 &&
    (fieldLE b 1 1 == 8 || zeroAt b 0x10 2) && zeroAt b 0x3D 1 && zeroAt b 0x48 56 && fieldLE b 0x20 8 % 64 == 0 &&
    fieldLE b 0x28 8 % 64 == 0 && fieldLE b 0x30 8 % 64 == 0 && (allowNs (fieldLE b 8 4)).isSome

/-- A profile as an entry, with its adapter copied at `addr`, the operations that accepted items have reserved and the bound headers. -/
def parseBackend (b : List Byte) (addr reserved : Nat) (links : List (Nat × Nat)) (to_ from_ : Hdr) : Backend :=
  { transport := fieldLE b 1 1, maxOps := fieldLE b 4 2, linkMbps := fieldLE b 0x0C 4, node := fieldLE b 0x10 2, nativeBase := fieldLE b 0x18 8,
    notifyLine := fieldLE b 0x20 8, toNative := fieldLE b 0x28 8, fromNative := fieldLE b 0x30 8, copyAddr := addr, copyLen := fieldLE b 0x38 4,
    lateLimit := fieldLE b 0x3C 1, lateWindow := fieldLE b 0x3E 2, ops := fieldLE b 0x40 8, tokens := [], lateTimes := [], reserved := reserved, links := links,
    toHdr := to_, fromHdr := from_, notify := 0, watch := none }

/-- The bound header of an adapter entry in the image read from `base`, if it is good. -/
def entryHdr (img : List Byte) (base entry : Nat) : Option Hdr :=
  let o := entry - 0x40 - base
  if entry - base ≤ img.length then parseHdr ((img.drop o).take 64) else none

/-- The bound of an adapter entry at S = 1.75 (R165). -/
def Hdr.entryBound (h : Hdr) : Nat := scale 1792 h.core + h.fix

/-- What a backend reserves on the ports (R316): LINK_MBPS on each live port that its node's route names (DEDUCED, log entry 43);
a host port carries no such reservation. -/
def State.backendLinks (s : State) (b : List Byte) : List (Nat × Nat) :=
  if fieldLE b 1 1 = 8 ∧ fieldLE b 0x0C 4 ≠ 0 then
    match s.route (fieldLE b 0x10 2) false with
    | .via e => (((entryPorts e).filter s.portLive).foldl addNew []).map (fun p => (p, fieldLE b 0x0C 4))
    | _ => []
  else []

/-- Give back a backend's reservations on the ports. -/
def State.unlink (s : State) (l : List (Nat × Nat)) : State :=
  s.each l (fun s p => (s.setF .FIL_PORT_RES_IN_MBPS p.1 (s.getF .FIL_PORT_RES_IN_MBPS p.1 - p.2)).setF .FIL_PORT_RES_OUT_MBPS p.1
    (s.getF .FIL_PORT_RES_OUT_MBPS p.1 - p.2))

/-- Record a profile that has passed its checks and whose adapter image is in the store: the backend is ACTIVE with no late operation, and the block holds its notify
line where that is in this node's pool (R165, R167). -/
def State.putBackend (s : State) (b img : List Byte) (addr reserved : Nat) (links : List (Nat × Nat)) (to_ from_ : Hdr) : State :=
  let n := fieldLE b 0 1
  let s := s.reserveLinks links
  let s := { s with work := { s.work with backends := s.work.backends.put n (parseBackend b addr reserved links to_ from_) } }
  let s := ((s.setF .CST_BK_STATE_STATE n 1).setF .CST_BK_WBOUND_W_BOUND n (fieldLE b 8 4)).setF .CST_BK_LATE_COUNT n 0
  let s := s.logCast (Config.sha384 img) n
  let (w, s) := s.watchAt 0 0 (fieldLE b 0x20 8)
  match w with
  | none => s
  | some w => (s.holdLine w 0).updBackend n (fun e => { e with watch := some { w with lost := false } })

/-- Forget an entry that REPLACE takes the place of. -/
def State.dropBackend (s : State) (n : Nat) : State :=
  match s.work.backends.find n with
  | some o => { ((s.storeFree o.copyLen).unlink o.links) with work := { s.work with backends := s.work.backends.del n } }
  | none => s

/-- R165: REGISTER_BACKEND checks a profile, copies its adapter and records it; the backend is ACTIVE. -/
def execRegisterBackend (item : Nat) (reads : List Ext) (s : State) : Result :=
  match s.live item 0x98 with
  | none => .next s
  | some x => .next (s.withArgs item 128 x reads (fun b rs s =>
    let n := fieldLE b 0 1
    let base := min (fieldLE b 0x28 8) (fieldLE b 0x30 8) - 0x40
    let len := fieldLE b 0x38 4
    if !profileOk b then s.badDesc item 5
    else match s.readGuest 0 ⟨0, none, false⟩ base len rs with
      | (.bytes img, _, s) =>
        match entryHdr img base (fieldLE b 0x28 8), entryHdr img base (fieldLE b 0x30 8) with
        | some t, some f =>
          let w := (allowNs (fieldLE b 8 4)).getD 0
          let old := s.work.backends.find n
          if (allowNs (s.getF .PRM_MAX_BOUND_MAX_BOUND 0)).getD 0 < w ∨ w < t.entryBound + f.entryBound then s.badDesc item 5
          else if old.any (fun (o : Backend) => !(fieldLE b 2 2).testBit 0 || o.tokens != []) then s.badDesc item 8
          else
            let s' := s.dropBackend n
            if !s'.linksOk (s'.backendLinks b) then s.badDesc item 8
            else match x.takenOr (s'.storeTake b len) with
              | none => s.badDesc item 8
              | some r => match s'.storeCopy item r.addr img with
                | none => s.holdupOverrun item r.addr
                | some s' => (s'.putBackend b img r.addr (old.elim 0 (fun (o : Backend) => o.reserved)) (s'.backendLinks b) t f).finishOk item 0
        | _, _ => s.badDesc item 5
      | (r, _, s) => s.readFailed item r))

/-- R167: a write to a backend's notify line runs from-native, which reports the finished operations, in the context of `launch` if it
can. -/
def execNotifyLineWrite (backend : Nat) (launch : Option Nat) (s : State) : Result :=
  .next (if s.getF .CST_BK_STATE_STATE backend = 0 then s else (s.notified backend launch).tendNotify backend)

/-- LATE_LIMIT and LATE_WINDOW in ns, with what zero stands for (Table 6-8). -/
def Backend.late (b : Backend) : Nat × Nat :=
  (if b.lateLimit = 0 then 4 else b.lateLimit, (if b.lateWindow = 0 then 600 else b.lateWindow) * 1000000000)

/-- Overruns of a backend within its window. -/
def State.lateCount (s : State) (b : Backend) : Nat := (b.lateTimes.filter (fun t => decide (s.now ≤ t + b.late.2))).length

/-- Count an overrun; a backend that reaches its limit within its window goes OUT_OF_SERVICE, with a record and manager cause
BACKEND (R169). The record's ACTION is 0, since the rule names none (DESIGN CHOICE, log entry 114). -/
def State.countLate (s : State) (n : Nat) : State :=
  let s := (s.incF .CST_BK_LATE_COUNT n).updBackend n (fun b => { b with lateTimes := b.lateTimes ++ [s.now] })
  match s.work.backends.find n with
  | some b =>
    if s.getF .CST_BK_STATE_STATE n = 1 ∧ b.late.1 ≤ s.lateCount b then
      let s := ((s.setF .CST_BK_STATE_STATE n 2).unlink b.links).updBackend n (fun b => { b with links := [] })
      (s.fault { FaultRec.blank 0x0010 0 9 with unit := n }).managerCause 5
    else s
  | none => s

/-- R168: W_BOUND elapses with no report: the operation counts as late, and its item ends ST_FAULT, BACKEND_LATE, with a record;
an abandoned operation only counts (R170). -/
def execBackendWboundExpiry (backend token : Nat) (s : State) : Result :=
  match (s.work.backends.find backend).bind (fun (b : Backend) => b.tokens.find token) with
  | none => .next s
  | some t =>
    if s.now < t.startedAt + s.wBound backend then .next s
    else
      let s := s.updBackend backend (fun b => { b with tokens := b.tokens.del token })
      match t.abandoned, s.itemNow t.item with
      | false, some x =>
        let ref := s.nextIndex
        let r := { s.recordOf x 0x000F 1 9 with unit := backend, castNode := t.node, aux0 := token, status := 3, creason := 6 }
        .next (((s.fault r).countLate backend).endContext t.item ⟨3, 6, true, some ref, some 3⟩)
      | _, _ => .next (s.countLate backend)

end Sys2Proof.Machine
end

