-- ==== Sys2Proof/Machine/CueEvent.lean ====
section
/-!
DEFINITION. Events of a cue core (chapters 05, 14): interrupt entry, the hang limit of a stretch, debug halt and stepping.
-/

namespace Sys2Proof.Machine

/-! ### Interrupt entry (R140, R351) -/

/-- Whether a source of a core is pending and enabled. -/
def State.pendingOn (s : State) (c i : Nat) : Bool := s.bitOf .CIC_PEND (c * 4 + i / 32) (i % 32) && s.bitOf .CIC_EN (c * 4 + i / 32) (i % 32)

/-- Priority of a source, 0 the highest (CIC_PRIO). -/
def State.prioOf (s : State) (c i : Nat) : Nat := bits (s.getF .CIC_PRIO (c * 16 + i / 8)) (4 * (i % 8)) 4

/-- Whether the privilege, IE and EXL of a core allow an interrupt (R140). -/
def Core.mayTake (k : Core) : Bool := !k.priv || (k.ie && !k.exl)

/-- Whether a source may be taken by priority: above the top of the stack, or the stack is empty. -/
def Core.above (k : Core) (p : Nat) : Bool := match k.stack with | [] => true | (_, t) :: _ => decide (p < t)

/-- The eligible source that a core takes: the lowest priority number, then the lowest source number (R351). -/
def State.eligible (s : State) (c : Nat) : Option Nat :=
  let l := (List.range 128).filter (fun i => s.pendingOn c i && (s.core c).above (s.prioOf c i))
  l.foldl (fun b i => match b with
    | none => some i
    | some j => if s.prioOf c i < s.prioOf c j then some i else some j) none

/-- A core takes a source: its pending bit clears, it goes on the stack, and the core enters cw.ivec with CAUSE INT; cw.badaddr keeps its
value, as an interrupt names no address (DESIGN CHOICE, log entry 85). The handler has the firmware's window size (R116), and the time of
the service is left out of the context's stretch (R128). -/
def State.takeSource (s : State) (c i : Nat) : State :=
  let k := s.core c
  let e := k.enter (BitVec.ofNat 64 (0x20 + i * 2 ^ 16)) k.badaddr k.ivec
  let k' := { e with
    ctx := { e.ctx with lsSize := 0x40000 }, stack := (i, s.prioOf c i) :: k.stack,
    serviceAt := if k.item.isSome ∧ k.serviceAt.isNone then some s.now else k.serviceAt }
  (s.setCore c k').setBit .CIC_PEND (c * 4 + i / 32) (i % 32) false

/-- R351: at an instruction boundary a core takes its eligible source. -/
def execInterruptEntry (core : Nat) (s : State) : Result :=
  if !s.coreUp core || s.bitF .CUE_DBG_CTRL_HALTED core || !(s.core core).mayTake then .next s
  else match s.eligible core with
    | some i => .next (s.takeSource core i)
    | none => .next s

/-! ### The hang limit of a stretch (R128, Table 16-3) -/

/-- Length of a core's open stretch: it stands still during interrupt service. -/
def State.stretchLen (s : State) (c : Nat) : Nat := (s.core c).serviceAt.getD s.now - (s.core c).stretchAt

/-- R128: a stretch that reaches 10 × 100,000 ns × S_adm raises STRETCH: a record, and a CUE reset of the core. -/
def execStretchExpiry (core : Nat) (s : State) : Result :=
  match s.loaded core with
  | some (i, _) => match s.itemNow i with
    | some x =>
      if s.stretchLen core < scale x.sAdm 1000000 then .next s
      else .next ((s.noteExc core 0x18).faultReset (unitOfCore core) { s.recordOf x 0x0006 2 3 with core := core, aux0 := s.stretchLen core })
    | none => .next s
  | none => .next s

/-! ### Debug halt (R146) -/

/-- The accepted items that a core holds and that have neither stopped nor been broken: those whose context is there, and the members of a
step that runs there. -/
def State.heldOn (s : State) (c : Nat) : List Nat :=
  let member (i : Nat) : Bool := s.serve.chains.any (fun (kv : Nat × Chain) => kv.2.steps.any (fun st => st.started && st.core == c && st.members.contains i))
  (s.work.items.filter (fun (kv : Nat × Item) => !kv.2.step && kv.2.cause.isNone && !kv.2.broken && (kv.2.contextOn c || member kv.1))).map (·.1)

/-- Halt a core: HALTED is set; with accepted items on it, which TEST_EN alone allows, their promises break, each once (R74, R76). -/
def State.haltCore (s : State) (c : Nat) : State :=
  let held := s.heldOn c
  let s := (s.setF .CUE_DBG_CTRL_HALTED c 1).setF .PRM_BROKEN_COUNT 0 (s.getF .PRM_BROKEN_COUNT 0 + held.length)
  s.each held (fun s i => s.updItem i (fun x => { x with broken := true }))

/-- R146: HALT_REQ is set, and source DEBUG of the core is raised; the core fetches no new descriptor. -/
def execCueHaltReq (core : Nat) (s : State) : Result := .next ((s.setF .CUE_DBG_CTRL_HALT_REQ core 1).cicEvent core 5)

/-- R146: a core with HALT_REQ halts at an instruction boundary at which it holds no accepted item, or at once with TEST_EN. -/
def execCueHalted (core : Nat) (s : State) : Result :=
  .next (if s.coreUp core ∧ s.bitF .CUE_DBG_CTRL_HALT_REQ core ∧ !s.bitF .CUE_DBG_CTRL_HALTED core ∧
      (s.edge.straps.testEn ∨ s.itemsWhere (fun (x : Item) => x.contextOn core) = []) then s.haltCore core else s)

/-- R146: RESUME, while halted, clears HALT_REQ and the core goes on. -/
def execCueResume (core : Nat) (s : State) : Result :=
  .next (if s.bitF .CUE_DBG_CTRL_HALTED core then
    ((s.setF .CUE_DBG_CTRL_HALT_REQ core 0).setF .CUE_DBG_CTRL_HALTED core 0).dispatch core else s)

/-- R146: with TEST_EN, a core halts before executing the instruction at the pc of an enabled breakpoint. -/
def execCueBreakpoint (core : Nat) (s : State) : Result :=
  .next (if s.coreUp core && s.edge.straps.testEn && !s.bitF .CUE_DBG_CTRL_HALTED core &&
      (List.range 4).any (fun n => s.bitOf .CUE_DBG_CTRL_BKPT_EN core n && s.getF .CUE_BKPT_ADDR (core * 4 + n) == (s.core core).ctx.pc.toNat / 4)
    then s.haltCore core else s)

/-- R146: CUE_CLR clears CUE_STRETCH, CUE_OVERRUN and CUE_RETIRED. -/
def execCueClr (core : Nat) (s : State) : Result :=
  .next (((s.setF .CUE_STRETCH_MAX_NS core 0).setF .CUE_OVERRUN_COUNT core 0).setF .CUE_RETIRED_COUNT core 0)

/-! ### Debug data (CUE_DBG_SEL, CUE_DBG_DATA) -/

/-- The bits that a control word which Table 5-2 makes RO can hold. -/
def cwBits (i : Nat) : Nat :=
  match i with
  | 0x01 => 12 | 0x02 => 14 | 0x03 | 0x04 | 0x05 => 32 | 0x0B => 48 | 0x0C => 32 | 0x17 => 6 | 0x18 => 12 | _ => 64

/-- Put a value in the place of a control word of a context. -/
def Ctx.force (x : Ctx) (i now : Nat) (v : Word) : Ctx :=
  { x with forced := ⟨i, BitVec.ofNat 64 (v.toNat % 2 ^ cwBits i), now⟩ :: x.forced.filter (fun f => f.index != i) }

/-- The handle states that a debug write of cw.hstat leaves: a DONE bit leaves the handle DONE, with neither bit it is FREE; a BUSY bit
leaves it as it is, as no operation can be made up (DESIGN CHOICE, log entry 83). -/
def Ctx.forceHandles (x : Ctx) (v : Nat) : Ctx :=
  (List.range 16).foldl (fun x i =>
    if v.testBit i then x
    else if v.testBit (16 + i) then (match x.rdH i with | .done _ => x | _ => x.wrH i (.done .ok))
    else x.wrH i .free) x

/-- A control word as debug writes it: every word of Table 5-2, those that it makes RO among them (R146). -/
def Core.dbgWrite (k : Core) (now i : Nat) (v : Word) : Core :=
  match i with
  | 0x08 => { k with ctx := { k.ctx with remoteRt := v.toNat % 2 ^ 32 } }
  | 0x09 => { k with ctx := k.ctx.forceHandles v.toNat }
  | 0x0A => { k with ctx := { k.ctx with lsSize := v.toNat } }
  | 0x01 | 0x02 | 0x03 | 0x04 | 0x05 | 0x06 | 0x0B | 0x0C | 0x17 | 0x18 => { k with ctx := k.ctx.force i now v }
  | _ => k.cwWrite i v

/-- The handle state that a debug write leaves: the spec gives the states no code, so which one it is stays open. -/
def handleOf (old : HState) (w : Word) : HState :=
  match w.toNat % 5 with
  | 0 => .free | 1 => .done .ok | 2 => .done .refused | 3 => .done .expired | _ => old

/-- What CUE_DBG_DATA reads while halted; the code of a handle is open. An index past the last register or predicate counts on from the
first again for a read (DESIGN CHOICE, log entry 83). -/
def State.dbgRead (s : State) (c : Nat) : Word × State :=
  let k := s.core c
  let n := s.getF .CUE_DBG_SEL_INDEX c
  match s.getF .CUE_DBG_SEL_SPACE c with
  | 0 => (k.ctx.rd (BitVec.ofNat 5 n), s)
  | 1 => (BitVec.ofNat 64 (b2n (k.ctx.rdP (BitVec.ofNat 3 n))), s)
  | 2 => s.freeWord
  | 3 => (s.cwRead c n, s)
  | 4 => (BitVec.ofNat 64 (natLE (k.lsRead (8 * n) 8)), s)
  | _ => (0, s)

/-- R146: while halted, a write of CUE_DBG_DATA changes the selected register, predicate, handle, control word or local-store word. One
past the last register, predicate or word changes nothing (DESIGN CHOICE, log entry 83). -/
def execCueDbgDataWrite (core : Nat) (value : Word) (s : State) : Result :=
  let k := s.core core
  let n := s.getF .CUE_DBG_SEL_INDEX core
  if !s.bitF .CUE_DBG_CTRL_HALTED core then .next s
  else match s.getF .CUE_DBG_SEL_SPACE core with
    | 0 => .next (if n < 32 then s.mapCtx core (fun x => x.wr (BitVec.ofNat 5 n) value) else s)
    | 1 => .next (if n < 8 then s.mapCtx core (fun x => x.wrP (BitVec.ofNat 3 n) (value.getLsbD 0)) else s)
    | 2 =>
      let (w, s) := s.freeWord
      .next (s.mapCtx core (fun x => x.wrH n (handleOf (x.rdH n) w)))
    | 3 => .next (s.setCore core (k.dbgWrite s.now n value))
    | 4 => .next (if n < 32768 then s.setCore core (k.lsWrite (8 * n) (bytesLE 8 value.toNat)) else s)
    | _ => .next s

/-! ### One instruction from its words (Tables 5-6 to 5-9a) -/

/-- The ALU group by FN. -/
def cueAlu (c : Nat) (g : Guard) (rd ra rb : BitVec 5) (fn : Nat) : Option (State → Result) :=
  let z (f : State → Result) : Option (State → Result) := if rb = 0 then some f else none
  match fn with
  | 0x00 => some (execAdd c g rd ra rb) | 0x01 => some (execSub c g rd ra rb) | 0x02 => some (execAnd c g rd ra rb)
  | 0x03 => some (execOr c g rd ra rb) | 0x04 => some (execXor c g rd ra rb) | 0x05 => some (execAndn c g rd ra rb)
  | 0x08 => some (execShl c g rd ra rb) | 0x09 => some (execShr c g rd ra rb) | 0x0A => some (execSra c g rd ra rb)
  | 0x10 => some (execMul c g rd ra rb) | 0x11 => some (execMulh c g rd ra rb) | 0x12 => some (execMulhu c g rd ra rb)
  | 0x18 => some (execMin c g rd ra rb) | 0x19 => some (execMax c g rd ra rb) | 0x1A => some (execMinu c g rd ra rb)
  | 0x1B => some (execMaxu c g rd ra rb)
  | 0x20 => z (execSextB c g rd ra) | 0x21 => z (execSextH c g rd ra) | 0x22 => z (execSextW c g rd ra)
  | 0x30 => z (execPopc c g rd ra) | 0x31 => z (execClz c g rd ra)
  | _ => none

/-- CMP by FN. -/
def cueCmp (c : Nat) (g : Guard) (pd : BitVec 3) (ra rb : BitVec 5) (fn : Nat) : Option (State → Result) :=
  match fn with
  | 0 => some (execCmpEq c g pd ra rb) | 1 => some (execCmpNe c g pd ra rb) | 2 => some (execCmpLt c g pd ra rb)
  | 3 => some (execCmpLtu c g pd ra rb) | 4 => some (execCmpGe c g pd ra rb) | 5 => some (execCmpGeu c g pd ra rb)
  | _ => none

/-- PSET by FN. -/
def cuePset (c : Nat) (g : Guard) (pd pa pb : BitVec 3) (fn : Nat) : Option (State → Result) :=
  match fn with
  | 0 => some (execPsetAnd c g pd pa pb) | 1 => some (execPsetOr c g pd pa pb) | 2 => some (execPsetXor c g pd pa pb)
  | 3 => some (execPsetAndn c g pd pa pb)
  | _ => none

/-- AMO by FN. -/
def cueAmo (c : Nat) (g : Guard) (rd ra rb : BitVec 5) (fn : Nat) (e : Ext) : Option (State → Result) :=
  let aq := fn.testBit 2
  let rl := fn.testBit 1
  let d := fn.testBit 0
  match fn / 8 with
  | 0 => some (execAmoAdd c g rd ra rb aq rl d e) | 1 => some (execAmoSwap c g rd ra rb aq rl d e)
  | 2 => some (execAmoCas c g rd ra rb aq rl d e) | 3 => some (execAmoMin c g rd ra rb aq rl d e)
  | 4 => some (execAmoMax c g rd ra rb aq rl d e) | 5 => some (execAmoMinu c g rd ra rb aq rl d e)
  | 6 => some (execAmoMaxu c g rd ra rb aq rl d e)
  | _ => none

/-- The instruction that two words spell (Tables 5-6 to 5-9a), or none when the encoding is illegal (R123). -/
def cueOf (c : Nat) (w0 w1 : Nat) (e : Ext) : Option (State → Result) :=
  let g : Guard := ⟨w0.testBit 31, BitVec.ofNat 3 (bits w0 28 3)⟩
  let rd := BitVec.ofNat 5 (bits w0 17 5)
  let ra := BitVec.ofNat 5 (bits w0 12 5)
  let rb := BitVec.ofNat 5 (bits w0 7 5)
  let fn := bits w0 0 7
  let imm := BitVec.ofNat 12 (bits w0 0 12)
  let i8 := BitVec.ofNat 8 (bits w0 0 8)
  let sh := BitVec.ofNat 6 (bits w0 0 6)
  let b22 := BitVec.ofNat 22 (bits w0 0 22)
  let p (lo : Nat) : BitVec 3 := BitVec.ofNat 3 (bits w0 lo 3)
  let ok (b : Bool) (f : State → Result) : Option (State → Result) := if b then some f else none
  match bits w0 22 6 with
  | 0x00 => cueAlu c g rd ra rb fn
  | 0x01 => some (execAddi c g rd ra imm) | 0x02 => some (execAndi c g rd ra imm)
  | 0x03 => some (execOri c g rd ra imm) | 0x04 => some (execXori c g rd ra imm)
  | 0x05 => ok (bits w0 6 6 == 0) (execShli c g rd ra sh) | 0x06 => ok (bits w0 6 6 == 0) (execShri c g rd ra sh)
  | 0x07 => ok (bits w0 6 6 == 0) (execSrai c g rd ra sh)
  | 0x08 => some (execLui c g rd (BitVec.ofNat 17 (bits w0 0 17)))
  | 0x09 => if bits w0 20 2 = 0 then cueCmp c g (p 17) ra rb fn else none
  | 0x0A => match bits w0 20 2 with
    | 0 => some (execCmpiEq c g (p 17) ra imm) | 1 => some (execCmpiNe c g (p 17) ra imm)
    | 2 => some (execCmpiLt c g (p 17) ra imm) | _ => some (execCmpiLtu c g (p 17) ra imm)
  | 0x0B => if bits w0 20 2 = 0 ∧ bits w0 15 2 = 0 ∧ bits w0 10 2 = 0 then cuePset c g (p 17) (p 12) (p 7) fn else none
  | 0x0C => some (execBr c g b22) | 0x0D => some (execCall c g b22)
  | 0x0E => ok (rb == 0 && fn == 0) (execJr c g rd ra)
  | 0x10 => some (execLdB c g rd ra imm e) | 0x11 => some (execLdH c g rd ra imm e)
  | 0x12 => some (execLdW c g rd ra imm e) | 0x13 => some (execLdD c g rd ra imm e)
  | 0x14 => some (execLdlB c g rd ra imm) | 0x15 => some (execLdlH c g rd ra imm)
  | 0x16 => some (execLdlW c g rd ra imm) | 0x17 => some (execLdlD c g rd ra imm)
  | 0x18 => some (execStB c g rd ra imm e) | 0x19 => some (execStH c g rd ra imm e)
  | 0x1A => some (execStW c g rd ra imm e) | 0x1B => some (execStD c g rd ra imm e)
  | 0x1C => some (execStlB c g rd ra imm) | 0x1D => some (execStlH c g rd ra imm)
  | 0x1E => some (execStlW c g rd ra imm) | 0x1F => some (execStlD c g rd ra imm)
  | 0x20 => cueAmo c g rd ra rb fn e
  | 0x21 => ok (rd == 0 && ra == 0 && rb == 0 && decide (fn < 32)) (execCueFence c g (BitVec.ofNat 5 fn))
  | 0x22 => ok (ra == 0 && bits w0 8 4 == 0) (execCwr c g rd i8)
  | 0x23 => ok (rd == 0 && bits w0 8 4 == 0) (execCww c g i8 ra)
  | 0x24 => some (execWaite c g rd (w0.testBit 16) (BitVec.ofNat 16 (bits w0 0 16)))
  | 0x25 => ok (bits w0 0 22 == 0) (execYield c g)
  | 0x26 => ok (rb == 0 && fn == 0) (execBudget c g rd ra)
  | 0x27 => match bits w0 10 2 with
    | 0 => ok (rd == 0 && bits w0 7 3 == 0) (execSignalCore c g ra (BitVec.ofNat 7 fn))
    | 1 => ok (rd == 0 && ra == 0 && bits w0 0 10 == 0) (execSignalQueue c g)
    | _ => none
  | 0x28 => ok (bits w0 0 12 == 0 && bits w1 14 18 == 0) (execEnq c g rd ra (BitVec.ofNat 14 (bits w1 0 14)))
  | 0x29 => ok (bits w0 0 13 == 0 && bits w1 0 26 == 0) (execTissue c g (BitVec.ofNat 4 (bits w0 13 4)) rd (BitVec.ofNat 6 (bits w1 26 6)))
  | 0x2A => ok (bits w0 0 8 == 0 && bits w1 0 16 == 0 && decide (bits w1 25 2 < 2) && decide (bits w1 23 2 < 2))
      (execMissue c g (BitVec.ofNat 4 (bits w0 8 4)) rd ra (BitVec.ofNat 5 (bits w1 27 5)) (w1.testBit 25) (w1.testBit 23)
        (BitVec.ofNat 6 (bits w1 17 6)) (w1.testBit 16))
  | 0x2B => ok (rd == 0 && rb == 0 && fn == 0) (execDone c g ra)
  | 0x2C => ok (rd == 0 && ra == 0 && bits w0 7 5 == 0) (execEndSrc c g (BitVec.ofNat 7 fn))
  | 0x2D => ok (bits w0 16 6 == 0) (execTrap c g (BitVec.ofNat 16 (bits w0 0 16)))
  | 0x2E => ok (decide (fn < 8)) (execMbxSend c g rd ra rb (BitVec.ofNat 3 fn))
  | 0x2F => ok (fn == 0) (execMbxRecv c g rd ra rb)
  | 0x30 => ok (bits w0 0 22 == 0) (execEret c g)
  | _ => none

/-- Whether a word is the first of a long form (R121). -/
def longForm (w0 : Nat) : Bool := bits w0 22 6 == 0x28 || bits w0 22 6 == 0x29 || bits w0 22 6 == 0x2A

/-! ### Stepping (R146) -/

/-- Read the code at a core's pc: the cast store for a node's code, the pool as physical for steward code, else the slice's own
context. -/
def State.readCode (s : State) (c pc n : Nat) : Read × State :=
  let k := s.core c
  let inCast := match s.loaded c with | some (_, x) => x.castSlot.isSome && !k.priv | none => false
  if inCast then (match s.readStore pc n with | (.bytes b, s) => (.bytes b, s) | (.poison, s) => (.poison, s))
  else
    let a : Accessor := if k.priv then ⟨0, none, true⟩ else ⟨k.ctx.xctx.toNat % 4096, none, false⟩
    let (r, _, s) := s.readGuest (secOfCore c) a pc n []
    (r, s)

/-- The cause that a failed fetch raises. -/
def fetchCause : Read → Cause
  | .poison => .poison
  | .xlate r => .xlate r
  | _ => .xlate xNotMapped

/-- Execute the instruction at a core's pc. The second word of a long form, when a branch has led to it, is read as a word like any other
(DESIGN CHOICE, log entry 84: R124 leaves the results of that item undefined). -/
def State.stepCore (s : State) (c : Nat) (answer : Ext) : Result :=
  let pc := (s.core c).ctx.pc.toNat
  let runs := s.executes c
  let s := if runs then s.leavePoint c else s
  if !runs then .next s
  else if pc % 4 ≠ 0 then .next (s.raise c ⟨.align, pc, 0⟩)
  else match s.readCode c pc 4 with
    | (.bytes b, s) =>
      let w0 := natLE b
      let (r1, s) := if longForm w0 then s.readCode c (pc + 4) 4 else (.bytes [], s)
      match r1 with
      | .bytes b1 => match cueOf c w0 (natLE b1) answer with
        | some f => f s
        | none => .next (s.raise c ⟨.illegal, pc, 0⟩)
      | r => .next (s.raise c ⟨fetchCause r, pc, 0⟩)
    | (r, s) => .next (s.raise c ⟨fetchCause r, pc, 0⟩)

/-- R146: STEP, while halted, executes one instruction or one long form, then the core halts again. -/
def execCueStep (core : Nat) (answer : Ext) (s : State) : Result :=
  if !s.bitF .CUE_DBG_CTRL_HALTED core ∨ !s.coreUp core then .next s
  else match (s.setF .CUE_DBG_CTRL_HALTED core 0).stepCore core answer with
    | .next t => .next (t.setF .CUE_DBG_CTRL_HALTED core 1)
    | r => r

end Sys2Proof.Machine
end

