-- ==== Sys2Proof/Machine/FilPort.lean ====
section
/-!
DEFINITION. Filigree ports (chapter 12): port states, the link layer of a port, egress order and its rounds, training, fences,
meters, fault injection, the link monitor, and requests whose allowance runs out.
-/

namespace Sys2Proof.Machine

/-! ### Port states (R311) -/

/-- STATE of a port. -/
def State.portState (s : State) (p : Nat) : Nat := s.getF .FIL_PORT_STAT_STATE p

/-- Key of the UCIe module of a port: two ports a module, four modules an I/O die (R35). -/
def moduleOf (p : Nat) : Nat := p / 8 * 4 + p % 8 / 2

/-- State of a port's module. -/
def State.portModule (s : State) (p : Nat) : IaState := (s.edge.ia.findD (moduleOf p) ⟨.failed, .l0⟩).state

/-- Whether the IA channel of a port is open. -/
def State.channelOpen (s : State) (p : Nat) : Bool := match s.portModule p with | .full | .half => true | _ => false

/-! ### Requests that run out of allowance (R65) -/

/-- The expiry that answers a request, to the node that sent it, with what is left of the request's allowance (R313); this block's own requests
are answered inside. -/
def State.expireReq (s : State) (m : Msg) : State :=
  let s := s.bumpF .PRM_REFUSED_REMOTE_EXPIRED 0
  let a := { s.mkMsg .expired m.srcNode m.addr with txn := m.txn, key := m.key, allow := m.allow, late := m.late, lc := m.lc, aux := s.node }
  if m.srcNode = s.node then s.failArrives { a with src := .node s.node } else s.send { a with src := .node s.node }

/-- A refusal by the edge of a switched request: STATUS and REASON (Table 12-7, Table 12-8). -/
def State.edgeRefuse (s : State) (m : Msg) (status reason : Nat) : State :=
  s.send { s.mkMsg .refuse m.srcNode m.addr with
    txn := m.txn, key := m.key, allow := m.allow, late := m.late, lc := m.lc, src := .node s.node, aux := status * 256 + reason }

/-! ### Egress (R317, R318) -/

/-- The sub-queue of switched requests that arrived on a port; a slice's sub-queue has the slice's number (R317). -/
def switchSub (p : Nat) : Nat := 4096 + p

/-- Quantum of a REQ sub-queue in bytes (R318). -/
def State.subQuantum (s : State) (sub : Nat) : Nat :=
  512 * max 1 (if sub < 4096 then s.getF .FIL_SLC_SHAPE_QUANTUM sub else s.getF .FIL_CTRL_PT_QUANTUM 0)

/-- The rounds with every sub-queue that has become non-empty at the tail of the current round (R318). -/
def Port.joined (x : Port) : List SubTurn :=
  x.egress.foldl (fun (r : List SubTurn) (m : EgressMsg) =>
    if (m.cls == 5 || m.cls == 6) && !r.any (fun t => t.queue == m.cls && t.sub == m.sub) then
      r.filter (fun t => !t.served) ++ [⟨m.cls, m.sub, 0, false⟩] ++ r.filter (fun t => t.served)
    else r) x.rounds

/-- The rounds of a queue with a new round begun when every sub-queue has had its turn. -/
def roundOf (q : Nat) (r : List SubTurn) : List SubTurn :=
  if r.any (fun t => t.queue == q && !t.served) then r else r.map (fun t => if t.queue = q then { t with served := false } else t)

/-- The sub-queue whose turn it is in a REQ queue. -/
def Port.turn (x : Port) (q : Nat) : Option SubTurn := (roundOf q x.joined).find? (fun t => t.queue == q && !t.served)

/-- Whether a port may carry a message: a port that waits for keys carries MGT only (R309), and one trained unnumbered carries
only MGT to or from 0xFFFF for as long as the block is unnumbered (R301; DEDUCED, log 74). -/
def State.mayCarry (s : State) (p : Nat) (m : Msg) : Bool :=
  let mgt := msgCls m.kind == 5
  (mgt || !s.bitF .FIL_PORT_CTRL_ENC_REQ p || s.bitF .FIL_PORT_STAT_ENCRYPTED p) &&
    (!(s.port p).unnumbered || s.node != 0xFFFF || (mgt && (m.dst == 0xFFFF || m.srcNode == 0xFFFF)))

/-- Whether a message may leave now: the port carries it, holds a credit of its class, and has room in its replay buffer
(R307, R308). -/
def State.mayLeave (s : State) (p : Nat) (m : Msg) : Bool :=
  s.mayCarry p m && decide (0 < (s.port p).credits.getD (msgCls m.kind) 0) && decide ((s.port p).replay.length < 256)

/-- The head of an egress queue, if it may leave. -/
def State.queueHead (s : State) (p q : Nat) : Option EgressMsg :=
  let x := s.port p
  if q < 5 then x.egress.find? (fun (m : EgressMsg) => m.cls == q && s.mayLeave p m.msg)
  else match x.turn q with
    | none => none
    | some t => (x.egress.find? (fun (m : EgressMsg) => m.cls == q && m.sub == t.sub)).filter (fun m => s.mayLeave p m.msg)

/-- The queue that sends next: one that has waited behind 64 flits of earlier queues, else the first in order (R317). -/
def State.nextQueue (s : State) (p : Nat) : Option Nat :=
  let ready (q : Nat) : Bool := (s.queueHead p q).isSome
  match (List.range 7).find? (fun q => decide (64 ≤ (s.port p).passed.getD q 0) && ready q) with
  | some q => some q
  | none => (List.range 7).find? ready

/-- The rounds after a flit of the sub-queue whose turn it is has left (R318). -/
def State.afterTurn (s : State) (x : Port) (q : Nat) (t : SubTurn) (left : List EgressMsg) : List SubTurn :=
  let r := (roundOf q x.joined).filter (fun u => !(u.queue == q && u.sub == t.sub))
  let d := (if t.deficit < 128 then t.deficit + s.subQuantum t.sub else t.deficit) - 128
  if !left.any (fun m => m.cls == q && m.sub == t.sub) then r
  else if d < 128 then r ++ [{ t with deficit := d, served := true }]
  else { t with deficit := d } :: r

/-- Counts of flits sent before waiting queues: those behind the sender count one more, an empty queue and the sender start
again. -/
def passedAfter (x : Port) (q : Nat) (left : List EgressMsg) : List Nat :=
  (List.range 7).map (fun j =>
    if j = q ∨ !left.any (fun m => m.cls == j) then 0 else if q < j then x.passed.getD j 0 + 1 else x.passed.getD j 0)

/-! ### Layout of a flit and of a message (R304, R305) -/

/-- Code of a message (Tables 11-3, 12-5). -/
def msgCode : MsgKind → Nat
  | .rdShr => 0x01 | .rdOwn => 0x02 | .upg => 0x03 | .rdCur => 0x04 | .wrFull => 0x05 | .wrPart => 0x06 | .cleanLine => 0x07
  | .snpShr => 0x10 | .snpInv => 0x11 | .snpCur => 0x12 | .wbDirty => 0x20 | .evictClean => 0x21 | .data => 0x30 | .snpData => 0x31
  | .rspI => 0x40 | .rspS => 0x41 | .rspEvicting => 0x42 | .rspLost => 0x43 | .gnt => 0x44 | .cmp => 0x45 | .ack => 0x46
  | .nackStake => 0x47 | .refuse => 0x48 | .expired => 0x49 | .dead => 0x70 | .homeReset => 0x71 | .recallDone => 0x72 | .rejoin => 0x73
  | .dbWr => 0x74 | .dbRd => 0x75 | .mgWr => 0x76 | .mgRd => 0x77 | .mgRsp => 0x78 | .signal => 0x79 | .spdmMsg => 0x7A

/-- MFLAGS of a message (Table 12-3). -/
def msgFlags (m : Msg) : Nat :=
  m.own.toNat + 2 * m.keep.toNat + 4 * m.poison.toNat + 8 * (m.grant % 4) + 32 * m.lc.toNat

/-- The 104 payload bytes of a message (Table 12-3). -/
def msgBytes (m : Msg) : List Byte :=
  bytesLE 1 (msgCode m.kind) ++ bytesLE 1 (msgFlags m) ++ bytesLE 2 m.key ++ bytesLE 2 m.srcNode ++ bytesLE 2 m.dst ++ bytesLE 8 m.addr ++
    bytesLE 4 m.allow ++ bytesLE 2 m.txn ++ bytesLE 2 m.slice ++ bytesLE 4 m.ticket ++ bytesLE 4 m.aux ++ bytesLE 8 m.mask ++ fit64 m.data

/-- The 112 bytes of a flit before AUTH (Table 12-2), with its payload in the clear, or zero when it is not to be shown. -/
def flitHead (f : Flit) (payload : Bool) : List Byte :=
  bytesLE 1 f.ftype ++ bytesLE 1 (f.nak.toNat + 2 * f.rekey.toNat) ++ bytesLE 2 f.seq ++ bytesLE 2 f.ack ++
    bytesLE 2 (f.crdClass * 2 ^ 13 + f.crdCount) ++
    (match f.msg with
     | some m => if payload then msgBytes m else List.replicate 104 0
     | none => List.replicate 104 0)

/-! ### The link monitor (R323) -/

/-- Credits of a class (Table 12-4). -/
def classCredits (c : Nat) : Nat := Port.fresh.credits.getD c 0

/-- Whether `a` is after `b` among sequence numbers modulo 65,536. -/
def seqAfter (a b : Nat) : Bool := (a + 2 ^ 16 - b) % 2 ^ 16 != 0 && decide ((a + 2 ^ 16 - b) % 2 ^ 16 < 2 ^ 15)

/-- Whether an answer carries more allowance than its request of this block has left. -/
def State.overAllowed (s : State) (m : Msg) : Bool :=
  (msgCls m.kind == 3 || msgCls m.kind == 4) &&
    match s.coh.ups.find (upKey (s.lid m.addr) 8), allowNs m.allow with
    | some u, some a => u.until_.any (fun t => decide (t - s.now < a))
    | _, _ => false

/-- The violation of Table 12-10 that an inbound flit commits, 0 for none; the block itself sinks every DAT and RSP on arrival (R274). -/
def State.violation (s : State) (p : Nat) (f : Flit) : Nat :=
  let x := s.port p
  if 2 < f.ftype ∨ (f.ftype = 1 ∧ f.msg.isNone) ∨ f.resv then 4
  else if seqAfter f.ack x.txSeq then 3
  else if f.ftype ≠ 1 then 0
  else match f.msg with
    | some m =>
      if classCredits (msgCls m.kind) ≤ x.rxUsed.getD (msgCls m.kind) 0 then 1
      else if !x.nakSent ∧ f.seq ≠ (x.rxSeq + 1) % 2 ^ 16 then 2
      else if s.overAllowed m then 5
      else 0
    | none => 0

/-- The violation of Table 12-10 that the block's own flit commits, 0 for none: a flit that FIL_INJ dropped leaves a gap in SEQ. The other rules the
block keeps, whatever it sends. -/
def Port.outViolation (x : Port) (f : Flit) (again : Bool) : Nat := if f.ftype = 1 ∧ !again ∧ f.seq ≠ (x.outSeq + 1) % 2 ^ 16 then 2 else 0

/-- The nonce of a flit: the key epoch, and the count of the flits sent under it (R309). -/
def flitNonce (epoch count : Nat) : List Byte := bytesLE 4 epoch ++ bytesLE 8 count

/-- AUTH and CRC of a flit (Table 12-2): the tag of the port's key over the link header and the encrypted payload, and CRC-32C over what stands
before it. A flit without keys, or with a bad tag, has an AUTH that is open, and one that fails CRC both. -/
def State.flitTail (s : State) (p : Nat) (w : Sent) : List Byte × State :=
  let f := w.flit
  let whole := flitHead f true
  let head := whole.take 8
  let body := whole.drop 8
  let enc := s.bitF .FIL_PORT_STAT_ENCRYPTED p
  let coded := if enc then Config.aeadSeal w.key (flitNonce w.epoch w.count) head body else body
  let (open_, s) := s.freeBytes 12
  let auth := if enc && f.authOk then ((coded.drop 104) ++ List.replicate 12 0).take 12 else open_
  let (bad, s) := s.freeBytes 4
  (auth ++ (if f.crcOk then bytesLE 4 (crc32c (head ++ (coded ++ List.replicate 104 0).take 104 ++ auth)) else bad), s)

/-- Whether a DAT or RSP that a port sent has been left unsunk for 1 µs (Table 12-10, code 6). -/
def State.unsunk (s : State) (p : Nat) : Bool := (s.port p).unsunk.any (fun x => decide (x.2 + 1000 ≤ s.now))

/-- The monitor sees a flit of a port, as it was sent: a violation is counted, and with EN a record is written at the next place
of the ring. A flit that commits none of its own shows a DAT or RSP left unsunk, once. -/
def State.monitor (s : State) (p dir code : Nat) (w : Sent) : State :=
  if s.getF .FIL_MON_CTRL_PORT 0 ≠ p then s
  else
    let late := code == 0 && s.unsunk p
    let code := if late then 6 else code
    let s := if late then s.setPort p { s.port p with unsunk := (s.port p).unsunk.filter (fun x => decide (s.now < x.2 + 1000)) } else s
    let s := if code = 0 then s
      else
        let s := s.bumpF .FIL_MON_VIOL_COUNT 0
        if s.getF .FIL_MON_VIOL_FIRST 0 = 0 then s.setF .FIL_MON_VIOL_FIRST 0 code else s
    let mib := s.getF .FIL_MON_SIZE_MIB 0
    if !s.bitF .FIL_MON_CTRL_EN 0 ∨ mib = 0 ∨ (code = 0 ∧ s.bitF .FIL_MON_CTRL_VIOL_ONLY 0) then s
    else
      let (tags, s) := s.flitTail p w
      let rec_ := bytesLE 8 s.time ++ bytesLE 1 p ++ bytesLE 1 dir ++ bytesLE 1 code ++ List.replicate 53 0 ++
        flitHead w.flit s.edge.straps.bothEnds ++ tags ++ List.replicate 64 0
      let pos := s.fil.monPos % (mib * 4096)
      let (_, s) := s.writeBytes 0 ⟨0, none, true⟩ none (s.getF .FIL_MON_BASE 0 * 2 ^ 21 + pos * 256) rec_
      let next := (pos + 1) % (mib * 4096)
      { s with fil := { s.fil with monPos := next } }.setF .FIL_MON_SIZE_NEXT 0 (next / 4096)

/-! ### Sending flits (R307–R309, R324) -/

/-- Whether FIL_INJ affects the next outbound flit of a port, and how. -/
def State.injecting (s : State) (p kind : Nat) : Bool :=
  decide (0 < s.fil.inject) && s.getF .FIL_INJ_PORT 0 == p && s.getF .FIL_INJ_KIND 0 == kind

/-- A flit goes out, for the first time or again, as an injection leaves it: with a corrupt CRC or tag, or not at all (R324). -/
def State.emitFlit (s : State) (p : Nat) (again : Bool) (w : Sent) : State :=
  let f := w.flit
  let g := { f with crcOk := f.crcOk && !s.injecting p 0, authOk := f.authOk && !s.injecting p 1 }
  let s' := if s.injecting p 2 then s
    else
      let t := (s.monitor p 1 ((s.port p).outViolation g again) { w with flit := g }).emit (.flit p g)
      if f.ftype = 1 then t.setPort p { t.port p with outSeq := f.seq } else t
  if 0 < s.fil.inject ∧ s.getF .FIL_INJ_PORT 0 = p then
    let s' := { s' with fil := { s'.fil with inject := s'.fil.inject - 1 } }
    if s'.fil.inject = 0 then s'.setF .FIL_INJ_GO 0 0 else s'
  else s'

/-- The class with the most credits to return. -/
def crdClassOf (used : List Nat) : Nat :=
  (List.range 6).foldl (fun b c => if used.getD b 0 < used.getD c 0 then c else b) 0

/-- A flit with only its header: what a port sends now. -/
def Port.header (x : Port) (ftype : Nat) : Flit :=
  { ftype := ftype, nak := false, rekey := false, seq := x.txSeq, ack := x.rxSeq, crdClass := 0, crdCount := 0, crcOk := true, authOk := true,
    msg := none, resv := false }

/-- The label of the keys of a next epoch (R371): fil upd. -/
def filUpd : List Byte := [0x66, 0x69, 0x6C, 0x20, 0x75, 0x70, 0x64]

/-- The key of the next epoch (R371). -/
def nextKey (key : List Byte) : List Byte := if key = [] then [] else Config.hkdfExpand key filUpd 32

/-- Send a MSG flit, or an IDLE flit: it acknowledges what was received, returns credits of one class, and carries REKEY when
the sender is to move to its next key epoch (R308, R309). -/
def State.sendFlit (s : State) (p : Nat) (m : Option Msg) (nak : Bool) : State :=
  let x := s.port p
  let c := crdClassOf x.rxUsed
  let keep := s.injecting p 3
  let enc := s.bitF .FIL_PORT_STAT_ENCRYPTED p
  let rekey := enc && (x.rekeyNext || decide (2 ^ 48 ≤ x.countTx + 2))
  let seq := if m.isSome then (x.txSeq + 1) % 2 ^ 16 else x.txSeq
  let f := { x.header (if m.isSome then 1 else 0) with
    nak := nak, rekey := rekey, seq := seq, crdClass := c, crdCount := if keep then 0 else x.rxUsed.getD c 0, msg := m }
  let w : Sent := ⟨f, x.keyTx, x.epochTx, x.countTx, 0⟩
  let y := { x with
    txSeq := seq, unacked := 0, rxUsed := if keep then x.rxUsed else x.rxUsed.set c 0
    epochTx := if rekey then x.epochTx + 1 else x.epochTx
    keyTx := if rekey then nextKey x.keyTx else x.keyTx
    countTx := if rekey then 0 else if enc then x.countTx + 1 else x.countTx
    rekeyNext := x.rekeyNext && !rekey }
  let y := match m with
    | some m =>
      let k := msgCls m.kind
      { y with
        replay := y.replay ++ [w], credits := y.credits.set k (y.credits.getD k 0 - 1)
        unsunk := if k = 3 ∨ k = 4 then y.unsunk ++ [(k, s.now)] else y.unsunk }
    | none => y
  let s := (s.setPort p y).emitFlit p false w
  if rekey ∧ y.epochTx ≤ y.epochRx then s.setF .FIL_PORT_CTRL_REKEY p 0 else s

/-- The allowance with which a message leaves after it has waited, and lost what came off before: a request's remainder rounded down, `none` when nothing is
left (R65); an answer's the same way, in whole µs rounded up from this block to a node bound to a slice (Table 15-6). -/
def State.allowOut (s : State) (m : Msg) (waited : Nat) : Option Nat :=
  let gone := waited + m.late
  match msgCls m.kind with
  | 0 => (allowNs m.allow).bind (fun a => if a ≤ gone then none else some (encodeDown (a - gone)))
  | 3 | 4 =>
    match allowNs m.allow with
    | none => some m.allow
    | some a =>
      if m.srcNode = s.node ∧ m.dst ≠ 0xFFFF ∧ a ≠ 0 ∧ s.boundNode m.dst then some (2 ^ 30 + min (ceilDiv (a - gone) 1000) (2 ^ 30 - 1))
      else some (encodeDown (a - gone))
  | _ => some m.allow

/-- A message leaves a port's egress without being sent; a sub-queue that it leaves empty leaves its round (R318). -/
def State.dropEgress (s : State) (p : Nat) (e : EgressMsg) : State :=
  let x := s.port p
  let left := x.egress.erase e
  s.setPort p { x with egress := left, rounds := x.joined.filter (fun t => left.any (fun m => m.cls == t.queue && m.sub == t.sub)) }

/-- Send the next message of a live port's egress (R317): a request that has waited its allowance out expires instead. -/
def State.egressSend (s : State) (p : Nat) : State :=
  if !s.portLive p then s
  else match s.nextQueue p with
    | none => s
    | some q =>
      match s.queueHead p q with
      | none => s
      | some e =>
        let x := s.port p
        let left := x.egress.erase e
        match s.allowOut e.msg (s.now - e.since) with
        | none => (s.dropEgress p e).expireReq { e.msg with late := e.msg.late + (s.now - e.since) }
        | some a =>
          let rounds := match (if q < 5 then none else x.turn q) with
            | some t => s.afterTurn x q t left
            | none => x.joined
          let s := s.setPort p { x with egress := left, rounds := rounds, passed := passedAfter x q left }
          s.sendFlit p (some { e.msg with allow := a, late := 0 }) false

/-! ### Fences, training (R310, R311, R321) -/

/-- The link session of a port ends and its keys are discarded (Table 15-3, R368). -/
def State.endLinkSession (s : State) (p : Nat) : State :=
  let s := s.setF .FIL_PORT_STAT_ENCRYPTED p 0
  let s := if s.sec.linkSetup = some p then { s.setF .SEC_LINK_CTRL_BUSY 0 0 with sec := { s.sec with linkSetup := none } } else s
  { s with sec := { s.sec with sessions := s.sec.sessions.keep (fun _ x => x.port != .link p), conns := s.sec.conns.filter (fun c => c.1 != .link p), asks := s.sec.asks.filter (fun c => c.1 != .link p) } }

/-- The fabric gateway's requests that went out on a port (Table 12-8). -/
def State.upsOn (s : State) (p : Nat) : List (Nat × UpReq) :=
  s.coh.ups.filter (fun (kv : Nat × UpReq) => kv.1 % 16 == 8 && kv.2.port == some p)

/-- A port goes down: this block's requests outstanding on it are answered EXPIRED, the replay buffer is lost, and what had not
been sent is sent on another live port of the route entry read for it; a switched request without one is refused ST_FAULT, EDGE (Table 12-8). -/
def State.portDown (s : State) (p state : Nat) : State :=
  let own := s.upsOn p
  let left := (s.port p).egress
  let s := (s.endLinkSession p).setF .FIL_PORT_STAT_STATE p state
  let s := s.setPort p Port.fresh
  let s := s.each own (fun s kv =>
    s.failArrives { s.mkMsg .expired s.node kv.2.addr with src := .node s.node, aux := s.node })
  s.each (left.filter (fun (e : EgressMsg) => !(isReq e.msg.kind && e.msg.srcNode == s.node))) (fun s e =>
    let m := { e.msg with late := e.msg.late + (s.now - e.since) }
    match (if e.entry.testBit 63 then s.pickPort e.entry m.dst m.addr else none) with
    | some p => s.setPort p { s.port p with egress := (s.port p).egress ++ [{ e with msg := m, since := s.now }] }
    | none => if isReq m.kind then s.edgeRefuse m 3 5 else s)

/-- A completion that a fenced port lost: the item is void, ST_FAULT, EDGE (Tables 3-6, 16-4). -/
def Posting.lost (p : Posting) (ref : Nat) : Posting :=
  { p with port := none, deadline := none, comp := { p.comp with status := 3, reason := 5, result := 0, faultRef := some ref } }

/-- The completions of items that were in flight on a port are lost with it: they are written again over another live port of the route,
or held until a route returns (R384, domain EDGE). An item that would have been kept is voided by row 1 of Table 3-6, and counts so; one
that had been voided, withdrawn or broken before ends as it had (R74). -/
def State.lostOn (s : State) (port ref : Nat) : State :=
  let gone (p : Posting) : Bool := p.port == some port && p.at_.isSome && p.deadline.isSome
  s.each (s.work.queues.filter (fun (kv : Nat × QueueX) => kv.2.posted.any (fun p => p.port == some port))) (fun s kv =>
    let x := s.qx kv.1
    let s := s.setF .PRM_VOIDED_COUNT 1 (s.getF .PRM_VOIDED_COUNT 1 + (x.posted.filter gone).length)
    let s := (s.setQx kv.1 { x with posted := x.posted.map (fun p => if gone p then p.lost ref else p) }).unpost kv.1
    if s.cqFailed kv.1 then s else s.writeHeld kv.1 ((s.qx kv.1).held.length + 1))

/-- Fence a live port (Table 12-6): the cause is kept and a record written. -/
def State.fencePort (s : State) (p cause : Nat) : State :=
  if !s.portLive p then s
  else
    let s := (s.portDown p 4).setF .FIL_PORT_STAT_FENCE_CAUSE p cause
    let ref := s.nextIndex
    (s.fault { FaultRec.blank 0x0014 8 7 with unit := p, aux1 := cause }).lostOn p ref

/-- The 16 TRAIN echo flits of a port whose channel is open (R310). -/
def State.trainFlits (s : State) (p : Nat) : State :=
  if s.channelOpen p then s.each (List.range 16) (fun s _ => s.emitFlit p false ⟨(s.port p).header 2, [], 0, 0, 0⟩) else s

/-- A port enters TRAINING. -/
def State.startTraining (s : State) (p : Nat) : State :=
  let s := (s.setF .FIL_PORT_STAT_STATE p 1).setF .FIL_PORT_STAT_FENCE_CAUSE p 0
  (s.setPort p { Port.fresh with egress := (s.port p).egress, trainAt := s.now }).trainFlits p

/-- Ports that the build has: eight an I/O die (Table 2-1). -/
def State.portPresent (s : State) (p : Nat) : Bool := decide (p < 8 * s.edge.build.dies)

/-- Table 12-6: ENABLE set on a DORMANT port, or on a FENCED one whose FENCE is clear. In cold reset a port stays DORMANT (Table 2-11). -/
def State.enablePort (s : State) (p : Nat) : State :=
  if !s.edgeUp then s else
  let s := s.setF .FIL_PORT_CTRL_ENABLE p 1
  if s.portPresent p ∧ (s.portState p = 0 ∨ (s.portState p = 4 ∧ !s.bitF .FIL_PORT_CTRL_FENCE p)) then s.startTraining p else s

/-- Table 12-6: ENABLE cleared. -/
def State.disablePort (s : State) (p : Nat) : State :=
  let s := s.setF .FIL_PORT_CTRL_ENABLE p 0
  if s.portState p = 0 then s else (s.portDown p 0).setF .FIL_PORT_STAT_FENCE_CAUSE p 0

/-- The backoff of the next training attempt: 1 ms doubling to 10 s (Table 12-6). -/
def trainBackoff (n : Nat) : Nat := min (1000000 * 2 ^ min n 16) 10000000000

/-- A training step has failed. -/
def State.trainFail (s : State) (p : Nat) : State :=
  let x := s.port p
  if s.portState p ≠ 1 ∨ x.retryAt.isSome then s else s.setPort p { x with retryAt := some (s.now + trainBackoff x.trainFails) }

/-- Half of the largest round trip, rounded up (R310). -/
def flightTerm (trips : List Nat) : Nat := ceilDiv (trips.foldl max 0) 2

/-- Training is over: the channel is open, the partner has major version 2, and 16 echoes came back; the port is ACTIVE, or
DEGRADED on a module of half width. Otherwise a step has failed. -/
def State.trainDone (s : State) (p : Nat) (trips : List Nat) (major minor partner : Nat) : State :=
  if s.portState p ≠ 1 ∨ (s.port p).retryAt.isSome then s
  else if !s.channelOpen p ∨ major ≠ 2 ∨ trips.length < 16 then s.trainFail p
  else
    let s := s.setPort p { Port.fresh with egress := (s.port p).egress, unnumbered := s.node == 0xFFFF }
    let s := s.setF .FIL_PORT_FLIGHT_NS p (min (flightTerm trips) 0xFFFF)
    let s := (s.setF .FIL_PORT_STAT_MINOR p (min minor 0)).setF .FIL_PORT_STAT_PARTNER p partner
    s.setF .FIL_PORT_STAT_STATE p (if s.portModule p = .half then 3 else 2)

/-! ### Receiving flits (R307, R308) -/

/-- Send NAK: what was received ends at ACK, and later flits are discarded until the retransmission arrives (R308). -/
def State.sendNak (s : State) (p lastSeq : Nat) : State :=
  (s.setPort p { s.port p with nakSent := true, lastSeq := lastSeq }).sendFlit p none true

/-- A flit fails CRC, or has an unassigned type; a retransmission that does so is asked for anew. -/
def State.crcError (s : State) (p : Nat) : State := (s.bumpF .FIL_PORT_ERR_CRC p).sendNak p (s.port p).lastSeq

/-- A flit fails AUTH: 16 in a row fence the port. -/
def State.authError (s : State) (p : Nat) : State :=
  let n := (s.port p).authRun + 1
  let s := (s.bumpF .FIL_PORT_ERR_AUTH p).setPort p { s.port p with authRun := n }
  if 16 ≤ n then s.fencePort p 4 else s.sendNak p (s.port p).lastSeq

/-- A SEQ out of order: the first is answered NAK; while a NAK stands the flits sent before it arrived are discarded, and one that does not follow
the last seen shows that a retransmission has begun without the flit that was asked for, which is asked for anew (DEDUCED, log entry 127). -/
def State.outOfOrder (s : State) (p seq : Nat) : State :=
  let x := s.port p
  if x.nakSent ∧ seqAfter seq x.lastSeq then s.setPort p { x with lastSeq := seq } else s.sendNak p seq

/-- Flits of the replay buffer that an ACK does not cover. -/
def afterAck (ack : Nat) (l : List Sent) : List Sent :=
  if l.any (fun f => f.flit.seq == ack) then (l.dropWhile (fun f => f.flit.seq != ack)).drop 1 else l

/-- The replay buffer is sent again, byte for byte: when one of its flits has been so 8 times without an ACK the port is fenced. -/
def State.retransmit (s : State) (p : Nat) : State :=
  let x := s.port p
  if x.replay = [] then s
  else if x.replay.any (fun f => decide (8 ≤ f.tries)) then s.fencePort p 3
  else
    let s := (s.setPort p { x with replay := x.replay.map (fun f => { f with tries := f.tries + 1 }) }).bumpF .FIL_PORT_REPLAY_COUNT p x.replay.length
    s.each x.replay (fun s f => s.emitFlit p true f)

/-- DAT or RSP flits whose credits have come back: the oldest of a class, so many. -/
def creditBack (k : Nat) : Nat → List (Nat × Nat) → List (Nat × Nat)
  | 0, l => l
  | _ + 1, [] => []
  | n + 1, x :: l => if x.1 = k then creditBack k n l else x :: creditBack k (n + 1) l

/-- The header of an intact flit: key epoch, acknowledgement, credits, and a NAK last. A port whose partner has moved on to an epoch that it has not
reached itself moves on with its next flit, so that both directions move (DEDUCED, log entry 128). -/
def State.takeHeader (s : State) (p : Nat) (f : Flit) : State :=
  let x := s.port p
  let left := afterAck f.ack x.replay
  let k := f.crdClass
  let x := { x with
    epochRx := if f.rekey then x.epochRx + 1 else x.epochRx
    keyRx := if f.rekey then nextKey x.keyRx else x.keyRx
    countRx := if f.rekey then 0 else x.countRx + 1
    rekeyNext := x.rekeyNext || (f.rekey && decide (x.epochTx ≤ x.epochRx))
    replay := left, ackedTx := f.ack, authRun := 0, unsunk := creditBack k f.crdCount x.unsunk
    credits := if k < 6 then x.credits.set k (min (classCredits k) (x.credits.getD k 0 + f.crdCount)) else x.credits }
  let s := s.setPort p x
  let s := if f.rekey ∧ x.epochTx = x.epochRx then s.setF .FIL_PORT_CTRL_REKEY p 0 else s
  if f.nak then s.retransmit p else s

/-- An acknowledgement is due: 32 flits, or the first of them 100 ns ago (R308). -/
def Port.ackDue (x : Port) (now : Nat) : Bool := decide (32 ≤ x.unacked) || (decide (0 < x.unacked) && decide (x.rxAt + 100 ≤ now))

/-- A flit arrives at a live port: the message that it delivers, if it is intact, in order, within its credits and of a kind
that the port carries; one without a message of Tables 11-3 and 12-5 is discarded and counted (R306). While a NAK stands, a flit that is not the
retransmission is discarded, but a NAK of its own is acted on (DEDUCED, log entry 127). In TRAINING a flit that fails CRC, or of an unassigned
type, is counted. -/
def State.receive (s : State) (p : Nat) (f : Flit) : Option Msg × State :=
  if s.portState p = 1 then
    let s := s.monitor p 0 (s.violation p f) ⟨f, [], 0, 0, 0⟩
    (none, if !f.crcOk ∨ 2 < f.ftype then s.bumpF .FIL_PORT_ERR_CRC p else s)
  else if !s.portLive p then (none, s)
  else
    let s := s.monitor p 0 (s.violation p f) ⟨f, (s.port p).keyRx, (s.port p).epochRx, (s.port p).countRx, 0⟩
    if !f.crcOk ∨ 2 < f.ftype then (none, s.crcError p)
    else if s.bitF .FIL_PORT_STAT_ENCRYPTED p ∧ !f.authOk then (none, s.authError p)
    else match f.ftype with
      | 0 => (none, if (s.port p).nakSent then (if f.nak then s.retransmit p else s) else s.takeHeader p f)
      | 1 =>
        if f.seq ≠ ((s.port p).rxSeq + 1) % 2 ^ 16 then (none, (if (s.port p).nakSent && f.nak then s.retransmit p else s).outOfOrder p f.seq)
        else
          let s := s.takeHeader p f
          let x := s.port p
          let x := { x with
            nakSent := false, rxSeq := f.seq, unacked := x.unacked + 1, rxAt := if x.unacked = 0 then s.now else x.rxAt }
          match f.msg with
          | none =>
            let s := s.setPort p x
            (none, { s with fil := { s.fil with discards := s.fil.discards.put p (s.fil.discards.findD p 0 + 1) } })
          | some m =>
            let c := msgCls m.kind
            if classCredits c ≤ x.rxUsed.getD c 0 then (none, s.fencePort p 5)
            else
              let s := s.setPort p { x with rxUsed := x.rxUsed.set c (x.rxUsed.getD c 0 + 1) }
              let s := if 32 ≤ x.unacked then s.sendFlit p none false else s
              (if s.mayCarry p m then some m else none, s)
      | _ => (none, s)

/-! ### The commands -/

/-- R317: a live port sends the head of the first queue that may send. -/
def execEgressFlitSend (port : Nat) (s : State) : Result := .next (s.egressSend port)

/-- R308: a port acknowledges, or returns credits that nothing else carried back. -/
def execLinkAckTimer (port : Nat) (s : State) : Result :=
  let x := s.port port
  .next (if s.portLive port ∧ (x.ackDue s.now ∨ (x.unacked = 0 ∧ x.rxUsed.any (fun n => decide (0 < n)))) then s.sendFlit port none false else s)

/-- R304: an IDLE flit carries its header only. -/
def execFlitIdle (port : Nat) (flit : Flit) (s : State) : Result := .next (s.receive port { flit with ftype := 0, msg := none }).2

/-- R310: a TRAIN flit is echoed while the port trains; one that fails CRC is counted. -/
def execFlitTrain (port : Nat) (flit : Flit) (s : State) : Result :=
  let t := (s.receive port { flit with ftype := 2, msg := none }).2
  .next (if s.portState port = 1 ∧ flit.crcOk then t.emitFlit port false ⟨(t.port port).header 2, [], 0, 0, 0⟩ else t)

/-- R311: ENABLE is set. -/
def execPortEnable (port : Nat) (s : State) : Result := .next (s.enablePort port)
/-- R311: ENABLE is cleared. -/
def execPortDisable (port : Nat) (s : State) : Result := .next (s.disablePort port)

/-- R311: a live port is fenced; cause 1 is the manager's FENCE. -/
def execPortFence (port cause : Nat) (s : State) : Result :=
  .next ((if cause = 1 then s.setF .FIL_PORT_CTRL_FENCE port 1 else s).fencePort port cause)

/-- R311: the steps of training are over. -/
def execPortTrainingDone (port : Nat) (trips : List Nat) (major minor partner : Nat) (s : State) : Result :=
  .next (s.trainDone port trips major minor partner)

/-- R311: a training step fails or times out. -/
def execPortTrainingFail (port : Nat) (s : State) : Result := .next (s.trainFail port)

/-- R311: the backoff is over; the retry is counted. -/
def execPortTrainingRetry (port : Nat) (s : State) : Result :=
  let x := s.port port
  .next (if s.portState port = 1 ∧ x.retryAt.any (fun t => decide (t ≤ s.now)) then
      ((s.setPort port { x with retryAt := none, trainFails := x.trainFails + 1, trainAt := s.now }).bumpF .FIL_PORT_ERR_TRAIN_FAILS port).trainFlits port
    else s)

/-- R309: a live port with keys moves to the next key epoch at its next flit, and its partner, which sees it, does the same in the other direction;
REKEY reads 1 until both have moved (R326). -/
def State.rekey (s : State) (p : Nat) : State :=
  let s := s.setF .FIL_PORT_CTRL_REKEY p 1
  if s.portLive p ∧ s.bitF .FIL_PORT_STAT_ENCRYPTED p then s.setPort p { s.port p with rekeyNext := true } else s

/-- R309: REKEY. -/
def execPortRekey (port : Nat) (s : State) : Result := .next (s.rekey port)

/-- R301: LOCK is set. -/
def execFilNodeLock (s : State) : Result := .next (s.setF .FIL_NODE_LOCK 0 1)

/-- A write of a slice's meter (R326, R423): a value outside its range leaves its field unchanged. RATE, CBS and PBS of a LIVE
slice set both buckets full. -/
def State.writeMeter (s : State) (slice register v : Nat) : State :=
  let full (s : State) : State := if s.getF .SLC_STATE_STATE slice = 2 then s.fillMeter slice else s
  match register with
  | 0 =>
    let s := s.setF .FIL_SLC_RATE_CIR slice (v % 2 ^ 16)
    full (if v % 2 ^ 16 ≤ v / 2 ^ 16 then s.setF .FIL_SLC_RATE_PIR slice (v / 2 ^ 16) else s)
  | 1 => full (s.setF .FIL_SLC_CBS slice v)
  | 2 => full (if s.getF .FIL_SLC_CBS slice ≤ v then s.setF .FIL_SLC_PBS slice v else s)
  | _ => if 1 ≤ v % 2 ^ 7 then s.setF .FIL_SLC_SHAPE_QUANTUM slice (v % 2 ^ 7) else s

/-- R326: a write of a slice's meter registers: 0 RATE, 1 CBS, 2 PBS, 3 SHAPE. -/
def execFilSlcMeterWrite (slice register : Nat) (value : W32) (s : State) : Result := .next (s.writeMeter slice register value.toNat)

/-- FIL_INJ.GO is written: it acts only with BOTH_ENDS or TEST_EN (R324). -/
def State.injectGo (s : State) : State :=
  if s.edge.straps.bothEnds ∨ s.edge.straps.testEn then
    let n := s.getF .FIL_INJ_COUNT 0
    { s.setF .FIL_INJ_GO 0 (if n = 0 then 0 else 1) with fil := { s.fil with inject := n } }
  else s

/-- R324: fault injection starts. -/
def execFaultInject (s : State) : Result := .next s.injectGo

/-- R65: a request that waits at a port or a home is discarded when its allowance has run out, and answered EXPIRED. -/
def execHopAllowanceExpiry (port : Option Nat) (m : Msg) (s : State) : Result :=
  match port with
  | some p =>
    match (s.port p).egress.find? (fun (e : EgressMsg) => { e.msg with late := 0 } == m && isReq m.kind && (s.allowOut e.msg (s.now - e.since)).isNone) with
    | some e => .next ((s.dropEgress p e).expireReq { e.msg with late := e.msg.late + (s.now - e.since) })
    | none => .next s
  | none =>
    match s.coh.txns.find? (fun (kv : Nat × Txn) => kv.2.waiting && { kv.2.req with late := 0 } == m &&
        (match kv.2.who with | .node _ => true | _ => false) && (allowNs m.allow).any (fun a => decide (kv.2.arrived + a ≤ s.now + kv.2.req.late))) with
    | some (i, t) => .next (((s.endTxn i t).expireReq { t.req with late := t.req.late + (s.now - t.arrived) }).homes)
    | none => .next s

end Sys2Proof.Machine
end

