-- ==== Sys2Proof/Machine/Edge.lean ====
section
/-!
DEFINITION. The edge's commands (chapters 02, 18): reset and power pins (R54), die-to-die modules (R34–R37), and the sideband
address (R49).
-/

namespace Sys2Proof.Machine

/-! ### Cold reset and power (R54, Tables 2-8 to 2-10) -/

/-- The cold reset of the whole block (R384, domain COLD; it overrides every other reset, R390): the stacks enter self-refresh while the core is powered, every module enters L2, and every
piece of state is that of reset (Table 2-9). What is outside the block stands: the time, what has been sent, the commands that
wait, the supplies and the build. -/
def State.coldReset (s : State) (porstN edgePwrOk : Bool) : State :=
  let s := if s.coreOn then s.each (List.range s.nStacks) (fun s st => s.emit (.selfRefresh st)) else s
  let s := s.each s.edge.ia (fun s kv => s.emit (.iaPower (kv.1 / 4) (kv.1 % 4) 2))
  let pins := { Edge.reset.pins with
    porstN := porstN, edgePwrOk := edgePwrOk, corePwrOk := s.edge.pins.corePwrOk, wrstN := s.edge.pins.wrstN, vidAck := s.edge.pins.vidAck }
  State.fillSlotZero { State.reset with
    edge := { Edge.reset with pins := pins, build := s.edge.build, porAt := s.now }
    slices := { State.reset.slices with drbg := s.slices.drbg, seeds := s.slices.seeds }
    work := { State.reset.work with nextItem := s.work.nextItem, nextOp := s.work.nextOp }
    out := s.out, now := s.now, free := s.free, pending := s.pending }

/-- R54: PORST_N goes low. -/
def execPorstNLow (s : State) : Result := .next (s.coldReset false s.edge.pins.edgePwrOk)

/-- R54: EDGE_PWR_OK falls while PORST_N is high: an edge fault, handled as a cold reset. -/
def execEdgePwrOkFall (s : State) : Result :=
  .next (if s.edge.pins.porstN then s.coldReset true false
    else { s with edge := { s.edge with pins := { s.edge.pins with edgePwrOk := false } } })

/-- Modules of the dies that the build has. -/
def modulesOf (dies : Nat) : List (Nat × IaModule) := (List.range (4 * dies)).map (fun k => (k, ⟨.training, .l0⟩))

/-- R56, Table 2-8: PORST_N rises, with the edge powered: straps are sampled, the edge initialises and the modules train. With
MGT_SRC = 1 the port MGT_FP is enabled (Table 12-6). It also stands for the return of the edge's supply after an edge fault. -/
def execPorstNRise (straps : Straps) (build : Build) (s : State) : Result :=
  if s.edge.pins.porstN ∧ s.edge.pins.edgePwrOk then .next s
  else
    let s := { s with edge := { s.edge with
      pins := { s.edge.pins with porstN := true, edgePwrOk := true }, straps := straps, build := build, porAt := s.now, ia := modulesOf build.dies } }
    let s := s.setBlkState stStarting
    .next (if straps.mgtSrc = 1 then s.enablePort straps.mgtFp else s)

/-- R54: WRST_N is low; held for 1 µs it requests a warm reset. -/
def execWrstNLow (heldNs : Nat) (s : State) : Result := .next (if 1000 ≤ heldNs then s.warmTrigger 1 0 else s)

/-- R54: CORE_PWR_OK falls: the core is isolated, and the fault log is lost (R381). -/
def execCorePwrOkFall (s : State) : Result :=
  .next { s with
    edge := { s.edge with pins := { s.edge.pins with corePwrOk := false } }
    recov := { s.recov with faults := [] } }

/-- R54: CORE_PWR_OK rises; what was held goes on (Table 2-10). -/
def execCorePwrOkRise (s : State) : Result :=
  .next ({ s with edge := { s.edge with pins := { s.edge.pins with corePwrOk := true } } }.warmRelease)

/-! ### Die-to-die modules (R34–R37, Table 2-3) -/

/-- The two Filigree ports of a module. -/
def modulePorts (die module : Nat) : List Nat := [8 * die + 2 * module, 8 * die + 2 * module + 1]

/-- Change a module that the build has. -/
def State.setModule (s : State) (die module : Nat) (f : IaModule → IaModule) : State :=
  { s with edge := { s.edge with ia := s.edge.ia.upd (die * 4 + module) f } }

/-- R35: a module falls to half width: both of its ports are DEGRADED; the host and PST stripes go on. -/
def execIaModuleDegrade (die module : Nat) (s : State) : Result :=
  match s.edge.ia.find (die * 4 + module) with
  | some ⟨.full, _⟩ =>
    let s := s.setModule die module (fun x => { x with state := .half })
    .next (s.each (modulePorts die module) (fun s p => if s.portState p = 2 then s.setF .FIL_PORT_STAT_STATE p 3 else s))
  | _ => .next s

/-- A module fails: both of its ports are fenced, and with no working module left the die's host port goes down (R35). -/
def State.moduleFails (s : State) (die module : Nat) : State :=
  match s.edge.ia.find (die * 4 + module) with
  | none => s
  | some _ =>
    let s := s.setModule die module (fun x => { x with state := .failed })
    let s := s.each (modulePorts die module) (fun s p => s.fencePort p 2)
    let works := (List.range 4).any (fun m => s.channelOpen (8 * die + 2 * m))
    if s.edge.hostUp.contains die ∧ !works then s.hostDown die else s

/-- R35: a module fails, or stays in retraining. -/
def execIaModuleFail (die module : Nat) (s : State) : Result := .next (s.moduleFails die module)

/-- R37: an adapter error is not recovered by 16 retries: a failure of the module. -/
def execAdapterRetryExhausted (die module : Nat) (s : State) : Result := .next (s.moduleFails die module)

/-- Whether a module carries an open channel: a Filigree port that is not DORMANT or FENCED, the host port, or PST on die 0
(Table 2-3). -/
def State.moduleBusy (s : State) (die module : Nat) : Bool :=
  (modulePorts die module).any (fun p => s.portState p == 1 || s.portLive p) || s.edge.hostUp.contains die || (die == 0 && s.pstUp)

/-- R37: L1 is requested on a module that carries no open channel, and L0 again on one that does. -/
def execIaLinkPowerState (die module : Nat) (s : State) : Result :=
  match s.edge.ia.find (die * 4 + module) with
  | none => .next s
  | some x =>
    let want : IaPower := if s.moduleBusy die module then .l0 else .l1
    if x.power = want then .next s
    else .next ((s.setModule die module (fun x => { x with power := want })).emit (.iaPower die module (if want = .l0 then 0 else 1)))

/-- R402: a module has trained, at full or half width: its channels are open, and its ports that train send their echoes. -/
def execIaModuleTrained (die module : Nat) (half : Bool) (s : State) : Result :=
  match s.edge.ia.find (die * 4 + module) with
  | none => .next s
  | some x =>
    if x.state = .full ∨ x.state = .half then .next s
    else
      let s := s.setModule die module (fun x => { x with state := if half then .half else .full })
      .next (s.each (modulePorts die module) (fun s p => if s.portState p = 1 then s.trainFlits p else s))

/-- R49: ENTDAA assigns the dynamic address of the sideband; in cold reset MGT acknowledges nothing (Table 2-11). -/
def execI3cEntdaa (address : BitVec 7) (s : State) : Result :=
  .next (if s.edgeUp then { s with edge := { s.edge with i3cAddr := some address.toNat } } else s)

end Sys2Proof.Machine
end

