-- ==== Sys2Proof/Machine/Formats.lean ====
section
/-!
DEFINITION. Number formats of the tensor engines (chapter 07): the values that elements stand for, exact arithmetic on them,
and conversion to a format with round to nearest even.
-/

namespace Sys2Proof.Machine

/-! ### Values (Tables 7-2, 7-3) -/

/-- What a format has at its top exponent: infinity and NaN, the one NaN of E4M3, or neither. -/
inductive TopKind where
  | ieee
  | e4m3
  | none
deriving DecidableEq, Repr

/-- A floating-point element layout (Table 7-3): exponent bits, bias, mantissa bits. -/
structure FloatFmt where
  expBits : Nat
  bias : Nat
  man : Nat
  top : TopKind
deriving DecidableEq, Repr

/-- FP32. -/
def fp32 : FloatFmt := ⟨8, 127, 23, .ieee⟩

/-- Width of an element of a floating format. -/
def FloatFmt.width (f : FloatFmt) : Nat := 1 + f.expBits + f.man

/-- The value that the bits of an element stand for. -/
def FloatFmt.decode (f : FloatFmt) (w : Nat) : Num :=
  let neg := w.testBit (f.expBits + f.man)
  let x := bits w f.man f.expBits
  let m := bits w 0 f.man
  let top := 2 ^ f.expBits - 1
  if f.top = .ieee ∧ x = top then (if m = 0 then .inf neg else .nan)
  else if f.top = .e4m3 ∧ x = top ∧ m = 2 ^ f.man - 1 then .nan
  else if x = 0 then .fin neg m (1 - (f.bias : Int) - f.man)
  else .fin neg (m + 2 ^ f.man) ((x : Int) - f.bias - f.man)

/-- Largest significand and exponent of the largest finite value. -/
def FloatFmt.largest (f : FloatFmt) : Nat × Int :=
  match f.top with
  | .ieee => (2 ^ (f.man + 1) - 1, (2 ^ f.expBits - 2 : Nat) - (f.bias : Int) - f.man)
  | .e4m3 => (2 ^ (f.man + 1) - 2, (2 ^ f.expBits - 1 : Nat) - (f.bias : Int) - f.man)
  | .none => (2 ^ (f.man + 1) - 1, (2 ^ f.expBits - 1 : Nat) - (f.bias : Int) - f.man)

/-- Whether m × 2^e is above the largest finite value. -/
def FloatFmt.exceeds (f : FloatFmt) (m : Nat) (e : Int) : Bool :=
  let (lm, le) := f.largest
  let b := min e le
  decide (lm * 2 ^ (le - b).toNat < m * 2 ^ (e - b).toNat)

/-- Number of significant bits. -/
def bitLen (n : Nat) : Nat := if n = 0 then 0 else n.log2 + 1

/-- Exponent of the last kept bit of m × 2^e in a format: that of its leading bit less the mantissa, not below the subnormals. -/
def FloatFmt.ulp (f : FloatFmt) (m : Nat) (e : Int) : Int := max ((bitLen m : Int) + e - 1) (1 - (f.bias : Int)) - f.man

/-- Round m / 2^s to nearest, ties to even, and whether it was exact. -/
def roundShift (m s : Nat) : Nat × Bool :=
  let q := m >>> s
  let r := m % 2 ^ s
  if r = 0 then (q, true)
  else if 2 ^ s < 2 * r ∨ (2 * r = 2 ^ s ∧ q % 2 = 1) then (q + 1, false) else (q, false)

/-- Round a finite value to a format's precision: significand, exponent, and whether it was exact (R183). -/
def FloatFmt.round (f : FloatFmt) (m : Nat) (e : Int) : Nat × Int × Bool :=
  let q := f.ulp m e
  if q ≤ e then (m * 2 ^ (e - q).toNat, q, true)
  else
    let (r, x) := roundShift m (q - e).toNat
    (r, q, x)

/-- The bits of a value that the format holds exactly, as `round` gives it: r × 2^q with r at most 2^(man + 1). -/
def FloatFmt.pack (f : FloatFmt) (neg : Bool) (r : Nat) (q : Int) : Nat :=
  let (r, q) := if r = 2 ^ (f.man + 1) then (2 ^ f.man, q + 1) else (r, q)
  let sign := b2n neg * 2 ^ (f.expBits + f.man)
  if r < 2 ^ f.man then sign + r
  else sign + (q + f.man + f.bias).toNat * 2 ^ f.man + (r - 2 ^ f.man)

/-- The bits of NaN as R184 writes it, where the format has one. -/
def FloatFmt.nanBits (f : FloatFmt) : Option Nat :=
  match f.top with
  | .ieee => if f.expBits = 5 ∧ f.man = 2 then some 0x7E else some ((2 ^ f.expBits - 1) * 2 ^ f.man + 2 ^ (f.man - 1))
  | .e4m3 => some 0x7F
  | .none => none

/-- The bits of an infinity, where the format has one. -/
def FloatFmt.infBits (f : FloatFmt) (neg : Bool) : Option Nat :=
  match f.top with
  | .ieee => some (b2n neg * 2 ^ (f.expBits + f.man) + (2 ^ f.expBits - 1) * 2 ^ f.man)
  | _ => none

/-! ### Exact arithmetic -/

/-- Product. -/
def Num.mul : Num → Num → Num
  | .nan, _ | _, .nan => .nan
  | .inf a, .inf b => .inf (a != b)
  | .inf a, .fin b m _ | .fin b m _, .inf a => if m = 0 then .nan else .inf (a != b)
  | .fin a m e, .fin b n f => .fin (a != b) (m * n) (e + f)

/-- A finite value as an integer multiple of 2^b, for b not above its exponent. -/
def scaled (neg : Bool) (m : Nat) (e b : Int) : Int := (if neg then -1 else 1) * ((m * 2 ^ (e - b).toNat : Nat) : Int)

/-- Sum. Zeros of both signs sum to +0, as IEEE 754 has it. -/
def Num.add : Num → Num → Num
  | .nan, _ | _, .nan => .nan
  | .inf a, .inf b => if a = b then .inf a else .nan
  | .inf a, _ | _, .inf a => .inf a
  | .fin a m e, .fin b n f =>
    let x := min e f
    let t := scaled a m e x + scaled b n f x
    if t = 0 then .fin (a && b) 0 x else .fin (decide (t < 0)) t.natAbs x

/-- Order of two values that are not NaN; the signs of zeros do not count. -/
def Num.lt : Num → Num → Bool
  | .inf a, .inf b => a && !b
  | .inf a, _ => a
  | _, .inf b => !b
  | .fin a m e, .fin b n f => decide (scaled a m e (min e f) < scaled b n f (min e f))
  | _, _ => false

/-- The size of a value. -/
def Num.abs : Num → Num
  | .nan => .nan
  | .inf _ => .inf false
  | .fin _ m e => .fin false m e

/-- Whether a value lies between two, both included. -/
def Num.within (v lo hi : Num) : Bool := v != .nan && !v.lt lo && !hi.lt v

/-- 2^k. -/
def Num.pow2 (k : Int) : Num := .fin false 1 k

/-- Equality of value, with the signs of zeros told apart. -/
def Num.same : Num → Num → Bool
  | .nan, .nan => true
  | .inf a, .inf b => a == b
  | .fin a m e, .fin b n f => a == b && decide (scaled a m e (min e f) = scaled b n f (min e f))
  | _, _ => false

/-- A value as an FP32 result of the accumulator or the vector unit: rounded to nearest even, with an infinity on overflow as IEEE 754
binary32 has it (DEDUCED, log entry 93), and a subnormal flushed to zero of its sign; whether one was flushed (R181). -/
def toF32 : Num → Num × Bool
  | .nan => (.nan, false)
  | .inf a => (.inf a, false)
  | .fin a m e =>
    if m = 0 then (.fin a 0 0, false)
    else
      let (r, q, _) := fp32.round m e
      if fp32.exceeds r q then (.inf a, false)
      else if r < 2 ^ 23 then (.fin a 0 0, true) else (.fin a r q, false)

/-- A quotient rounded to FP32: 30 bits or more of it, with one that says whether anything is left. -/
def f32Div : Num → Num → Num × Bool
  | .nan, _ | _, .nan => (.nan, false)
  | .inf _, .inf _ => (.nan, false)
  | .inf a, .fin b _ _ => (.inf (a != b), false)
  | .fin a _ _, .inf b => (.fin (a != b) 0 0, false)
  | .fin a m e, .fin b n f =>
    if n = 0 then (if m = 0 then .nan else .inf (a != b), false)
    else
      let k := bitLen n + 30
      let q := m * 2 ^ k / n
      toF32 (.fin (a != b) (2 * q + b2n (m * 2 ^ k % n != 0)) (e - f - k - 1))

/-- An integer as a value. -/
def Num.ofInt (i : Int) : Num := .fin (decide (i < 0)) i.natAbs 0

/-- Two values multiplied in FP32. -/
def f32Mul (a b : Num) : Num × Bool := toF32 (a.mul b)
/-- Two values added in FP32. -/
def f32Add (a b : Num) : Num × Bool := toF32 (a.add b)
/-- A value with its sign turned. -/
def Num.negate : Num → Num
  | .nan => .nan
  | .inf a => .inf (!a)
  | .fin a m e => .fin (!a) m e
/-- Whether a value is negative; a zero counts by its sign. -/
def Num.sign : Num → Bool
  | .nan => false
  | .inf a => a
  | .fin a _ _ => a
/-- Whether a value is a zero. -/
def Num.isZero : Num → Bool
  | .fin _ m _ => m == 0
  | _ => false
/-- Whether a value is an infinity. -/
def Num.isInf : Num → Bool
  | .inf _ => true
  | _ => false

/-! ### Accumulation in any order (R181) -/

/-- An accumulator to which nothing has been added. -/
def Accum.zero : Accum := ⟨false, false, false, 0, 0, 0, 0, true, true⟩

/-- Zero bits below the lowest set bit. -/
def trailing (m : Nat) : Nat := ((List.range (bitLen m)).takeWhile (fun i => !m.testBit i)).length

/-- Add a product. -/
def Accum.add (a : Accum) (x : Num) : Accum :=
  match x with
  | .nan => { a with nan := true }
  | .inf true => { a with ninf := true }
  | .inf false => { a with pinf := true }
  | .fin neg m e =>
    if m = 0 then { a with allNeg := a.allNeg && neg }
    else
      let t := trailing m
      let m := m >>> t
      let e := e + t
      let x := if a.count = 0 then e else min a.exp e
      let up (k : Int) : Nat := 2 ^ (k - x).toNat
      { a with
        count := a.count + 1, sum := a.sum * (up a.exp : Int) + (if neg then -1 else 1) * ((m * up e : Nat) : Int)
        mag := a.mag * up a.exp + m * up e, exp := x, allNeg := false
        fit := a.fit && decide (bitLen m ≤ 24 ∧ -126 ≤ (bitLen m : Int) + e - 1 ∧ (bitLen m : Int) + e ≤ 128) }

/-- Add a product of MX operands, which is summed with others of its block before the accumulator takes it (R181). -/
def Accum.addBlock (a : Accum) (x : Num) : Accum := { a.add x with fit := false }

/-- The accumulator's exact value: of finite terms their sum. -/
def Accum.exact (a : Accum) : Num :=
  if a.nan ∨ (a.pinf ∧ a.ninf) then .nan
  else if a.pinf then .inf false
  else if a.ninf then .inf true
  else .fin (if a.count = 0 then a.allNeg else decide (a.sum < 0)) a.sum.natAbs a.exp

/-- The accumulator in FP32 where every order of the additions gives the same: at most one term that is not zero, two that FP32 holds, a NaN,
or terms whose every partial sum FP32 holds. -/
def Accum.value (a : Accum) : Option (Num × Bool) :=
  if a.exact = .nan then some (.nan, false)
  else if a.count = 0 then (if a.allNeg ∧ !a.pinf ∧ !a.ninf then none else some (a.exact, false))
  else if a.count = 1 ∨ (a.count = 2 ∧ a.fit) ∨ (a.mag < 2 ^ 24 ∧ -126 ≤ a.exp ∧ a.exp < 104) then some (toF32 a.exact)
  else none

/-- How far the accumulator may be from the exact sum of its terms, whatever the order of the additions (R181): each addition rounds a partial
sum, which no order makes larger than the sum of the magnitudes, to at least 22 bits, and may flush a subnormal (DEDUCED, log entry 94). -/
def Accum.slack (a : Accum) : Num :=
  (Num.fin false (a.count * a.mag) (a.exp - 22)).add (.fin false a.count (-126))

/-- Whether a partial sum may pass the largest FP32 value. -/
def Accum.mayOverflow (a : Accum) : Bool := decide (127 ≤ (bitLen a.mag : Int) + a.exp)

/-- Whether a partial sum may be subnormal. -/
def Accum.mayFlush (a : Accum) : Bool := decide (a.exp < -126)

/-- The accumulator in INT32, saturating; whether it saturated (R181). -/
def Accum.int32 (a : Accum) : Int × Bool :=
  let v := a.sum * ((2 ^ a.exp.toNat : Nat) : Int)
  if 2147483647 < v then (2147483647, true) else if v < -2147483647 then (-2147483647, true) else (v, false)

/-! ### Format codes (Table 7-2) -/

/-- Bits of an element of a format, scales left out; VQ formats are counted by their indices instead. -/
def fmtBits (code : Nat) : Nat :=
  match code with
  | 0x01 | 0x08 => 32 | 0x02 | 0x03 => 16 | 0x12 | 0x13 => 6 | 0x07 | 0x14 => 4 | _ => 8

/-- MX formats (R174). -/
def fmtMx (code : Nat) : Bool := decide (0x10 ≤ code ∧ code ≤ 0x15)
/-- VQ formats (R176). -/
def fmtVq (code : Nat) : Bool := decide (0x20 ≤ code ∧ code ≤ 0x23)
/-- Integer formats. -/
def fmtInt (code : Nat) : Bool := decide (0x06 ≤ code ∧ code ≤ 0x08)
/-- Formats of MATMUL's A. -/
def mmFmt (code : Nat) : Bool := decide (0x02 ≤ code ∧ code ≤ 0x07) || fmtMx code
/-- Formats of the vector kinds. -/
def vecFmt (code : Nat) : Bool := decide (0x01 ≤ code ∧ code ≤ 0x05) || fmtMx code
/-- Weights that one VQ index stands for. -/
def vqLen (code : Nat) : Nat := if code < 0x22 then 8 else 4
/-- Bits of a VQ index. -/
def vqBits (code : Nat) : Nat := if code < 0x22 then 12 else 8
/-- Bytes of a VQ codebook. -/
def vqBytes (code : Nat) : Nat := if code < 0x22 then 32768 else 1024

/-- The floating layout of a format code. -/
def floatOf (code : Nat) : Option FloatFmt :=
  match code with
  | 0x01 => some fp32
  | 0x02 => some ⟨8, 127, 7, .ieee⟩
  | 0x03 => some ⟨5, 15, 10, .ieee⟩
  | 0x04 | 0x10 | 0x20 | 0x22 => some ⟨4, 7, 3, .e4m3⟩
  | 0x05 | 0x11 | 0x21 | 0x23 => some ⟨5, 15, 2, .ieee⟩
  | 0x12 => some ⟨3, 3, 2, .none⟩
  | 0x13 => some ⟨2, 1, 3, .none⟩
  | 0x14 => some ⟨2, 1, 1, .none⟩
  | _ => none

/-- A two's complement number of `w` bits. -/
def twos (w n : Nat) : Int := if n.testBit (w - 1) then (n : Int) - 2 ^ w else n

/-- The value of an element's bits under a format code; MXINT8 carries its implied scale of 2⁻⁶ (R174, R175). -/
def elemVal (code n : Nat) : Num :=
  match floatOf code with
  | some f => f.decode n
  | none =>
    let i := twos (fmtBits code) n
    if code = 0x15 then .fin (decide (i < 0)) i.natAbs (-6) else Num.ofInt i

/-- A value times an E8M0 scale; 0xFF makes it NaN (R174). -/
def Num.scale (x : Num) (sc : Nat) : Num :=
  if sc = 0xFF then .nan else match x with | .fin a m e => .fin a m (e + (sc : Int) - 127) | y => y

/-- Bits `pos` to `pos + w − 1` of a byte string read little-endian (R174–R176). -/
def bitsAt (b : List Byte) (pos w : Nat) : Nat := bits (natLE ((b.drop (pos / 8)).take ((pos % 8 + w + 7) / 8))) (pos % 8) w

/-! ### Conversion of outputs (R183, R184) -/

/-- An output element: its bits, where the spec fixes them, and whether it counts as NaN, overflow or saturation. -/
structure OutElem where
  bits : Option Nat
  nan : Bool
  excess : Bool
  sat : Bool
deriving DecidableEq, Repr

/-- An element whose bits the spec leaves open. -/
def OutElem.open_ : OutElem := ⟨none, false, false, false⟩
/-- An element with known bits. -/
def OutElem.of (n : Nat) : OutElem := ⟨some n, false, false, false⟩

/-- Round m × 2^e to a last kept bit of 2^q: to nearest even, or with the 16-bit value that STOCH adds below that bit, cut off after it
(R183). -/
def roundTo (m : Nat) (e q : Int) : Option Nat → Nat
  | none => if q ≤ e then m * 2 ^ (e - q).toNat else (roundShift m (q - e).toNat).1
  | some u =>
    let low := q - 16
    let t := if low ≤ e then m * 2 ^ (e - low).toNat else m >>> (low - e).toNat
    (t + u) >>> 16

/-- The result of an overflow (R184): the largest finite value where SAT is set or the format has neither infinity nor NaN (DEDUCED from
R174's specification, log entry 93), else infinity, or the NaN of E4M3. -/
def FloatFmt.overflow (f : FloatFmt) (sat neg : Bool) : OutElem :=
  let top : OutElem := { OutElem.of (f.pack neg f.largest.1 f.largest.2) with excess := true }
  if sat then top
  else match f.infBits neg, f.nanBits with
    | some b, _ => { OutElem.of b with excess := true }
    | none, some b => { OutElem.of b with excess := true, nan := true }
    | none, none => top

/-- Convert a value to a floating format (R183, R184). An infinity overflows where SAT is set and in a format that has none (DESIGN CHOICE,
log entry 93). -/
def FloatFmt.convert (f : FloatFmt) (sat : Bool) (stoch : Option Nat) : Num → OutElem
  | .nan => ⟨f.nanBits, true, false, false⟩
  | .inf a => match sat, f.infBits a with
    | false, some b => .of b
    | _, _ => f.overflow sat a
  | .fin a m e =>
    if m = 0 then .of (f.pack a 0 0)
    else
      let q := f.ulp m e
      let r := roundTo m e q stoch
      if f.exceeds r q then f.overflow sat a else .of (f.pack a r q)

/-- Clamp an integer to 8 bits. -/
def clamp8 (i : Int) : Nat × Bool := if i < -128 then (0x80, true) else if 127 < i then (0x7F, true) else ((i % 256).toNat, false)

/-- Convert to an 8-bit integer: nearest even, always saturating (R183); what NaN gives is open. -/
def convertInt8 : Num → OutElem
  | .fin a m e =>
    let r : Int := roundTo m e 0 none
    let c := clamp8 (if a then -r else r)
    { OutElem.of c.1 with sat := c.2 }
  | .inf a => { OutElem.of (if a then 0x80 else 0x7F) with sat := true }
  | .nan => { OutElem.open_ with nan := true }

/-- ⌊log₂⌋ of a finite value that is not zero. -/
def floorLog (m : Nat) (e : Int) : Int := (bitLen m : Int) - 1 + e

/-- Largest exponent of an MX element format (R182). -/
def mxTop (code : Nat) : Int := match code with | 0x10 => 8 | 0x11 => 15 | 0x12 => 4 | 0x13 => 2 | 0x14 => 2 | _ => 0

/-- ⌊log₂(amax)⌋ of a block, where it is not zero. -/
def amaxLog (l : List Num) : Option Int :=
  l.foldl (fun b x => match x with
    | .fin _ m e => if m = 0 then b else match b with
      | none => some (floorLog m e)
      | some y => some (max y (floorLog m e))
    | _ => b) none

/-- Convert a value, already divided by its block's scale, to an element of an MX format; MXINT8 carries 2⁻⁶ and saturates (R174). -/
def mxElem (code : Nat) (sat : Bool) (stoch : Option Nat) (x : Num) : OutElem :=
  match floatOf code, x with
  | some f, x => f.convert sat stoch x
  | none, .fin a m e =>
    let r : Int := roundTo m (e + 6) 0 stoch
    let c := clamp8 (if a then -r else r)
    { OutElem.of c.1 with excess := c.2 }
  | none, _ => .open_

/-- Convert a block of at most 32 values, each with what STOCH adds, to an MX format: its scale and elements (R182, R184). A block that
contains a NaN, before or after conversion, takes the scale 0xFF, so that each of its elements is NaN; what the spec does not fix (the scale
of zeros, a block with an infinity, a scale out of range) is open. -/
def mxBlock (code : Nat) (sat : Bool) (l : List (Num × Option Nat)) : Option Nat × List OutElem :=
  let opens := l.map (fun _ => OutElem.open_)
  if l.any (fun x => x.1 == .nan) then (some 0xFF, l.map (fun _ => { OutElem.open_ with nan := true }))
  else if l.any (fun x => x.1.isInf) then (none, opens)
  else match amaxLog (l.map (fun x => x.1)) with
    | none => (none, l.map (fun x => mxElem code sat none x.1))
    | some g =>
      let sc := g - mxTop code
      if sc < -127 ∨ 127 < sc then (none, opens)
      else
        let outs := l.map (fun x => mxElem code sat x.2 (match x.1 with | .fin a m e => .fin a m (e - sc) | y => y))
        if outs.any (fun o => o.nan) then (some 0xFF, outs.map (fun o => { o with nan := true }))
        else (some (sc + 127).toNat, outs)

end Sys2Proof.Machine
end

