-- ==== Sys2Proof/Machine/Tensor.lean ====
section
/-!
DEFINITION. Tensor engines and attention units (chapter 07): descriptors and their checks, operands and results in memory, the
codebook slots, the operations, units and hangs.
-/

namespace Sys2Proof.Machine

/-! ### Descriptors (R185, Table 7-6) -/

/-- The base fields of a tensor operation descriptor. -/
structure Tod where
  kind : Nat
  flags : Nat
  len : Nat
  epi : Nat
  fmtA : Nat
  fmtW : Nat
  fmtC : Nat
  rsv : Nat
  m : Nat
  n : Nat
  k : Nat
  lda : Nat
  ldc : Nat
  alpha : Nat
  a : Nat
  w : Nat
  c : Nat
  sa : Nat
  sw : Nat
  cb : Nat
  bias : Nat
  col : Nat
  seed : Nat
  sc : Nat
deriving DecidableEq, Repr

/-- Read the base fields of a descriptor. -/
def parseTod (b : List Byte) : Tod :=
  { kind := fieldLE b 0 1, flags := fieldLE b 1 1, len := fieldLE b 2 1, epi := fieldLE b 3 1, fmtA := fieldLE b 4 1, fmtW := fieldLE b 5 1,
    fmtC := fieldLE b 6 1, rsv := fieldLE b 7 1 + fieldLE b 0x64 4 + fieldLE b 0x70 8, m := fieldLE b 8 4, n := fieldLE b 0x0C 4,
    k := fieldLE b 0x10 4, lda := fieldLE b 0x14 4, ldc := fieldLE b 0x18 4, alpha := fieldLE b 0x1C 4, a := fieldLE b 0x20 8,
    w := fieldLE b 0x28 8, c := fieldLE b 0x30 8, sa := fieldLE b 0x38 8, sw := fieldLE b 0x40 8, cb := fieldLE b 0x48 8,
    bias := fieldLE b 0x50 8, col := fieldLE b 0x58 8, seed := fieldLE b 0x60 4, sc := fieldLE b 0x68 8 }

/-- ACCUM. -/
def Tod.accum (t : Tod) : Bool := t.flags.testBit 0
/-- SAT. -/
def Tod.sat (t : Tod) : Bool := t.flags.testBit 1
/-- STOCH. -/
def Tod.stoch (t : Tod) : Bool := t.flags.testBit 2
/-- BIAS. -/
def Tod.hasBias (t : Tod) : Bool := t.flags.testBit 3
/-- COLSCALE. -/
def Tod.hasCol (t : Tod) : Bool := t.flags.testBit 4
/-- CB_RELOAD. -/
def Tod.reload (t : Tod) : Bool := t.flags.testBit 5

/-- Whether a VECTOR operation reads a second operand (Table 7-7). -/
def Tod.binary (t : Tod) : Bool := t.kind == 2 && decide (t.epi ≤ 4)

/-! ### Checks (R187, Table 7-8) -/

/-- The flags that a kind uses (log entry 40). -/
def kindFlags (kind : Nat) : Nat := match kind with | 1 => 0x3F | 2 | 3 | 6 => 0x06 | 4 => 0x0E | _ => 0

/-- Check 1: the kind and its EPI are listed. -/
def Tod.kindOk (t : Tod) : Bool :=
  match t.kind with
  | 1 => decide (t.epi ≤ 3) | 2 => decide (t.epi ≤ 9) | 3 => decide (t.epi ≤ 2) | 4 => decide (t.epi ≤ 1) | 5 | 6 => true | _ => false

/-- A field of a descriptor that is zero unless it is used. -/
def unused (used : Bool) (v : Nat) : Bool := used || v == 0

/-- Check 3: reserved fields, and fields that the kind does not use, are zero. An address and SEED count as used only where a flag or a format
of the operation has the engine use them (DESIGN CHOICE, log entry 40). -/
def Tod.fieldsOk (t : Tod) (b : List Byte) : Bool :=
  let mm := t.kind == 1
  let vec := decide (2 ≤ t.kind ∧ t.kind ≤ 4)
  let body := mm || vec
  t.rsv == 0 && (t.flags &&& kindFlags t.kind) == t.flags && unused (t.kind != 5 && t.kind != 6) t.epi &&
    unused (body || t.kind == 6) t.fmtA && unused (mm || t.binary || t.kind == 5 || t.kind == 6) t.fmtW && unused (body || t.kind == 6) t.fmtC &&
    unused (body || t.kind == 6) t.m && unused body t.n && unused mm t.k && unused body t.lda && unused body t.ldc &&
    unused (mm || t.kind == 4) t.alpha && unused (body || t.kind == 6) t.a && unused (mm || t.binary) t.w && unused (body || t.kind == 6) t.c &&
    unused (body && fmtMx t.fmtA) t.sa && unused ((mm || t.binary) && fmtMx t.fmtW) t.sw &&
    unused ((mm && fmtVq t.fmtW) || t.kind == 5) t.cb && unused t.hasBias t.bias && unused (t.kind == 4 || (mm && t.hasCol)) t.col &&
    unused (body && t.stoch) t.seed && unused (body && fmtMx t.fmtC) t.sc &&
    (t.kind != 6 || (fieldLE b 0x86 2 / 2 == 0 && zeroAt b 0x8C 4 && zeroAt b 0xA0 32))

/-- Check 4: each format is allowed where it stands, and integer and floating operands do not mix (Table 7-2, R180). -/
def Tod.formatsOk (t : Tod) : Bool :=
  match t.kind with
  | 1 =>
    mmFmt t.fmtA && (mmFmt t.fmtW || fmtVq t.fmtW) && fmtInt t.fmtA == fmtInt t.fmtW &&
      (decide (1 ≤ t.fmtC ∧ t.fmtC ≤ 5) || fmtMx t.fmtC || (fmtInt t.fmtA && (t.fmtC == 6 || t.fmtC == 8)))
  | 2 => vecFmt t.fmtA && (!t.binary || vecFmt t.fmtW) && vecFmt t.fmtC
  | 3 | 4 => vecFmt t.fmtA && vecFmt t.fmtC
  | 5 => fmtVq t.fmtW
  | _ => decide (2 ≤ t.fmtA ∧ t.fmtA ≤ 4) && decide (2 ≤ t.fmtW ∧ t.fmtW ≤ 5) && decide (1 ≤ t.fmtC ∧ t.fmtC ≤ 4)

/-- The granule of K for a format (Table 7-7). -/
def kGranule (code : Nat) : Nat := if fmtMx code then 32 else if fmtVq code then vqLen code else if code = 7 then 2 else 1

/-- Check 5: dimensions (Table 7-7). -/
def Tod.dimsOk (t : Tod) : Bool :=
  let within (x hi : Nat) : Bool := decide (1 ≤ x ∧ x ≤ hi)
  match t.kind with
  | 1 => within t.m 2048 && within t.n 65536 && within t.k 32768 && t.k % kGranule t.fmtA == 0 && t.k % kGranule t.fmtW == 0
  | 2 | 3 | 4 => within t.m 65536 && within t.n 65536
  | _ => true

/-- Check 6: alignment of addresses and strides (R177). -/
def Tod.stridesOk (t : Tod) (b : List Byte) : Bool :=
  let al (x : Nat) : Bool := x % 64 == 0
  let row (ld code : Nat) : Bool := ld * fmtBits code % 512 == 0
  al t.a && al t.w && al t.c && al t.sa && al t.sw && al t.cb && al t.bias && al t.col && al t.sc &&
    (match t.kind with
    | 1 => decide (t.k ≤ t.lda ∧ t.n ≤ t.ldc) && row t.lda t.fmtA && row t.ldc t.fmtC
    | 2 => decide (t.n ≤ t.lda ∧ t.n ≤ t.ldc) && row t.lda t.fmtA && (!t.binary || row t.lda t.fmtW) && row t.ldc t.fmtC
    | 3 => decide (t.n ≤ t.lda ∧ 1 ≤ t.ldc) && row t.lda t.fmtA
    | 4 => decide (t.n ≤ t.lda ∧ t.n ≤ t.ldc) && row t.lda t.fmtA && row t.ldc t.fmtC
    | 6 => al (fieldLE b 0x90 8) && al (fieldLE b 0x98 8)
    | _ => true)

/-- Tokens of a KV page (R190). -/
def kvTokens (hkv d code : Nat) : Nat := if hkv * d = 0 then 0 else 32768 / (hkv * d * (fmtBits code / 8))

/-- Check 7: the geometry of an ATTEND (R189, R190). -/
def Tod.geometryOk (t : Tod) (b : List Byte) : Bool :=
  let nseq := fieldLE b 0x80 2
  let hq := fieldLE b 0x82 1
  let hkv := fieldLE b 0x83 1
  let d := fieldLE b 0x84 2
  t.kind != 6 || (decide (1 ≤ nseq ∧ nseq ≤ 512 ∧ 1 ≤ hq ∧ hq ≤ 128 ∧ 1 ≤ hkv ∧ hkv ≤ hq) && hq % hkv == 0 && (d == 64 || d == 128 || d == 256) &&
    decide (1 ≤ kvTokens hkv d t.fmtW))

/-- The first check of Table 7-8 that a descriptor fails, 0 for none. -/
def todCheck (b : List Byte) : Nat :=
  let t := parseTod b
  if !t.kindOk then 1
  else if t.len ≠ (if t.kind = 6 then 3 else 2) then 2
  else if !t.fieldsOk b then 3
  else if !t.formatsOk then 4
  else if !t.dimsOk then 5
  else if !t.stridesOk b then 6
  else if !t.geometryOk b then 7 else 0

/-! ### Operands and results in memory (R198) -/

/-- Why an operation stops; a refused descriptor names the check, and a sequence entry its SEQ_ID too (R189). One that waits, for lines that
holders outside the block have, does not stop: it asks for them with a request of the kind (R271). -/
inductive TenStop where
  | xlate (reason : Nat)
  | poison
  | check (n seqId : Nat)
  | overrun (addr : Nat)
  | wait (kind : MsgKind) (lines : List Nat)
deriving DecidableEq, Repr

/-- What a step of an operation gives, or why it stops, and the state. -/
abbrev Ten (α : Type) := Except TenStop α × State

/-- Where an operation's accesses are made: its section, who makes them, and the number of the unit, which tags its requests. -/
structure TenAt where
  sec : Nat
  acc : Accessor
  item : Nat
  tag : Nat
deriving DecidableEq, Repr

/-- Read `n` bytes of operands. Addresses outside this block's pool and hot tier give XLATE, PERMISSION. -/
def State.tenPages (s : State) (x : TenAt) : Nat → Nat → Nat → Ten (List Byte)
  | 0, _, _ => (.ok [], s)
  | fuel + 1, va, n =>
    if n = 0 then (.ok [], s)
    else
      let k := min n (4096 - va % 4096)
      let step (v : LineVal) (s : State) : Ten (List Byte) := match v with
        | .poison => (.error .poison, s)
        | .bytes b => match s.tenPages x fuel (va + k) (n - k) with
          | (.ok r, s) => (.ok (b ++ r), s)
          | e => e
      match s.resolve x.sec x.acc va false with
      | (.fail r, s) => (.error (.xlate r), s)
      | (.remote _, s) | (.host _, s) => (.error (.xlate xPermission), s)
      | (.stage a, s) => step (.bytes (s.stageRead a k)) s
      | (.pool off, s) | (.hot off, s) =>
        match s.needs x.tag off k with
        | [] =>
          let (v, s) := s.readMixed x.tag off k (s.slotAt off (s.sliceKey x.acc.slice))
          step v s
        | l => (.error (.wait .rdCur l), s)

/-- Read `n` bytes of operands at an address. -/
def State.tenRead (s : State) (x : TenAt) (va n : Nat) : Ten (List Byte) := s.tenPages x (n / 4096 + 2) va n

/-- Write bytes of results, page by page; durable pages come out of the item's reservation (R243). Lines held outside the block are taken
first, and a part of a poisoned line cannot be written (R281, R292). -/
def State.tenWritePages (s : State) (x : TenAt) : Nat → Nat → List Byte → Ten Unit
  | 0, _, _ => (.ok (), s)
  | fuel + 1, va, b =>
    if b = [] then (.ok (), s)
    else
      let k := min b.length (4096 - va % 4096)
      match s.resolve x.sec x.acc va true with
      | (.fail r, s) => (.error (.xlate r), s)
      | (.remote _, s) | (.host _, s) => (.error (.xlate xPermission), s)
      | (.stage a, s) => (s.stageWrite a (b.take k)).tenWritePages x fuel (va + k) (b.drop k)
      | (.pool off, s) | (.hot off, s) =>
        if s.holeLost off then (.error .poison, s)
        else if s.outsideHeld off k ≠ [] then (.error (.wait .wrFull (s.outsideHeld off k)), s)
        else if s.partPoison off k (s.slotAt off (s.sliceKey x.acc.slice)) then (.error .poison, s)
        else match s.takeDurable (some x.item) off k with
        | none => (.error (.overrun (s.gaddr off)), s)
        | some s => (s.writeHome off (s.sliceKey x.acc.slice) (b.take k)).tenWritePages x fuel (va + k) (b.drop k)

/-- Write bytes of results at an address. -/
def State.tenWrite (s : State) (x : TenAt) (va : Nat) (b : List Byte) : Ten Unit := s.tenWritePages x (b.length / 4096 + 2) va b

/-- Go on with what a step gave. -/
def Ten.andThen {α β : Type} (t : Ten α) (f : α → State → Ten β) : Ten β :=
  match t with
  | (.ok a, s) => f a s
  | (.error e, s) => (.error e, s)

/-- Do a step for each element of a list, collecting what they give. -/
def State.tenMap {α β : Type} (s : State) (f : α → State → Ten β) : List α → Ten (List β)
  | [] => (.ok [], s)
  | a :: l => Ten.andThen (f a s) (fun b s => Ten.andThen (s.tenMap f l) (fun bs s => (.ok (b :: bs), s)))

/-- Compute a value for each element of a list, drawing free values on the way. -/
def State.mapS {α β : Type} (s : State) (f : α → State → β × State) : List α → List β × State
  | [] => ([], s)
  | a :: l =>
    let (b, s) := f a s
    let (bs, s) := s.mapS f l
    (b :: bs, s)

/-- A list in parts of `n` elements. -/
def chunks {α : Type} (n : Nat) (l : List α) : List (List α) := (List.range (ceilDiv l.length n)).map (fun i => (l.drop (n * i)).take n)

/-- Read `n` elements of row `i` of a matrix from column `k` on as values, with the scales of MX formats (R177). -/
def State.tenRow (s : State) (x : TenAt) (code base ld scales i k n : Nat) : Ten (List Num) :=
  let w := fmtBits code
  Ten.andThen (s.tenRead x (base + (i * ld + k) * w / 8) ((n * w + 7) / 8)) (fun b s =>
    let elems := (List.range n).map (fun j => elemVal code (bitsAt b (j * w) w))
    if fmtMx code then
      Ten.andThen (s.tenRead x (scales + i * (ld / 32) + k / 32) ((n + 31) / 32)) (fun sc s =>
        (.ok (elems.zipIdx.map (fun e => e.1.scale (sc.getD (e.2 / 32) 0).toNat)), s))
    else (.ok elems, s))

/-- Read `n` elements of an FP32 vector from element `k` on, where it is used. -/
def State.tenVec (s : State) (x : TenAt) (used : Bool) (base k n : Nat) : Ten (Option (List Num)) :=
  if used then Ten.andThen (s.tenRead x (base + 4 * k) (4 * n)) (fun b s =>
    (.ok (some ((List.range n).map (fun j => fp32.decode (fieldLE b (4 * j) 4)))), s))
  else (.ok none, s)

/-- Read a weight tile of `kn` rows from row `k` and `nt` columns from column `c` of the panel layout: a function of row and column in
the tile (R176, R177); `book` is the codebook of a VQ format. Padding columns are read with the others; a tile of 64 columns that holds nothing
but padding is none of R197's tiles, and is not read (DESIGN CHOICE, log entry 118). -/
def State.tenTile (s : State) (x : TenAt) (t : Tod) (book : List Byte) (k kn c nt : Nat) : Ten (Nat → Nat → Num) :=
  let code := t.fmtW
  let part := c % 128
  if fmtVq code then
    let v := vqLen code
    let w := vqBits code
    let panel := t.w + c / 128 * (t.k / v * 128 * w / 8)
    Ten.andThen (s.tenMap (fun g s => s.tenRead x (panel + ((k / v + g) * 128 + part) * w / 8) (nt * w / 8)) (List.range (ceilDiv kn v))) (fun rows s =>
      (.ok (fun i j =>
        let e := bitsAt (rows.getD (i / v) []) (j * w) w
        elemVal code (book.getD (e * v + i % v) 0).toNat), s))
  else
    let w := fmtBits code
    let panel := t.w + c / 128 * (t.k * 128 * w / 8)
    Ten.andThen (s.tenMap (fun i s => s.tenRead x (panel + ((k + i) * 128 + part) * w / 8) (nt * w / 8)) (List.range kn)) (fun rows s =>
      let elem (i j : Nat) : Num := elemVal code (bitsAt (rows.getD i []) (j * w) w)
      if fmtMx code then
        let scales := t.sw + c / 128 * (t.k / 32 * 128)
        Ten.andThen (s.tenMap (fun b s => s.tenRead x (scales + (k / 32 + b) * 128 + part) nt) (List.range (ceilDiv kn 32))) (fun sc s =>
          (.ok (fun i j => (elem i j).scale ((sc.getD (i / 32) []).getD j 0).toNat), s))
      else (.ok elem, s))

/-! ### Free values (R181, R186, R191, R199) -/

/-- An FP32 result whose value the spec leaves open: any finite value or infinity; a subnormal is flushed (R181). -/
def State.freeF32 (s : State) : (Num × Bool) × State :=
  let (w, s) := s.freeWord
  (match fp32.decode (w.toNat % 2 ^ 32) with | .nan => (.fin false 0 0, false) | x => toF32 x, s)

/-- A zero whose sign the spec leaves open. -/
def State.freeZero (s : State) : (Num × Bool) × State :=
  let (w, s) := s.freeWord
  ((.fin (w.getLsbD 0) 0 0, false), s)

/-- An FP32 value that the spec leaves open among those that satisfy a test; `dflt` is one of them. -/
def State.freeWhere (s : State) (p : Num → Bool) (dflt : Num × Bool) : (Num × Bool) × State :=
  let (w, s) := s.freeWord
  let v := toF32 (fp32.decode (w.toNat % 2 ^ 32))
  (if v.1 != .nan && p v.1 then v else dflt, s)

/-- The contents of an accumulator: where the order of the additions matters, which the spec leaves open, a value as near to the exact sum as
their rounding leaves it, and any value where a partial sum may overflow; whether a subnormal partial sum was flushed is open too (R181,
R199). -/
def State.accNum (s : State) (a : Accum) : (Num × Bool) × State :=
  match a.value with
  | some v => (v, s)
  | none =>
    if a.count = 0 then s.freeZero
    else if a.mayOverflow then s.freeF32
    else
      let ((v, f), s) := s.freeWhere (fun v => (v.add a.exact.negate).abs.within (.fin false 0 0) a.slack) (toF32 a.exact)
      let (w, s) := s.freeWord
      ((v, f || (a.mayFlush && w.getLsbD 0)), s)

/-- How often the base-2 logarithm of e^d, for a d above zero, is passed: the whole numbers next below and above it, at most 1,024. -/
def expBounds (m : Nat) (e : Int) : Nat × Nat :=
  if 10 < (bitLen m : Int) + e then (1024, 1024)
  else
    let up := m * 2 ^ e.toNat
    let down := 2 ^ (-e).toNat
    (up * 14426 / (10000 * down), ceilDiv (up * 14427) (10000 * down))

/-- EXP of a value that is not NaN: exact for zero and the infinities, infinity and a flushed zero beyond FP32; else open between the powers of
two around it (log entry 94). -/
def State.expOf (s : State) (v : Num) : (Num × Bool) × State :=
  match v with
  | .nan => ((.nan, false), s)
  | .inf neg => ((if neg then .fin false 0 0 else .inf false, false), s)
  | .fin neg m e =>
    if m = 0 then ((.pow2 0, false), s)
    else
      let (lo, hi) := expBounds m e
      if neg then
        if 127 ≤ lo then ((.fin false 0 0, true), s)
        else
          let low : Num := if 126 < hi then .fin false 0 0 else .pow2 (-(hi : Int))
          let ((r, _), s) := s.freeWhere (fun r => r.within low (.pow2 (-(lo : Int)))) (.pow2 (-(lo : Int)), false)
          ((r, r.isZero), s)
      else if 128 ≤ lo then ((.inf false, false), s)
      else
        let top : Num := if 128 ≤ hi then .inf false else .pow2 hi
        s.freeWhere (fun r => r.within (.pow2 lo) top) (.pow2 lo, false)

/-- 1 ÷ √(num ÷ den) of a value above zero, open within a factor of two of it (log entry 94). -/
def State.rootOf (s : State) (num : Num) (den : Nat) : Num × State :=
  let log := match num with | .fin _ m e => (bitLen m : Int) + e - bitLen den | _ => 0
  let near (r : Num) : Bool :=
    let t := (r.mul r).mul num
    t.within (.fin false den (-2)) (.fin false den 2)
  let ((v, _), s) := s.freeWhere near (toF32 (.pow2 (-(log / 2))))
  (v, s)

/-! ### Results (R182–R184, R188) -/

/-- Nothing counted. -/
def TenSum.zero : TenSum := ⟨0, 0, 0, false⟩

/-- The counts of two parts of an operation. -/
def TenSum.plus (a b : TenSum) : TenSum := ⟨a.nan + b.nan, a.excess + b.excess, a.sat + b.sat, a.flushed || b.flushed⟩

/-- The counts of the elements of a row. -/
def countRow (l : List OutElem) (flushed : Bool) : TenSum := ⟨l.countP (fun o => o.nan), l.countP (fun o => o.excess), l.countP (fun o => o.sat), flushed⟩

/-- The value that STOCH adds for an output element: of SEED and its coordinates, or with no SEED of the free-running generator (R183). -/
def State.stochOf (s : State) (t : Tod) (m n : Nat) : Option Nat × State :=
  if !t.stoch then (none, s)
  else if t.seed ≠ 0 then (some (Config.stochBits t.seed m n).toNat, s)
  else
    let (w, s) := s.freeWord
    (some (w.toNat % 2 ^ 16), s)

/-- Pack elements of `w` bits into bytes, the first lowest; open elements and the bits past the last take free values. -/
def State.packElems (s : State) (w : Nat) (l : List (Option Nat)) : List Byte × State :=
  let n := (l.length * w + 7) / 8
  let (v, s) := (l ++ [none]).zipIdx.foldl (fun (p : Nat × State) (e : Option Nat × Nat) =>
    match e.1 with
    | some b => (p.1 + b * 2 ^ (e.2 * w), p.2)
    | none =>
      let (f, s) := p.2.freeWord
      (p.1 + f.toNat % 2 ^ w * 2 ^ (e.2 * w), s)) (0, s)
  (bytesLE n v, s)

/-- Convert the values of an output row, each with what STOCH adds: elements, and the scales of an MX format (R182, step 6). -/
def convertRow (code : Nat) (sat : Bool) (l : List (Num × Option Nat)) : List OutElem × List (Option Nat) :=
  if fmtMx code then
    let bs := (chunks 32 l).map (mxBlock code sat)
    (bs.flatMap (fun b => b.2), bs.map (fun b => b.1))
  else
    (l.map (fun v => match floatOf code with
      | some f => f.convert sat v.2 v.1
      | none => convertInt8 v.1), [])

/-- Convert the values of a row, from coordinates (m, n) on, to the output's elements: their bytes, the scales' bytes and the counts. -/
def State.outBytes (s : State) (t : Tod) (m n : Nat) (l : List (Num × Bool)) : (List Byte × List Byte × TenSum) × State :=
  let (st, s) := s.mapS (fun j s => s.stochOf t m (n + j)) (List.range l.length)
  let (outs, scales) := convertRow t.fmtC t.sat ((l.map (fun v => v.1)).zip st)
  let (b, s) := s.packElems (fmtBits t.fmtC) (outs.map (fun o => o.bits))
  let (sb, s) := if scales = [] then ([], s) else s.packElems 8 scales
  ((b, sb, countRow outs (l.any (fun v => v.2))), s)

/-- Write values of row `m` of C from column `n` on, each with whether a subnormal was flushed on the way. Where a stride is no whole number of
bytes, as REDUCE may have it with a format below 8 bits, a row begins at the byte that its first bit lies in, and its scale at byte
⌊LDC ÷ 32⌋ × m (DESIGN CHOICE, log entry 116). -/
def State.tenOut (s : State) (x : TenAt) (t : Tod) (m n : Nat) (l : List (Num × Bool)) : Ten TenSum :=
  let ((b, sb, sum), s) := s.outBytes t m n l
  Ten.andThen (s.tenWrite x (t.c + (m * t.ldc + n) * fmtBits t.fmtC / 8) b) (fun _ s =>
    Ten.andThen (s.tenWrite x (t.sc + m * (t.ldc / 32) + n / 32) sb) (fun _ s => (.ok sum, s)))

/-- The result word (Table 7-9). -/
def resultWord (t : Tod) (r : TenRun) : Word :=
  if t.kind = 5 then BitVec.ofNat 64 (r.slot.getD 0)
  else
    let stoch := t.stoch && !fmtInt t.fmtC && t.fmtC != 1
    BitVec.ofNat 64 (min r.sum.nan 0xFFFFF + min r.sum.excess 0xFFFFF * 2 ^ 20 + min r.sum.sat 0xFFFF * 2 ^ 40 + b2n r.sum.flushed * 2 ^ 56 +
      b2n stoch * 2 ^ 57 + b2n r.loaded * 2 ^ 58)

/-! ### Codebook slots (R179) -/

/-- The tag of a codebook: its translated address. -/
def State.cbTag (s : State) (x : TenAt) (va : Nat) : Ten Nat :=
  match s.resolve x.sec x.acc va false with
  | (.pool off, s) | (.hot off, s) => (.ok off, s)
  | (.fail r, s) => (.error (.xlate r), s)
  | (_, s) => (.error (.xlate xPermission), s)

/-- The least recently used slot of an engine that no operation holds; an empty slot first. -/
def State.cbVictim (s : State) (te : Nat) : Nat :=
  let free := (List.range 8).filter (fun i => match s.work.cb.find (8 * te + i) with | some c => c.heldBy.isEmpty | none => true)
  (free.foldl (fun (b : Option (Nat × Nat)) i =>
    let u := match s.work.cb.find (8 * te + i) with | some c => c.usedAt + 1 | none => 0
    match b with
    | none => some (i, u)
    | some (j, v) => if u < v then some (i, u) else some (j, v)) none).elim 0 (fun p => p.1)

/-- Hold the codebook of an operation in a slot: its slot, and whether it was loaded. That is the slot's use that counts for least recently used
(DESIGN CHOICE, log entry 117). It is loaded on a miss and on CB_RELOAD; CB_LOAD loads a
resident codebook anew, into the slot that it hits (DESIGN CHOICE, log entry 92). -/
def State.cbHold (s : State) (x : TenAt) (te op : Nat) (t : Tod) : Ten (Nat × Bool) :=
  Ten.andThen (s.cbTag x t.cb) (fun tag s =>
    let hit := (List.range 8).find? (fun i => match s.work.cb.find (8 * te + i) with
      | some c => c.slice == x.acc.slice && c.addr == tag && c.fmt == t.fmtW && !c.stale
      | none => false)
    let holders (i : Nat) : List Nat := match hit, s.work.cb.find (8 * te + i) with | some _, some c => addNew c.heldBy op | _, _ => [op]
    match hit, t.reload || t.kind == 5 with
    | some i, false => (.ok (i, false), { s with work := { s.work with cb := s.work.cb.upd (8 * te + i) (fun c => { c with usedAt := s.now, heldBy := holders i }) } })
    | _, _ =>
      let i := hit.getD (s.cbVictim te)
      Ten.andThen (s.tenRead x t.cb (vqBytes t.fmtW)) (fun b s =>
        let s := { s with work := { s.work with cb := s.work.cb.put (8 * te + i) ⟨x.acc.slice, tag, t.fmtW, b, s.now, holders i, false⟩ } }
        (.ok (i, true), s.incF .TEN_CB_LOADS_COUNT te)))

/-! ### MATMUL (R180–R182) -/

/-- The weight tile of a MATMUL's array mode: rows of K and columns of N (Table 7-5). -/
def Tod.tile (t : Tod) : Nat × Nat :=
  let wide (c : Nat) : Bool := c == 2 || c == 3
  if (t.fmtA = 7 ∧ t.fmtW = 7) ∨ (t.fmtA = 0x14 ∧ t.fmtW = 0x14) then (128, 128)
  else if wide t.fmtA || wide t.fmtW then (32, 64) else (64, 128)

/-- The epilogue's function (Table 7-6). GELU and SiLU of a finite value that is not zero are open within what bounds the functions: the value's
half and the value above zero, less than 0.3 in size and no more than half the value below it; the spec states no accuracy (log entry 94). -/
def State.actOf (s : State) (epi : Nat) (v : Num) : (Num × Bool) × State :=
  match epi, v with
  | 0, v => ((v, false), s)
  | _, .nan => ((.nan, false), s)
  | 1, .fin a m e => if m = 0 then (if a then s.freeZero else ((v, false), s)) else ((if a then .fin false 0 0 else .fin a m e, false), s)
  | 1, .inf a => ((if a then .fin false 0 0 else v, false), s)
  | _, .fin a m e =>
    if m = 0 then ((v, false), s)
    else if a then
      let ((r, f), s) := s.freeWhere (fun r => r.abs.within (.fin false 0 0) (.fin false m (e - 1)) && r.abs.lt (.fin false 77 (-8))) (.fin true 0 0, false)
      ((match r with | .fin _ m e => .fin true m e | r => r, f), s)
    else s.freeWhere (fun r => r.within (.fin false m (e - 1)) v) (toF32 v)
  | _, .inf false => ((v, false), s)
  | _, .inf true => s.freeF32

/-- Steps 1 to 5 of R182 for one element: ALPHA, COLSCALE, BIAS, ACCUM, the epilogue. -/
def State.epilogue (s : State) (t : Tod) (acc : Num × Bool) (col bias old : Option Num) : (Num × Bool) × State :=
  let step (v : Num × Bool) (f : Num → Num → Num × Bool) (y : Option Num) : Num × Bool :=
    match y with
    | some y =>
      let r := f v.1 y
      (r.1, v.2 || r.2)
    | none => v
  let x := step (step (step (step acc f32Mul (some (fp32.decode t.alpha))) f32Mul col) f32Add bias) f32Add old
  let (y, s) := s.actOf t.epi x.1
  ((y.1, x.2 || y.2), s)

/-- Write the columns of C that an accumulator bank holds, once the last tile of K has been added (R182). -/
def State.mmOut (s : State) (x : TenAt) (t : Tod) (acc : List Accum) (c cn : Nat) : Ten TenSum :=
  Ten.andThen (s.tenVec x t.hasCol t.col c cn) (fun col s =>
  Ten.andThen (s.tenVec x t.hasBias t.bias c cn) (fun bias s =>
    let pick (v : Option (List Num)) (j : Nat) : Option Num := v.bind (fun l => l[j]?)
    let row (r : List Accum × Nat) (s : State) : Ten TenSum :=
      if t.fmtC = 8 then
        Ten.andThen (s.tenWrite x (t.c + (r.2 * t.ldc + c) * 4) (r.1.flatMap (fun a => bytesLE 4 (a.int32.1 % 2 ^ 32).toNat))) (fun _ s =>
          (.ok ⟨0, 0, r.1.countP (fun a => a.int32.2), false⟩, s))
      else
        Ten.andThen (if t.accum then Ten.andThen (s.tenRow x t.fmtC t.c t.ldc t.sc r.2 c cn) (fun o s => (.ok (some o), s)) else (.ok none, s)) (fun old s =>
          let (vals, s) := s.mapS (fun (a : Accum × Nat) s =>
            let (v, s) := if fmtInt t.fmtA then (toF32 (Num.ofInt a.1.int32.1), s) else s.accNum a.1
            s.epilogue t v (pick col a.2) (pick bias a.2) (pick old a.2)) r.1.zipIdx
          Ten.andThen (s.tenOut x t r.2 c vals) (fun sum s =>
            (.ok (sum.plus ⟨0, 0, if fmtInt t.fmtA then r.1.countP (fun a => a.int32.2) else 0, false⟩), s)))
    Ten.andThen (s.tenMap row (chunks cn acc).zipIdx) (fun l s => (.ok (l.foldl TenSum.plus TenSum.zero), s))))

/-- The weights of a tile of a MATMUL by rows, from its weight-tile register or, where none holds it, from memory. -/
def State.tileOf (s : State) (x : TenAt) (te : Nat) (t : Tod) (r : TenRun) (u : Nat) : Ten (List (List Num)) :=
  match r.tiles.find? (fun y => y.tile == u) with
  | some y => (.ok y.w, s)
  | none =>
    let (kt, nt) := t.tile
    let ks := ceilDiv t.k kt
    let c := u / ks * nt
    let k := u % ks * kt
    let kn := min kt (t.k - k)
    let book := ((r.slot.bind (fun i => s.work.cb.find (8 * te + i))).map (fun (b : CbSlot) => b.bytes)).getD []
    Ten.andThen (s.tenTile x t book k kn c nt) (fun w s =>
      (.ok ((List.range kn).map (fun i => (List.range (min nt (t.n - c))).map (w i))), s))

/-- The rows of A that a tile takes, from operand staging or from memory: an A of at most 1 MiB is read once and kept, a larger one is read again
for each panel (R197). -/
def State.rowsOf (s : State) (x : TenAt) (t : Tod) (r : TenRun) (k kn : Nat) : Ten (List (List Num)) :=
  match r.staging.find? (fun y => y.k == k) with
  | some y => (.ok y.rows, s)
  | none => s.tenMap (fun m s => s.tenRow x t.fmtA t.a t.lda t.sa m k kn) (List.range t.m)

/-- Whether operand staging keeps A (R197). -/
def Tod.keepsA (t : Tod) : Bool := decide (t.m * t.k * fmtBits t.fmtA ≤ 8 * 2 ^ 20)

/-- One unit of a MATMUL: one weight tile over all rows of A, columns of N outermost (Table 7-12). The array works on the tile of one register
while the next tile fills the other (R180); a tile whose read ahead fails is read when its unit comes. The accumulators stay in the operation's
bank. -/
def State.mmUnit (s : State) (x : TenAt) (te : Nat) (t : Tod) (r : TenRun) : Ten TenRun :=
  let (kt, nt) := t.tile
  let ks := ceilDiv t.k kt
  let c := r.unit / ks * nt
  let cn := min nt (t.n - c)
  let k := r.unit % ks * kt
  let kn := min kt (t.k - k)
  let units := ceilDiv t.n nt * ks
  let add (z : Accum) (v : Num) : Accum := if fmtMx t.fmtA || fmtMx t.fmtW then z.addBlock v else z.add v
  Ten.andThen (s.tileOf x te t r r.unit) (fun w s =>
  Ten.andThen (s.rowsOf x t r k kn) (fun a s =>
    let old := if k = 0 then List.replicate (t.m * cn) Accum.zero else r.acc
    let acc := (a.zip (chunks cn old)).flatMap (fun p =>
      p.2.zipIdx.map (fun q => (p.1.zip w).foldl (fun z e => add z (e.1.mul (e.2.getD q.2 (.fin false 0 0)))) q.1))
    let staging := if t.keepsA then (if r.staging.any (fun y => y.k == k) then r.staging else r.staging ++ [⟨k, a⟩]) else []
    let (ahead, s) : List TileReg × State :=
      if r.unit + 1 < units then
        match s.tileOf x te t r (r.unit + 1) with
        | (.ok n, s) => ([⟨r.unit + 1, n⟩], s)
        | (.error _, _) => ([], s)
      else ([], s)
    let r := { r with unit := r.unit + 1, tiles := ⟨r.unit, w⟩ :: ahead, staging := staging }
    if k + kn < t.k then (.ok { r with acc := acc }, s)
    else Ten.andThen (s.mmOut x t acc c cn) (fun sum s => (.ok { r with acc := [], sum := r.sum.plus sum }, s))))

/-! ### VECTOR, REDUCE and NORM (R186) -/

/-- The larger of two values as the vector unit gives it; which zero of two it is is open. -/
def State.larger (s : State) (a b : Num) : Num × State :=
  if a = .nan ∨ b = .nan then (.nan, s)
  else if a.lt b then (b, s)
  else if b.lt a then (a, s)
  else if a.same b then (a, s)
  else
    let (z, s) := s.freeZero
    (z.1, s)

/-- EXP, SILU, GELU and RSQRT of a value. The spec states no accuracy: where the result is not one that FP32 holds exactly it is open,
within what bounds the functions (log entry 94). -/
def State.unary (s : State) (epi : Nat) (a : Num) : (Num × Bool) × State :=
  match epi, a with
  | _, .nan => ((.nan, false), s)
  | 5, v => s.expOf v
  | 8, .inf neg => ((if neg then .nan else .fin false 0 0, false), s)
  | 8, .fin neg m e =>
    if m = 0 then ((.inf neg, false), s)
    else if neg then ((.nan, false), s)
    else
      let k := e + trailing m
      if m = 2 ^ trailing m ∧ k % 2 = 0 then ((.pow2 (-(k / 2)), false), s)
      else
        let (v, s) := s.rootOf a 1
        ((v, false), s)
  | 6, v => s.actOf 3 v
  | _, v => s.actOf 2 v

/-- An element operation of VECTOR on A, B and, for FMA, the old C (Table 7-7). -/
def State.vecOp (s : State) (epi : Nat) (a b c : Num) : (Num × Bool) × State :=
  match epi with
  | 0 => (f32Add a b, s)
  | 1 => (f32Mul a b, s)
  | 2 =>
    let (v, s) := s.larger a b
    (toF32 v, s)
  | 3 =>
    let (v, s) := s.larger a.negate b.negate
    (toF32 v.negate, s)
  | 4 => (toF32 ((a.mul b).add c), s)
  | 9 => (toF32 a, s)
  | _ => s.unary epi a

/-- One row of a VECTOR operation. -/
def State.vectorUnit (s : State) (x : TenAt) (t : Tod) (i : Nat) : Ten TenSum :=
  let row (used : Bool) (code base ld scales : Nat) (s : State) : Ten (List Num) :=
    if used then s.tenRow x code base ld scales i 0 t.n else (.ok (List.replicate t.n (.fin false 0 0)), s)
  Ten.andThen (row true t.fmtA t.a t.lda t.sa s) (fun a s =>
  Ten.andThen (row t.binary t.fmtW t.w t.lda t.sw s) (fun b s =>
  Ten.andThen (row (t.epi == 4) t.fmtC t.c t.ldc t.sc s) (fun c s =>
    let (l, s) := s.mapS (fun (e : Num × Num × Num) s => s.vecOp t.epi e.1 e.2.1 e.2.2) (a.zip (b.zip c))
    s.tenOut x t i 0 l)))

/-- One row of a REDUCE operation: a sum, the largest element, or a sum of squares. -/
def State.reduceUnit (s : State) (x : TenAt) (t : Tod) (i : Nat) : Ten TenSum :=
  Ten.andThen (s.tenRow x t.fmtA t.a t.lda t.sa i 0 t.n) (fun a s =>
    let (v, s) := match t.epi with
      | 0 => s.accNum (a.foldl Accum.add Accum.zero)
      | 1 =>
        let (v, s) := a.tail.foldl (fun (p : Num × State) y => p.2.larger p.1 y) (a.headD .nan, s)
        (toF32 v, s)
      | _ => s.accNum (a.foldl (fun (z : Accum) (y : Num) => z.add (y.mul y)) Accum.zero)
    s.tenOut x t i 0 [v])

/-- 1 ÷ √(mean square + epsilon) of a row (NORM RMS): open within a factor of two where the sum under the root is above zero and finite (log
entry 94). -/
def State.rmsScale (s : State) (a : List Num) (eps : Num) : Num × State :=
  let sq := (a.foldl (fun (z : Accum) (y : Num) => z.add (y.mul y)) Accum.zero).exact
  match sq.add (eps.mul (Num.ofInt a.length)) with
  | .nan | .inf true => (.nan, s)
  | .inf false => (.fin false 0 0, s)
  | .fin neg m _ => if m = 0 then (.inf false, s) else if neg then (.nan, s) else s.rootOf (sq.add (eps.mul (Num.ofInt a.length))) a.length

/-- The mean of a row: its sum divided by its length, the quotient open by one step of FP32 where it is not exact, as the spec does not say
whether it is divided or multiplied (R181, log entry 94); and whether a subnormal was flushed. -/
def State.rowMean (s : State) (a : List Num) : (Num × Bool) × State :=
  let ((v, f), s) := s.accNum (a.foldl Accum.add Accum.zero)
  let (q, g) := f32Div v (Num.ofInt a.length)
  match q with
  | .fin _ m e =>
    if q.mul (Num.ofInt a.length) |>.same v then ((q, f || g), s)
    else
      let ((r, h), s) := s.freeWhere (fun r => (r.add q.negate).abs.within (.fin false 0 0) (.fin false m (e - 22))) (q, g)
      ((r, f || h), s)
  | _ => ((q, f || g), s)

/-- 1 ÷ √(variance + epsilon) of a row (NORM LAYER): open, but above zero and, for finite elements, no more than twice 1 ÷ √epsilon for an epsilon
above zero. -/
def State.layerScale (s : State) (a : List Num) (eps : Num) : Num × State :=
  if a.any (fun v => v == .nan || v.isInf) ∨ eps = .nan then (.nan, s)
  else if (Num.fin false 0 0).lt eps then
    let ((v, _), s) := s.freeWhere (fun r => (Num.fin false 0 0).lt r && ((r.mul r).mul eps).within (.fin false 0 0) (.pow2 2)) (.pow2 (-100), false)
    (v, s)
  else
    let (w, s) := s.freeWord
    (fp32.decode (w.toNat % 2 ^ 32), s)

/-- One row of a NORM operation: the row less its mean (LAYER), times the row's scale, times the gain, plus, for LAYER, the bias (R186). -/
def State.normUnit (s : State) (x : TenAt) (t : Tod) (i : Nat) : Ten TenSum :=
  let eps := fp32.decode t.alpha
  Ten.andThen (s.tenRow x t.fmtA t.a t.lda t.sa i 0 t.n) (fun a s =>
  Ten.andThen (s.tenVec x true t.col 0 t.n) (fun gain s =>
  Ten.andThen (s.tenVec x (t.hasBias && t.epi == 1) t.bias 0 t.n) (fun bias s =>
    let layer := t.epi == 1
    let ((mu, flushed), s) := if layer then s.rowMean a else ((.fin false 0 0, false), s)
    let (r, s) := if layer then s.layerScale a eps else s.rmsScale a eps
    let one (e : Num × Nat) : Num × Bool :=
      let d := if layer then f32Add e.1 mu.negate else (e.1, false)
      let u := f32Mul d.1 r
      let v := f32Mul u.1 (((gain.getD []))[e.2]?.getD .nan)
      let f := flushed || d.2 || u.2 || v.2
      match bias with
      | some b =>
        let z := f32Add v.1 (b[e.2]?.getD .nan)
        (z.1, f || z.2)
      | none => (v.1, f)
    s.tenOut x t i 0 (a.zipIdx.map one))))

/-! ### ATTEND (R189–R191) -/

/-- A row to which no position has been attended. -/
def AttRow.zero : AttRow := ⟨[], false⟩

/-- A row takes a position with its score and value row. -/
def AttRow.take (r : AttRow) (sc : Num × Bool) (v : List Num) : AttRow := ⟨r.taken ++ [(sc.1, v)], r.flushed || sc.2⟩

/-- The largest score of a row. -/
def AttRow.top (r : AttRow) : Num := r.taken.foldl (fun m p => if m.lt p.1 then p.1 else m) (.inf true)

/-- Whether the softmax of a row is NaN: a score is NaN or +∞, or every score is −∞ (R184, R191). -/
def AttRow.undef (r : AttRow) : Bool := r.taken.any (fun p => p.1 == .nan || p.1 == .inf false) || r.taken.all (fun p => p.1 == .inf true)

/-- A weight as it multiplies the values: rounded to BF16 for 16-bit KV and to E4M3 for FP8 KV (R191, step 4). -/
def roundWeight (fmtKv : Nat) (w : Num) : Num :=
  let code := if fmtKv = 2 ∨ fmtKv = 3 then 2 else 4
  match floatOf code with
  | some f => ((f.convert true none w).bits.map (elemVal code)).getD .nan
  | none => .nan

/-- The exponentials of a row's scores against its maximum, each with its value row (R191, step 3), and whether a subnormal was flushed. -/
def State.attWeights (s : State) (r : AttRow) : List (Num × List Num) × Bool × State :=
  let top := r.top
  let (l, s) := s.mapS (fun (p : Num × List Num) s =>
    let (d, f) := f32Add p.1 top.negate
    let ((e, g), s) := s.expOf d
    ((e, p.2, f || g), s)) r.taken
  (l.map (fun p => (p.1, p.2.1)), r.flushed || l.any (fun p => p.2.2), s)

/-- The weight sum of a row: of the exponentials, or of the weights as they were rounded, which the spec leaves open (R191, step 4; log entry
94). -/
def State.attSum (s : State) (fmtKv : Nat) (l : List (Num × List Num)) : (Num × Bool) × State :=
  let (w, s) := s.freeWord
  s.accNum (l.foldl (fun (z : Accum) p => z.add (if w.getLsbD 0 then p.1 else roundWeight fmtKv p.1)) Accum.zero)

/-- The output row and log-sum-exp of a row (R191, steps 3 to 5): the values weighted by the rounded exponentials, accumulated in FP32 and divided
by the weight sum; and the maximum plus the logarithm of the sum, which is open between zero and the count of its bits. One position has weight
1; a row whose maximum is not finite gives NaN. -/
def State.attRow (s : State) (fmtKv d : Nat) (r : AttRow) : List (Num × Bool) × (Num × Bool) × State :=
  if r.undef then (List.replicate d (.nan, r.flushed), (.nan, r.flushed), s)
  else
    let (l, f, s) := s.attWeights r
    let ((sum, g), s) := s.attSum fmtKv l
    let (out, s) := s.mapS (fun i s =>
      let ((v, h), s) := s.accNum (l.foldl (fun (z : Accum) p => z.add ((roundWeight fmtKv p.1).mul (p.2.getD i .nan))) Accum.zero)
      let (q, k) := f32Div v sum
      ((q, f || g || h || k), s)) (List.range d)
    if r.taken.length = 1 then
      let (lse, k) := toF32 r.top
      (out, (lse, f || g || k), s)
    else
      let ((ln, _), s) := s.freeWhere (fun v => v.within (.fin false 0 0) (Num.ofInt (bitLen r.taken.length))) (.fin false 0 0, false)
      let (lse, k) := f32Add r.top ln
      (out, (lse, f || g || k), s)

/-- The score of a query row and a key: SCALE × (q · k), accumulated in FP32 (R191, step 1), and whether a subnormal was flushed. -/
def State.attScore (s : State) (scale : Nat) (q k : List Num) : (Num × Bool) × State :=
  let ((v, f), s) := s.accNum ((q.zip k).foldl (fun z p => z.add (p.1.mul p.2)) Accum.zero)
  let (r, g) := f32Mul (fp32.decode scale) v
  ((r, f || g), s)

/-- A sequence's entry is checked as the unit reaches it (R187, R189): ranges, reserved bytes, and rows below M that no sequence before it
has taken. -/
def seqOk (t : Tod) (e : List Byte) (taken : List (Nat × Nat)) : Bool :=
  let kv := fieldLE e 8 4
  let q := fieldLE e 0x0C 2
  let row := fieldLE e 0x10 4
  decide (1 ≤ kv ∧ kv ≤ 131072 ∧ 1 ≤ q ∧ q ≤ 2048 ∧ q ≤ kv ∧ row + q ≤ t.m) && zeroAt e 0x0E 2 && zeroAt e 0x16 10 &&
    taken.all (fun p => decide (row + q ≤ p.1 ∨ p.1 + p.2 ≤ row))

/-- The results of the rows of a pass: O, and LSE where it is asked for, kept until every sequence has passed its checks. A NaN written to either
counts (R184). -/
def State.attEnd (s : State) (t : Tod) (b : List Byte) (a : AttRun) (row0 h : Nat) : (List (Nat × List Byte) × TenSum) × State :=
  let hq := fieldLE b 0x82 1
  let d := fieldLE b 0x84 2
  let lse := fieldLE b 0x98 8
  let (l, s) := s.mapS (fun (r : AttRow × Nat) s =>
    let row := row0 + r.2
    let (o, v, s) := s.attRow t.fmtW d r.1
    let ((ob, _, sum), s) := s.outBytes t row (h * d) o
    let w := (t.c + (row * hq + h) * d * fmtBits t.fmtC / 8, ob)
    if lse = 0 then (([w], sum), s)
    else
      let e := fp32.convert false none v.1
      let (vb, s) := s.packElems 32 [e.bits]
      (([w, (lse + (row * hq + h) * 4, vb)], sum.plus (countRow [e] v.2)), s)) a.rows.zipIdx
  ((l.flatMap (fun p => p.1), (l.map (fun p => p.2)).foldl TenSum.plus TenSum.zero), s)

/-- One unit of an ATTEND: one page for one query head and at most 64 query rows (Table 7-12), page by page within a pass, the passes of a
sequence by head and rows. A page counts in TEN_ATT_PAGES on a sequence's first pass (DESIGN CHOICE, log entry 95). -/
def State.attUnit (s : State) (x : TenAt) (k : Nat) (t : Tod) (b : List Byte) (r : TenRun) : Ten TenRun :=
  let hq := fieldLE b 0x82 1
  let hkv := fieldLE b 0x83 1
  let d := fieldLE b 0x84 2
  let causal := fieldLE b 0x86 2 % 2 == 1
  let kb := fmtBits t.fmtW / 8
  let p := kvTokens hkv d t.fmtW
  let entry : Ten (List Byte) := if r.att.part = 0 then s.tenRead x (fieldLE b 0x90 8 + 32 * r.att.seq) 32 else (.ok r.att.entry, s)
  Ten.andThen entry (fun e s =>
    let kv := fieldLE e 8 4
    let q := fieldLE e 0x0C 2
    let row := fieldLE e 0x10 4
    let seqId := fieldLE e 0x14 2
    if r.att.part = 0 ∧ !seqOk t e r.att.taken then (.error (.check 7 seqId), s)
    else
      let pages := ceilDiv kv p
      let blocks := ceilDiv q 64
      let j := r.att.part % pages
      let pass := r.att.part / pages
      let h := pass / blocks
      let q0 := pass % blocks * 64
      let qn := min 64 (q - q0)
      let g := h / (hq / hkv)
      Ten.andThen (s.tenRead x (fieldLE e 0 8 + 8 * j) 8) (fun pb s =>
        let page := natLE pb
        if page % 65536 ≠ 0 then (.error (.check 7 seqId), s)
        else
          let vec (base tok : Nat) (s : State) : Ten (List Num) :=
            Ten.andThen (s.tenRead x (base + (tok * hkv + g) * d * kb) (d * kb)) (fun v s =>
              (.ok ((List.range d).map (fun i => elemVal t.fmtW (fieldLE v (i * kb) kb))), s))
          let toks := List.range (min p (kv - j * p))
          Ten.andThen (s.tenMap (fun tok s => vec page tok s) toks) (fun keys s =>
          Ten.andThen (s.tenMap (fun tok s => vec (page + 32768) tok s) toks) (fun vals s =>
          Ten.andThen (s.tenMap (fun i s => s.tenRow x t.fmtA t.a (hq * d) 0 (row + q0 + i) (h * d) d) (List.range qn)) (fun qs s =>
            let s := if pass = 0 then s.incF .TEN_ATT_PAGES_COUNT k else s
            let old := if j = 0 then List.replicate qn AttRow.zero else r.att.rows
            let (rows, s) := s.mapS (fun (y : (AttRow × List Num) × Nat) s =>
              let seen := if causal then kv - q + q0 + y.2 + 1 - j * p else toks.length
              (((keys.zip vals).take seen).foldl (fun (z : AttRow × State) (kvp : List Num × List Num) =>
                let (sc, s) := z.2.attScore (fieldLE b 0x88 4) y.1.2 kvp.1
                (z.1.take sc kvp.2, s)) (y.1.1, s))) (old.zip qs).zipIdx
            let a := { r.att with rows := rows, entry := e, part := r.att.part + 1, taken := if r.att.part = 0 then r.att.taken ++ [(row, q)] else r.att.taken }
            let r := { r with unit := r.unit + 1, att := a }
            if j + 1 < pages then (.ok r, s)
            else
              let ((ws, sum), s) := s.attEnd t b a (row + q0) h
              let a := { a with rows := [], writes := a.writes ++ ws }
              let a := if a.part = pages * blocks * hq then { a with part := 0, seq := a.seq + 1, entry := [] } else a
              let r := { r with att := a, sum := r.sum.plus sum }
              if a.seq < fieldLE b 0x80 2 then (.ok r, s)
              else Ten.andThen (s.tenMap (fun (w : Nat × List Byte) s => s.tenWrite x w.1 w.2) a.writes) (fun _ s =>
                (.ok { r with att := { a with writes := [] } }, s)))))))

/-! ### Units of an operation (R194) -/

/-- The units of an operation that is no ATTEND (Table 7-12). -/
def Tod.units (t : Tod) : Nat :=
  match t.kind with
  | 1 => ceilDiv t.n t.tile.2 * ceilDiv t.k t.tile.1
  | 5 => 1
  | _ => t.m

/-- Whether every unit of an operation has ended. -/
def TenRun.finished (r : TenRun) (t : Tod) (b : List Byte) : Bool :=
  if t.kind = 6 then decide (fieldLE b 0x80 2 ≤ r.att.seq) else decide (t.units ≤ r.unit)

/-- Where an operation's accesses are made. -/
def State.tenAt (s : State) (x : Op) : TenAt := ⟨secOfUnit x.on.number, ⟨x.slice, (s.item x.item).bind (fun (y : Item) => y.model), false⟩, x.item, x.on.number⟩

/-- Run the next unit of an operation. -/
def State.runUnit (s : State) (x : Op) (r : TenRun) : Ten TenRun :=
  let t := parseTod x.tod
  let at_ := s.tenAt x
  let row (y : Ten TenSum) : Ten TenRun := Ten.andThen y (fun sum s => (.ok { r with unit := r.unit + 1, sum := r.sum.plus sum }, s))
  if r.finished t x.tod then (.ok r, s)
  else match t.kind with
    | 1 => s.mmUnit at_ x.te t r
    | 2 => row (s.vectorUnit at_ t r.unit)
    | 3 => row (s.reduceUnit at_ t r.unit)
    | 4 => row (s.normUnit at_ t r.unit)
    | 5 => (.ok { r with unit := r.unit + 1 }, s)
    | _ => s.attUnit at_ at_.sec t x.tod r

/-- Run the units that an operation has left, at most so many. -/
def State.runRest (s : State) (x : Op) : Nat → TenRun → Ten TenRun
  | 0, r => (.ok r, s)
  | fuel + 1, r => if r.finished (parseTod x.tod) x.tod then (.ok r, s) else Ten.andThen (s.runUnit x r) (fun r s => s.runRest x fuel r)

/-- The most units that an operation can have: those of an ATTEND of 512 sequences of 131,072 pages, 128 heads and 32 blocks of rows. -/
def maxUnits : Nat := 512 * 131072 * 128 * 32

/-! ### Starting an operation (R187, R193) -/

/-- Section of the unit of an operation. -/
def UnitId.sec (u : UnitId) : Nat := secOfUnit u.number

/-- Whether the unit of an operation is up. -/
def State.unitUp (s : State) (u : UnitId) : Bool := !s.unitOos u.number && !s.inReset u.number && s.coreOn

/-- The operation that a unit takes next: the oldest LC one; else, when none is suspended, the oldest BE one (R193). -/
def State.nextOn (s : State) (u : UnitId) : Option Nat :=
  let l := s.onUnit u
  if l.any (fun kv => kv.2.active) then none
  else
    let w := l.filter (fun kv => kv.2.phase == .waiting)
    match w.find? (fun kv => kv.2.cls == Cls.lc) with
    | some kv => some kv.1
    | none => if l.any (fun kv => kv.2.phase == .suspended) then none else (w.head?).map (fun kv => kv.1)

/-- Count the time that an operation has run since it was started or resumed (TEN_BUSY). -/
def State.countBusy (s : State) (x : Op) : State :=
  match x.on with | .te t => if x.active then s.addNs .TEN_BUSY_US t (s.now - x.startedAt) else s | _ => s

/-- An operation that has stopped leaves its unit: it reports its release, its codebook slot is free and the unit goes on (R141, R193,
R194). -/
def State.releaseOp (s : State) (o : Nat) (x : Op) : State := ((((s.countBusy x).delOp o).cbRelease o).dropCurs x.on.number).resumeOn x.on

/-- A refused descriptor: its item ends ST_FAULT, CORE, with a record BAD_TOD, and TEN_LAST of the engine it was issued to notes the check
(R187). The record of a sequence's entry names its SEQ_ID in AUX0 (DESIGN CHOICE, log entry 95). -/
def State.badTod (s : State) (o : Nat) (x : Op) (check seqId : Nat) : State :=
  let s := ((s.setF .TEN_LAST_CHECK x.te check).setF .TEN_LAST_SLICE x.te x.slice).releaseOp o x
  match s.itemNow x.item with
  | none => s
  | some y =>
    let ref := s.nextIndex
    let r := { s.recordOf y 0x0003 1 (unitDomain x.on.number) with te := x.te, addr := x.todWin, aux0 := seqId, aux1 := check, status := 3, creason := 2 }
    let r := match x.on with | .att k => { r with unit := k } | _ => r
    (s.fault r).endContext x.item ⟨3, 2, true, some ref, none⟩

/-- An operation stops on its own, at the end of its unit: a refused descriptor, a failed translation, poison, or a store beyond the durable
reservation (Table 7-16). A withdrawn one only releases. -/
def State.tenStop (s : State) (o : Nat) (x : Op) (e : TenStop) : State :=
  if x.cancelled then s.releaseOp o x
  else match e with
    | .check n seqId => s.badTod o x n seqId
    | .xlate r => (s.releaseOp o x).engineXlate x.item r
    | .poison => (s.releaseOp o x).enginePoison x.item
    | .overrun a => (s.releaseOp o x).holdupOverrun x.item a
    | .wait _ _ => s

/-- A part of an operation's work could not be done: the operation stops, in the state that it had come to; or it waits for lines that holders
outside the block have, and the part, which has no effect yet, is done again when they are there (R271, R281). -/
def State.stopOrWait (s come : State) (o : Nat) (x : Op) (e : TenStop) : State :=
  match e with
  | .wait kind l => s.askLines kind x.on.number (secOfUnit x.on.number) (s.sliceKey x.slice) l
  | e => come.tenStop o x e

/-- Start a tensor operation: its descriptor is checked, and its codebook is in a slot before the first tile (R179, R187). Its units end with
ENGINE_UNIT_END, and those left with ENGINE_OP_COMPLETE (DESIGN CHOICE, log entry 41). -/
def State.runTod (s : State) (o : Nat) (x : Op) : State :=
  let t := parseTod x.tod
  match todCheck x.tod with
  | 0 =>
    let before := s
    let x := { x with phase := .running, startedAt := s.now, progressAt := s.now }
    let s := s.updOp o (fun _ => x)
    if t.kind = 5 ∨ (t.kind = 1 ∧ fmtVq t.fmtW) then
      match s.cbHold (s.tenAt x) x.te o t with
      | (.error e, s) => before.stopOrWait s o x e
      | (.ok b, s) => (s.dropCurs x.on.number).updOp o (fun y => { y with run := { y.run with slot := some b.1, loaded := b.2 } })
    else s
  | c => s.badTod o x c 0

/-- The row of the table that an operation's descriptor belongs to: its kind, and for the vector kinds its EPI. A descriptor of no
kind is refused under any row (R187, check 1). -/
def todRow (b : List Byte) (kind : Nat) (epi : Option Nat) : Bool :=
  let t := parseTod b
  !t.kindOk || (t.kind == kind && (match epi with | some e => t.epi == e | none => true))

/-- A unit starts an operation of a kind, if it is the one that the unit takes next (R193). -/
def State.startTod (s : State) (o kind : Nat) (epi : Option Nat) : Result :=
  match s.work.ops.find o with
  | some x =>
    let te := match x.on with | .me _ => false | _ => true
    if te && s.unitUp x.on && s.nextOn x.on == some o && todRow x.tod kind epi then .next (s.runTod o x) else .next s
  | none => .next s

/-- R182: MATMUL. -/
def execTodMatmul (op : Nat) (s : State) : Result := s.startTod op 1 none
/-- R186: VECTOR ADD. -/
def execTodVectorAdd (op : Nat) (s : State) : Result := s.startTod op 2 (some 0)
/-- R186: VECTOR MUL. -/
def execTodVectorMul (op : Nat) (s : State) : Result := s.startTod op 2 (some 1)
/-- R186: VECTOR MAX. -/
def execTodVectorMax (op : Nat) (s : State) : Result := s.startTod op 2 (some 2)
/-- R186: VECTOR MIN. -/
def execTodVectorMin (op : Nat) (s : State) : Result := s.startTod op 2 (some 3)
/-- R186: VECTOR FMA. -/
def execTodVectorFma (op : Nat) (s : State) : Result := s.startTod op 2 (some 4)
/-- R186: VECTOR EXP. -/
def execTodVectorExp (op : Nat) (s : State) : Result := s.startTod op 2 (some 5)
/-- R186: VECTOR SILU. -/
def execTodVectorSilu (op : Nat) (s : State) : Result := s.startTod op 2 (some 6)
/-- R186: VECTOR GELU. -/
def execTodVectorGelu (op : Nat) (s : State) : Result := s.startTod op 2 (some 7)
/-- R186: VECTOR RSQRT. -/
def execTodVectorRsqrt (op : Nat) (s : State) : Result := s.startTod op 2 (some 8)
/-- R186: VECTOR CONVERT. -/
def execTodVectorConvert (op : Nat) (s : State) : Result := s.startTod op 2 (some 9)
/-- R186: REDUCE SUM. -/
def execTodReduceSum (op : Nat) (s : State) : Result := s.startTod op 3 (some 0)
/-- R186: REDUCE MAX. -/
def execTodReduceMax (op : Nat) (s : State) : Result := s.startTod op 3 (some 1)
/-- R186: REDUCE SUMSQ. -/
def execTodReduceSumsq (op : Nat) (s : State) : Result := s.startTod op 3 (some 2)
/-- R186: NORM RMS. -/
def execTodNormRms (op : Nat) (s : State) : Result := s.startTod op 4 (some 0)
/-- R186: NORM LAYER. -/
def execTodNormLayer (op : Nat) (s : State) : Result := s.startTod op 4 (some 1)
/-- R179: CB_LOAD. -/
def execTodCbLoad (op : Nat) (s : State) : Result := s.startTod op 5 none
/-- R191: ATTEND. -/
def execTodAttend (op : Nat) (s : State) : Result := s.startTod op 6 none

/-! ### Units, ends and hangs (R185, R193–R195) -/

/-- An operation ends with an outcome. -/
def State.finishOp (s : State) (o : Nat) (x : Op) (out : Outcome3) (w : Word) : State :=
  let s := ((s.countBusy x).cbRelease o).dropCurs x.on.number
  let s := match x.on with | .te t => s.incF .TEN_OPS_COUNT t | _ => s
  (s.opDone o x out w).resumeOn x.on

/-- The unit of an engine by its FLT_RSTu number. -/
def unitOf (u : Nat) : Option UnitId :=
  if u < 48 then some (.te u) else if u < 56 then some (.att (u - 48)) else if 120 ≤ u ∧ u < 152 then some (.me (u - 120)) else none

/-- Write the result word to the window copy of a descriptor, at +0x78 (R185). -/
def State.writeResult (s : State) (x : Op) (w : Word) : State :=
  match s.item x.item with
  | some y => if y.hasWindow then s.setCore y.core ((s.core y.core).lsWrite (y.winBase + x.todWin + 0x78) (bytesLE 8 w.toNat)) else s
  | none => s

/-- A tensor operation ends with an outcome: its result word is in the window before its handle is DONE (R185). -/
def State.endTod (s : State) (o : Nat) (x : Op) (out : Outcome3) : State :=
  let w := resultWord (parseTod x.tod) x.run
  (s.writeResult x w).finishOp o x out w

/-- A memory of an engine or of an attention unit reports an error (Table 7-16): corrected ones are counted; an uncorrectable one is counted
and raises TE_ERR or ATT_ERR at the section's cores (Table 14-1), and an engine maps a spare row over the failing one. -/
def State.engineMemory (s : State) (u : UnitId) (found : EccRead) : State :=
  match u, found with
  | .te t, .corrected => s.bumpF .TEN_ERR_CORRECTED t
  | .te t, .uncorrectable =>
    ((s.bumpF .TEN_ERR_UNCORRECTED t).setF .TEN_ERR_SPARES t (s.getF .TEN_ERR_SPARES t - 1)).unitEvent (unitOfTe t)
  | .att k, .corrected => s.bumpF .TEN_ATT_ERR_CORRECTED k
  | .att k, .uncorrectable => (s.bumpF .TEN_ATT_ERR_UNCORRECTED k).unitEvent (unitOfAtt k)
  | _, _ => s

/-- An engine with no spare row left for an uncorrectable error leaves service through its reset (R198). -/
def State.spareless (s : State) (t : Nat) : State :=
  if s.canReset (unitOfTe t) then
    let s := s.resetUnit (unitOfTe t) none
    { s with recov := { s.recov with resets := s.recov.resets.upd (unitOfTe t) (fun r => { r with leaving := true }) } }
  else s

/-- Whether a running operation is suspended at the end of its unit: a BE one for which an LC one waits, while none is suspended (R193). -/
def State.mustSuspend (s : State) (x : Op) : Bool :=
  let l := s.onUnit x.on
  x.cls == .be && l.any (fun kv => kv.2.phase == .waiting && kv.2.cls == Cls.lc) && !l.any (fun kv => kv.2.phase == .suspended)

/-- A unit of a tensor operation ends: its part of the output is written, and a BE operation with units left is suspended for a waiting LC one (R193, R194).
An uncorrectable error that the unit's own memories reported acts as a poisoned read (Table 7-16). -/
def State.tenUnitEnd (s : State) (o : Nat) (x : Op) (found : EccRead) : State :=
  let spares := match x.on with | .te t => s.getF .TEN_ERR_SPARES t | _ => 1
  let s := s.engineMemory x.on found
  if found = .uncorrectable then
    let s := s.tenStop o x .poison
    match x.on with | .te t => if spares = 0 then s.spareless t else s | _ => s
  else match s.runUnit x x.run with
    | (.error e, come) => if x.cancelled then come.tenStop o x e else s.stopOrWait come o x e
    | (.ok r, s) =>
      if x.cancelled then s.releaseOp o x
      else
        let s := s.dropCurs x.on.number
        if s.mustSuspend x ∧ !r.finished (parseTod x.tod) x.tod then
          let s := (s.countBusy x).updOp o (fun y => { y with run := r, phase := .suspended })
          let s := match x.on with | .te t => s.incF .TEN_PREEMPT_COUNT t | _ => s
          s.incF .SRV_SLC_PREEMPT_COUNT x.slice
        else s.updOp o (fun y => { y with run := r, progressAt := s.now })

/-- R194: a unit of the running operation ends, and `unit.found` is what the memories of an engine or of an attention unit reported in it. A
cancelled operation releases; one refused or expired ends with that outcome; a BE operation is suspended for an LC one; else it goes on. -/
def execEngineUnitEnd (unit : UnitEnd) (s : State) : Result :=
  match unitOf unit.unit with
  | none => .next s
  | some u =>
    match (s.onUnit u).find? (fun kv => kv.2.active) with
    | none => .next s
    | some (o, x) => match u with
      | .me _ =>
        if x.cancelled then .next (s.releaseOp o x)
        else if x.phase = .finishing then .next (s.finishOp o x x.outcome 0)
        else .next (s.updOp o (fun y => { y with progressAt := s.now }))
      | _ => if x.phase = .finishing ∧ !x.cancelled then .next (s.endTod o x x.outcome) else .next (s.tenUnitEnd o x unit.found)

/-- The unit under way of an operation that must make way ends: the operation ends with it if it was its last, else it is suspended (R193). -/
def State.lastUnit (s : State) (o : Nat) (x : Op) : State :=
  match s.runUnit x x.run with
  | (.ok r, w) => if r.finished (parseTod x.tod) x.tod then w.endTod o { x with run := r } .ok else s.tenUnitEnd o x .clean
  | _ => s.tenUnitEnd o x .clean

/-- R185: the running operation ends, its last units with it: its result word is in the window before its handle is DONE. A BE operation that has
more than one unit left while an LC one waits cannot have ended: the end of its unit comes first, and suspends it (R193). -/
def execEngineOpComplete (op : Nat) (s : State) : Result :=
  match s.work.ops.find op with
  | some x =>
    let te := match x.on with | .me _ => false | _ => true
    if !te ∨ !x.active then .next s
    else if x.cancelled then .next (s.tenUnitEnd op x .clean)
    else if x.phase = .finishing then .next (s.endTod op x x.outcome)
    else if s.mustSuspend x then .next (s.lastUnit op x)
    else match s.runRest x maxUnits x.run with
      | (.error e, come) => .next (s.stopOrWait come op x e)
      | (.ok r, s) => .next (s.endTod op { x with run := r } .ok)
  | none => .next s

/-- A hung unit's record and reset (Table 16-3). -/
def State.hang (s : State) (u last : Nat) : State :=
  s.faultReset u { FaultRec.ofUnit u 0x0009 2 with aux0 := last - s.edge.porAt }

/-- R194: no progress for 1 ms: a record UNIT_HANG and a TE reset. -/
def execEngineHangExpiry (unit : Nat) (s : State) : Result :=
  match unitOf unit with
  | some (.te _) | some (.att _) =>
    match ((unitOf unit).bind (fun u => (s.onUnit u).find? (fun kv => kv.2.active))) with
    | some (_, x) => .next (if x.progressAt + 1000000 ≤ s.now then s.hang unit x.progressAt else s)
    | none => .next s
  | _ => .next s

/-- R383: a move engine that holds an operation and moves nothing for 1 ms takes a MOVE reset. -/
def execMoveHangExpiry (engine : Nat) (s : State) : Result :=
  match s.onUnit (.me engine) with
  | [] => .next s
  | l =>
    let last := l.foldl (fun t kv => max t kv.2.progressAt) 0
    .next (if engine < 32 ∧ last + 1000000 ≤ s.now then s.hang (unitOfMe engine) last else s)

/-- R200: TEN_CLR clears the counters of every engine and attention unit. -/
def execTenClr (s : State) : Result :=
  let s := s.each (List.range 48) (fun s t =>
    (s.each [Fld.TEN_CB_LOADS_COUNT, .TEN_OPS_COUNT, .TEN_PREEMPT_COUNT] (fun s f => s.setF f t 0)).clearNs .TEN_BUSY_US t)
  .next (s.each (List.range 8) (fun s k => s.setF .TEN_ATT_PAGES_COUNT k 0))

/-! ### Refusals and moves (R125, R425) -/

/-- What an answer to an access outside the block means for an operation: an item's end, or an outcome of the handle (R425). -/
def State.opRefused (s : State) (o : Nat) (x : Op) : Ext → State
  | .ok _ => s
  | .poison | .refused 4 _ => s.enginePoison x.item
  | .refused 8 r => s.engineXlate x.item r
  | .refused 5 _ => s.engineExc x.item 0x15 ⟨5, 0, true, none, none⟩
  | .atsFail => s.engineXlate x.item xAts
  | .refused _ _ => s.updOp o (fun y => { y with phase := .finishing, outcome := .refused })
  | .expired => s.updOp o (fun y => { y with phase := .finishing, outcome := .expired })

/-- The operation that a move engine works on: the one it began, else the oldest LC one, else the oldest. -/
def State.moveNow (s : State) (m : Nat) : Option Nat :=
  let l := s.onUnit (.me m)
  match l.find? (fun kv => kv.2.active) with
  | some kv => some kv.1
  | none => s.nextOn (.me m)

/-- R425: a refusal or an expiry reaches an engine's operation. -/
def execEngineRemoteRefusal (op : Nat) (answer : Ext) (s : State) : Result :=
  match s.work.ops.find op with
  | some x =>
    let mine := x.active || (match x.on with | .me m => s.moveNow m == some op | _ => false)
    if mine && !x.cancelled then
      let s := s.updOp op (fun y => if y.active then y else { y with phase := .running, startedAt := s.now })
      .next (s.opRefused op x answer)
    else .next s
  | none => .next s

/-- What a segment of a move gives: it is moved, with what is left of the answer; it needs an answer from outside that is not there; the
answer refuses it; or the operation stops. -/
inductive Seg where
  | moved (n : Nat) (rest : Option Ext)
  | away
  | refused (e : Ext)
  | stop (e : TenStop)

/-- Bytes of a move's next segment: it lies in one 4 KiB page of its source and in one of its destination (R259). -/
def Op.segment (x : Op) : Nat :=
  let room (win : Bool) (a : Nat) : Nat := if win then 4096 else 4096 - (a + x.moved) % 4096
  min (x.len - x.moved) (min (room (x.zero || x.srcWin) x.src) (room x.dstWin x.dst))

/-- Read the source of a move's next segment; what lies outside the block comes from the answer's bytes, in order. -/
def State.segRead (s : State) (x : Op) (c : Nat) (at_ : TenAt) (e : Option Ext) : Except Seg (List Byte × Option Ext) × State :=
  let n := x.segment
  let va := x.src + x.moved
  let away (s' : State) : Except Seg (List Byte × Option Ext) × State := match e with
    | none => (.error .away, s)
    | some (.ok b) => (.ok (fit n b, some (.ok (b.drop n))), s')
    | some f => (.error (.refused f), s')
  if x.zero then (.ok (List.replicate n 0, e), s)
  else if x.srcWin then (.ok ((s.core c).lsRead va n, e), s)
  else match s.resolve at_.sec at_.acc va false with
    | (.fail r, s) => (.error (.stop (.xlate r)), s)
    | (.remote a, s) =>
      let slot := s.sliceKey at_.acc.slice
      let mix (b : List Byte) (e : Option Ext) (s : State) : Except Seg (List Byte × Option Ext) × State := match s.overlay a n slot b with
        | (.bytes b, s) => (.ok (b, e), s)
        | (.poison, s) => (.error (.stop .poison), s)
      if (linesOf a n).all (fun l => s.farHeld (farLine (64 * l))) then mix [] e s
      else match away (s.emit (.remoteRead a n)) with
        | (.ok (b, e), s) => mix b e s
        | r => r
    | (.host p, s) => away ((s.emit (.hostRead p va n)).hostAnswered p (e.getD .expired))
    | (.stage a, s) => (.ok (s.stageRead a n, e), s)
    | (.pool off, s) | (.hot off, s) =>
      match s.needs at_.tag off n with
      | [] => match s.readMixed at_.tag off n (s.slotAt off (s.sliceKey at_.acc.slice)) with
        | (.poison, s) => (.error (.stop .poison), s)
        | (.bytes b, s) => (.ok (b, e), s)
      | l => (.error (.stop (.wait .rdCur l)), s)

/-- Write bytes that lie in one 4 KiB page, for an item. -/
def State.writePage (s : State) (at_ : TenAt) (va : Nat) (b : List Byte) : Ten Unit :=
  match s.resolve at_.sec at_.acc va true with
  | (.fail r, s) => (.error (.xlate r), s)
  | (t, s) =>
    let here : Option Nat := match t with | .pool off | .hot off => some off | _ => none
    let held := (here.map (fun off => s.outsideHeld off b.length)).getD []
    if here.any s.holeLost then (.error .poison, s)
    else if held ≠ [] then (.error (.wait .wrFull held), s)
    else if here.any (fun off => s.partPoison off b.length (s.slotAt off (s.sliceKey at_.acc.slice))) then (.error .poison, s) else
    let room : Option State := match here with | some off => s.takeDurable (some at_.item) off b.length | none => some s
    match room with
    | none => (.error (.overrun va), s)
    | some s => match s.writeTarget t (s.sliceKey at_.acc.slice) va b with
      | (some r, s) => (.error (.xlate r), s)
      | (none, s) => (.ok (), s)

/-- Write bytes page by page, for an item. -/
def State.moveWrite (s : State) (at_ : TenAt) : Nat → Nat → List Byte → Ten Unit
  | 0, _, _ => (.ok (), s)
  | fuel + 1, va, b =>
    if b = [] then (.ok (), s)
    else
      let k := min b.length (4096 - va % 4096)
      match s.writePage at_ va (b.take k) with
      | (.ok _, s) => s.moveWrite at_ fuel (va + k) (b.drop k)
      | r => r

/-- Write the destination of a move's next segment. -/
def State.segWrite (s : State) (x : Op) (c : Nat) (at_ : TenAt) (b : List Byte) : Ten Unit :=
  if x.dstWin then (.ok (), s.setCore c ((s.core c).lsWrite (x.dst + x.moved) b)) else s.writePage at_ (x.dst + x.moved) b

/-- A move engine moves the next segment of an operation: both of its pages are walked for it alone (R259). -/
def State.moveSegment (s : State) (x : Op) (y : Item) (m : Nat) (e : Option Ext) : Seg × State :=
  let at_ : TenAt := ⟨secOfMe m, ⟨x.slice, y.model, false⟩, x.item, unitOfMe m⟩
  match s.segRead x y.core at_ e with
  | (.error g, s) => (g, s)
  | (.ok (b, e), s) => match s.segWrite x y.core at_ b with
    | (.ok _, s) => (.moved x.segment e, s)
    | (.error t, s) => (.stop t, s)

/-- A move begins, or has moved `n` bytes more. -/
def State.movedBy (s : State) (o : Nat) (n : Nat) : State :=
  s.updOp o (fun y => { y with phase := .running, startedAt := if y.phase = .waiting then s.now else y.startedAt, progressAt := s.now, moved := y.moved + n })

/-- The segments of a move that are left, until one stops it. -/
def State.moveAll (s : State) (o m : Nat) (y : Item) : Nat → Op → Option Ext → State
  | 0, x, _ => s.finishOp o x .ok 0
  | fuel + 1, x, e =>
    if x.len ≤ x.moved then s.finishOp o x .ok 0
    else match s.moveSegment x y m e with
      | (.moved n e, s) => ((s.movedBy o n).dropCurs x.on.number).moveAll o m y fuel { x with moved := x.moved + n } e
      | (.away, s) => s
      | (.refused e, s) => (s.movedBy o 0).opRefused o x e
      | (.stop t, come) => s.stopOrWait come o x t

/-- R125: a move engine finishes an operation: its last bytes are moved, or its destination filled with zeros, and its handle is DONE.
A refusal of what it reads outside acts as R425 says. -/
def execMoveOpComplete (op : Nat) (answer : Ext) (s : State) : Result :=
  match s.work.ops.find op with
  | some x =>
    match x.on with
    | .me m =>
      if s.moveNow m ≠ some op ∨ !s.unitUp x.on then .next s
      else if x.cancelled then .next (s.releaseOp op x)
      else if x.phase = .finishing then .next (s.finishOp op x x.outcome 0)
      else match s.item x.item with
        | none => .next (s.releaseOp op x)
        | some y => .next (s.moveAll op m y (x.len / 1024 + 4) x (some answer))
    | _ => .next s
  | none => .next s

/-- As time passes, a move engine moves the segments of its operation but the last, at its 500 bytes a ns (Table 1-7); one that needs an
answer from outside, or that stops the operation, is left to MOVE_OP_COMPLETE (DESIGN CHOICE, log entry 2). -/
def State.moveOn (s : State) (m : Nat) : State :=
  match (s.moveNow m).bind (fun o => (s.work.ops.find o).map (fun x => (o, x))) with
  | none => s
  | some (o, x) =>
    if !s.unitUp x.on ∨ x.cancelled ∨ x.phase = .finishing then s
    else if x.phase = .waiting then s.movedBy o 0
    else match s.item x.item with
      | none => s
      | some y =>
        if x.len ≤ x.moved + x.segment ∨ (s.now - x.startedAt) * 500 < x.moved + x.segment then s
        else match s.moveSegment x y m none with
          | (.moved n _, s) => (s.movedBy o n).dropCurs x.on.number
          | (.stop (.wait kind l), _) => s.askLines kind x.on.number (secOfUnit x.on.number) (s.sliceKey x.slice) l
          | _ => s

end Sys2Proof.Machine
end

