-- ==== Sys2Proof/Machine/Serving.lean ====
section
/-!
DEFINITION. Serving (chapter 08): pinning and loading of models, the seed list, the start and end of steps, and the serving
registers whose writes act.
-/

namespace Sys2Proof.Machine

/-! ### Loads and pins (R205–R207) -/

/-- Set a bit of SRV_SEED_STAT: entry `n` loaded or skipped (R207). -/
def State.seedMark (s : State) (n : Nat) (loaded : Bool) : State :=
  if loaded then s.setBit .SRV_SEED_STAT_LOADED 0 n true else s.setBit .SRV_SEED_STAT_SKIPPED 0 n true

/-- Pin a model. -/
def State.pinModel (s : State) (m : Nat) : State := s.setF .SRV_MDL_CTRL_PINNED m 1

/-- The seed list goes on (R207): entries in order, each loaded when no other load runs, or skipped. SEEDED is set behind the
last. -/
def State.seedGo (s : State) : Nat → State
  | 0 => s
  | fuel + 1 =>
    match s.serve.seedAt with
    | none => s
    | some n =>
      let next (s : State) : State := { s with serve := { s.serve with seedAt := some (n + 1) } }
      let m := s.getF .SRV_SEED_MODEL n
      if 16 ≤ n then ({ s with serve := { s.serve with seedAt := none } }).setF .SRV_STATUS_SEEDED 0 1
      else if !s.bitF .SRV_SEED_EN n then (next s).seedGo fuel
      else if s.serve.load.isSome then s
      else if s.resident m then
        let s := s.seedMark n true
        (next (if s.bitF .SRV_SEED_PIN n then s.pinModel m else s)).seedGo fuel
      else if !s.modelValid m then (next (s.seedMark n false)).seedGo fuel
      else match s.newLoad m none with
        | none => (next (s.seedMark n false)).seedGo fuel
        | some w => s.commitLoad m w none s.sg

/-- The load in progress is over: its hold of the model ends now (R203), SRV_STATUS is cleared, and the seed list goes on. -/
def State.loadOver (s : State) : State :=
  let s := match s.serve.load with
    | some l => { s with serve := { s.serve with load := none, models := s.serve.models.upd l.model (fun y => { y with lastHeld := s.now }) } }
    | none => s
  (((s.dropCurs loadTag).setF .SRV_STATUS_LOAD_BUSY 0 0).setF .SRV_STATUS_LOAD_MODEL 0 0).seedGo 17

/-- The items that wait on a model's load: those that refer to the model, and have not stopped for a cause of their own (R203, R205). -/
def State.waitingOn (s : State) (m : Nat) : List (Nat × Item) :=
  s.itemsWhere (fun (x : Item) => x.model == some m && !x.step && x.cause.isNone && x.withdrawn.isNone)

/-- A load ends poisoned (R205, R206): a record of MODEL_POISON, the model ABSENT and not pinned by a PIN_MODEL that waited, and
every waiting item ST_POISON (R75, row 0). A seed entry of the model is skipped. -/
def State.loadPoisoned (s : State) (l : Load) (off : Nat) : State :=
  let s := s.fault { FaultRec.blank 0x11 0 0 with addr := off, aux1 := l.model, status := 4 }
  let s := s.evict l.model
  let s := if l.pinAfter = [] then s else s.setF .SRV_MDL_CTRL_PINNED l.model 0
  let s := s.each (s.waitingOn l.model) (fun s kv => (s.incF .PRM_VOIDED_COUNT 0).finishItem kv.1 4 0 none 0)
  let c := s.chain l.model
  let s := s.setChain l.model { c with steps := c.steps.filter (fun (st : Step) => st.started || st.members != []) }
  let s := match s.serve.seedAt with
    | some n =>
      if n < 16 ∧ s.getF .SRV_SEED_MODEL n = l.model then
        { s.seedMark n false with serve := { (s.seedMark n false).serve with seedAt := some (n + 1) } }
      else s
    | none => s
  s.loadOver

/-- Copy one page of a model's weights into its frame, under key slot 0, line by line; `none` on poison. -/
def State.copyPage (s : State) (src dst : Nat) : Option State :=
  match s.readMixed loadTag src 0x200000 0 with
  | (.bytes b, s) => some (s.writeMem dst 0 b)
  | (.poison, _) => none

/-- Copy pages in order; the offset of the first that reads poisoned ends the load. -/
def State.copyPages (s : State) (src : Nat) : List (Nat × Nat) → Except Nat State
  | [] => .ok s
  | f :: rest => match s.copyPage src (directBase f.1 + f.2 * 0x200000) with
    | some s => s.copyPages (src + 0x200000) rest
    | none => .error src

/-- R206: PIN_MODEL pins a model, and loads it when it is not RESIDENT; it completes when the load ends. Its load was committed with it (R72);
one accepted while its model was not VALID or was pinned completes ST_BAD_DESC, STATE, where no load can start (DESIGN CHOICE, log
entry 112). -/
def execPinModel (item : Nat) (s : State) : Result :=
  match s.live item 0xA0 with
  | none => .next s
  | some x =>
    let m := x.inl % 2 ^ 10
    let wait (s : State) : State := match s.serve.load with
      | some l => ({ s with serve := { s.serve with load := some { l with pinAfter := l.pinAfter ++ [item] } } }).pinModel m
      | none => s
    if (match s.serve.load with | some l => l.pinAfter.contains item | none => false) then .next s
    else if !s.modelValid m || s.bitF .SRV_MDL_CTRL_PINNED m then .next (s.badDesc item 8)
    else if s.resident m then .next ((s.pinModel m).finishOk item 0)
    else if s.modelState m = 1 then .next (wait s)
    else match s.newLoad m none with
      | none => .next (s.badDesc item 8)
      | some w => .next (wait (s.commitLoad m w none s.sg))

/-- R206: UNPIN_MODEL removes a model's pin, and does not evict. -/
def execUnpinModel (item : Nat) (s : State) : Result :=
  match s.live item 0xA1 with
  | none => .next s
  | some x =>
    let m := x.inl % 2 ^ 10
    if s.bitF .SRV_MDL_CTRL_PINNED m then .next ((s.setF .SRV_MDL_CTRL_PINNED m 0).finishOk item 0)
    else .next (s.badDesc item 8)

/-- R205: the load committed starts once its time has come; from its start it holds its sections' move engines. -/
def execModelLoadStart (s : State) : Result :=
  match s.serve.load with
  | some l => if s.now < l.startAt then .next s else .next { s with serve := { s.serve with load := some { l with begun := true } } }
  | none => .next s

/-- The lines of a load's source that holders outside the block may have changed, and that it has not been given (R271). -/
def State.loadNeeds (s : State) (m : Nat) : List Nat :=
  s.needs loadTag (s.modelSrc m % 2 ^ 48) (0x200000 * (s.modelX m).frames.length)

/-- R203: the last page is written: the model is RESIDENT, and the PIN_MODELs that waited complete. A source page that reads
poisoned ends the load instead (R205). Lines that holders outside the block may have changed are asked for first (R271), and the load goes on. -/
def execModelLoadComplete (s : State) : Result :=
  match s.serve.load with
  | some l =>
    if !l.begun then .next s
    else if s.loadNeeds l.model ≠ [] then .next (s.askLines .rdCur loadTag 0 0 (s.loadNeeds l.model))
    else match s.copyPages (s.modelSrc l.model % 2 ^ 48) (s.modelX l.model).frames with
      | .error off => .next (s.loadPoisoned l off)
      | .ok s =>
        let s := (s.setModelState l.model 2).incF .SRV_MDL_LOADS_COUNT l.model
        let s := s.each l.pinAfter (fun s i => match s.live i 0xA0 with | some _ => s.finishOk i 0 | none => s)
        .next s.loadOver
  | none => .next s

/-- R205: page `page` of the load's source reads poisoned. -/
def execModelLoadPoison (page : Nat) (s : State) : Result :=
  match s.serve.load with
  | some l =>
    if l.begun ∧ page < s.modelPages l.model then .next (s.loadPoisoned l (s.modelSrc l.model % 2 ^ 48 + page * 0x200000))
    else .next s
  | none => .next s

/-! ### Steps (R213–R217) -/

/-- R213: a model's next step starts on its core, when it is due, the core is idle and its context is the one that R218
chooses. -/
def execStepStart (model : Nat) (s : State) : Result :=
  match s.coreOfModel model with
  | none => .next s
  | some c =>
    if s.idleCore c then
      match (s.stageSteps c).choose c with
      | (some (i, a), t) =>
        if t.item i |>.any (fun x => x.step && x.model == some model) then .next ((t.loadCtx c i a).unstage s.work.nextItem) else .next s
      | (none, _) => .next s
    else .next s

/-- A member completes ST_OK with its result (R215): KV_LEN advances by its query tokens; with CLOSE its sequence is freed when the
completion is written. -/
def State.memberDone (s : State) (i : Nat) (x : Item) (result : Word) : State :=
  let q := match x.req with | some r => r.qLen | none => 1
  let s := match x.seqKey with
    | some key => { s with serve := { s.serve with seqs := s.serve.seqs.upd key (fun y => { y with kvLen := y.kvLen + q }) } }
    | none => s
  (s.updItem i (fun y => { y with seqKey := none })).finishWith i 0 0 none result (if x.desc.seq.testBit 17 then x.seqKey else none)

/-- A member shares the end of a step that did not end well (R215); its sequence is marked where its own KV page was
poisoned. -/
def State.memberFailed (s : State) (i : Nat) (x : Item) (e : EndCause) (poisoned : Bool) : State :=
  let s := match x.seqKey, poisoned with
    | some key, true => { s with serve := { s.serve with seqs := s.serve.seqs.upd key (fun y => { y with poisoned := true }) } }
    | _, _ => s
  let s := match e.void with | some r => if x.broken then s else s.incF .PRM_VOIDED_COUNT r | none => s
  (s.keepSeq i).finishItem i e.status e.reason e.faultRef 0

/-- Close the sequences that a CLOSE left to the end of the steps that used them (R215). -/
def State.closeMarked (s : State) : State :=
  let used (key : Nat) : Bool := s.serve.chains.any (fun (kv : Nat × Chain) => kv.2.steps.any (fun st => st.dropped.any (fun d => d.key == key) ||
    s.stepHas st key))
  { s with serve := { s.serve with seqs := s.serve.seqs.keep (fun key q => !q.closing || used key) } }

/-- Copy a member's staged output to its OUT_ADDR through the member's own translation (R213); how the member ends, when that fails
(DESIGN CHOICE, log entry 76). -/
def State.copyOut (s : State) (sec i : Nat) (y : Item) (seat : Seat) : Option EndCause × State :=
  match y.req with
  | none => (none, s)
  | some r => match s.moveWrite ⟨sec, ⟨y.slice, none, false⟩, i, stepTag⟩ (r.outLen / 4096 + 2) r.outAddr (s.stageRead seat.out r.outLen) with
    | (.ok _, s) => (none, s)
    | (.error (.xlate e), s) => (some (causeXlate e), s)
    | (.error (.overrun a), s) =>
      (some ⟨3, 2, true, some s.nextIndex, none⟩, s.fault { s.recordOf y 0x0004 1 3 with addr := a, status := 3, creason := 2 })
    | (.error _, s) => (some causePoison, s)

/-- What the end of a step gives a member: its RESULT, with its output copied, or how its copy failed (R213, R215). -/
def State.collectMember (s : State) (sec : Nat) (st : Step) (i : Nat) : Except EndCause Word × State :=
  match s.item i, st.table, st.seats.findIdx? (fun z => z.item == i) with
  | some y, some t, some j =>
    let w := BitVec.ofNat 64 (fieldLE (s.stageRead (t + 64 * (j + 1) + 0x30) 8) 0 8)
    match s.copyOut sec i y (st.seats.getD j ⟨i, 0⟩) with
    | (some e, s) => (.error e, s)
    | (none, s) => (.ok w, s)
  | _, _, _ => (.ok 0, s)

/-- Collect what each of some members is given, in order. -/
def State.collect (s : State) (sec : Nat) (st : Step) : List Nat → List (Nat × Except EndCause Word) × State
  | [] => ([], s)
  | i :: rest =>
    let (r, s) := s.collectMember sec st i
    let (l, s) := s.collect sec st rest
    ((i, r) :: l, s)

/-- How a step that ends badly ended: the cause its context took, else what the end itself says (R215). -/
def stepCause (taken : Option EndCause) : StepOutcome → EndCause
  | .done => taken.getD ⟨3, 2, true, none, none⟩
  | .faulted r => taken.getD ⟨3, r, true, none, none⟩
  | .poisoned _ => taken.getD ⟨4, 0, true, none, some 0⟩

/-- A member completes with what it was given. -/
def State.giveMember (s : State) (i : Nat) (r : Except EndCause Word) : State :=
  match s.item i with
  | none => s
  | some y => match r with
    | .ok w => s.memberDone i y w
    | .error e => s.memberFailed i y e false

/-- Whether a member was withdrawn or stopped, or is gone. -/
def State.isCut (s : State) (i : Nat) : Bool := (s.item i).all (fun y => y.cause.isSome || y.withdrawn.isSome)

/-- A member that was withdrawn or stopped ends by its own cause with its step (Table 8-5). -/
def State.endCut (s : State) (i : Nat) : State :=
  match s.item i with
  | some y => match (if y.cause.isSome then y.cause else y.withdrawn) with
    | some e => (s.keepSeq i).finishCause i e
    | none => s
  | none => s

/-- Lines of the members' output ranges that holders outside the block must give up before the outputs are copied (R281). -/
def State.outHeld (s : State) (sec : Nat) (l : List Nat) : List Nat :=
  l.flatMap (fun i => match (s.item i).bind (fun (y : Item) => y.req.map (fun r => (y.slice, r.outAddr, r.outLen))) with
    | some (slice, a, n) => (s.heldPages sec ⟨slice, none, false⟩ (n / 4096 + 2) a n).1
    | none => [])

/-- R215: a model's running step ends. Members that were withdrawn or reset complete by their own cause; the others complete with the
RESULTs of their entries, their outputs copied (R213), or share the step's status. A step whose context has nodes or operations left
does not end, and one whose outputs go to lines that holders outside the block have waits for those (R281). -/
def execStepEnd (model : Nat) (outcome : StepOutcome) (s : State) : Result :=
  match (s.chain model).steps.find? (fun (st : Step) => st.started), s.itemsWhere (fun (x : Item) => x.step && x.model == some model) with
  | some st, (i, x) :: _ =>
    let finished := match x.runner with | some r => r.finished (s.nodesOf x) | none => false
    let good := match outcome with | .done => true | _ => false
    let held := if good then s.outHeld (secOfCore x.core) (st.members.filter (fun m => !s.isCut m)) else []
    if !s.released i || (good && (x.cause.isSome || !finished)) then .next s
    else if held ≠ [] then .next (s.askLines .wrFull stepTag 0 0 held)
    else
      let cut := st.members.filter s.isCut
      let rest := st.members.filter (fun m => !s.isCut m)
      let (outs, s) := if good then s.collect (secOfCore x.core) st rest else ([], s)
      let s := s.dropItem i
      let c := s.chain model
      let s := s.setChain model { c with steps := c.steps.filter (fun (t : Step) => !t.started), last := c.last ++ st.members }
      let s := s.each cut State.endCut
      let s := match outcome with
        | .done => s.each outs (fun s p => s.giveMember p.1 p.2)
        | .faulted _ => s.each rest (fun s m => match s.item m with | some y => s.memberFailed m y (stepCause x.cause outcome) false | none => s)
        | .poisoned bad => s.each rest (fun s m => match s.item m with
          | some y => s.memberFailed m y (stepCause x.cause outcome) (bad.contains m)
          | none => s)
      let s := (s.each st.dropped State.unreserve).closeMarked.freeClosed model
      .next (s.dispatch x.core)
  | _, _ => .next s

/-! ### Registers whose writes act (R225, R226) -/

/-- The counters of Table 8-6. -/
def acctFields : List Fld :=
  [.SRV_SLC_WAIT_COUNT, .SRV_SLC_ADMIT_COUNT, .SRV_SLC_STEPWAIT_COUNT, .SRV_SLC_PREEMPT_COUNT, .SRV_SLC_OVERRUN_COUNT, .SRV_SLC_COLD_COUNT]

/-- Clear the accounting counters of a slice. -/
def State.clearAcct (s : State) (slice : Nat) : State := s.each acctFields (fun s f => s.clearNs f slice)

/-- R225: SRV_ACCT_CLR clears the counters of every slice, or of one. -/
def execSrvAcctClr (all : Bool) (slice : Nat) (s : State) : Result :=
  let others (k : Nat) : Bool := !(acctFields.map (fun f => f.ctorIdx)).contains (k % 1024)
  if all then .next { s with
    regs := s.regs.keep (fun k _ => others k), work := { s.work with subUs := s.work.subUs.keep (fun k _ => others k) } }
  else .next (s.clearAcct (slice % 4096))

/-- Whether a CastID names a VALID cast whose LIVE version has CFLAGS.STEP. -/
def State.stepCastOk (s : State) (cast : Nat) : Bool :=
  s.bitF .CST_CAST_VALID cast && (List.range 4).any (fun k => s.slotState cast k == 1 &&
    (match s.castVer (cast * 4 + k) with | some v => v.cflags.testBit 0 | none => false))

/-- A write of SRV_MDL_CTRL (R226): VALID = 1 is ignored for no pages, for more pages than the hot set has, and for a STEP_CAST
that names no STEP cast; VALID = 0 while the model is not ABSENT or has open sequences. STEP_CAST is written only while VALID is 0,
and the VALID written with it counts it. -/
def State.writeModelCtrl (s : State) (m v : Nat) : State :=
  let want := v.testBit 31
  let s := if s.bitF .SRV_MDL_CTRL_VALID m then s else s.setF .SRV_MDL_CTRL_STEP_CAST m (v % 65536)
  let hot := ((List.range 8).map s.hotFrames).foldl (· + ·) 0
  if want then
    if s.modelPages m = 0 ∨ hot < s.modelPages m ∨ !s.stepCastOk (s.getF .SRV_MDL_CTRL_STEP_CAST m) then s
    else s.setF .SRV_MDL_CTRL_VALID m 1
  else if s.modelState m ≠ 0 ∨ (s.modelSeqs m) ≠ [] then s
  else (s.setF .SRV_MDL_CTRL_VALID m 0)

/-- R226: a write of a model entry's control word, with its VALID conditions. -/
def execSrvMdlValidWrite (model : Nat) (value : W32) (s : State) : Result := .next (s.writeModelCtrl model value.toNat)

end Sys2Proof.Machine
end

