-- ==== Sys2Proof/Machine/Slices.lean ====
section
/-!
DEFINITION. Slices (chapter 13): creation, shares, resizing, freezing, thawing, slice reset, removal and scrub, key slots, the
dirty log and the page mover.
-/

namespace Sys2Proof.Machine

/-! ### States, items and sequences of a slice (R329) -/

/-- A slice's items, those of destroyed queues included. -/
def State.sliceItems (s : State) (slice : Nat) : List (Nat × Item) := s.itemsWhere (fun (x : Item) => x.slice == slice && !x.step)

/-- A slice's sequences. -/
def State.sliceSeqs (s : State) (slice : Nat) : List (Nat × Seq) := s.serve.seqs.filter (fun (kv : Nat × Seq) => kv.1 / 65536 == slice)

/-- Whether a step that runs uses a sequence (R217). -/
def State.seqRuns (s : State) (key : Nat) : Bool :=
  s.serve.chains.any (fun (kv : Nat × Chain) => kv.2.steps.any (fun st => st.started &&
    (st.dropped.any (fun d => d.key == key) || st.members.any (fun i => (s.item i).any (fun (x : Item) => x.seqKey == some key)))))

/-- Close every sequence of a slice: the pages of one that a running step uses stay until that step's end, and its member names no sequence any
more (R217). -/
def State.closeSeqs (s : State) (slice : Nat) : State :=
  s.each (s.sliceSeqs slice) (fun s kv =>
    let runs := s.seqRuns kv.1
    let s := s.closeSeq kv.1
    if runs then
      { s with
        serve := { s.serve with closed := s.serve.closed ++ [kv] }
        work := { s.work with items := s.work.items.mapVals (fun i (x : Item) => if x.seqKey = some kv.1 ∧ s.inRunningStep i then { x with seqKey := none } else x) } }
    else s)

/-- Codebook slots and TLB entries of a slice are invalidated; a slot that an operation holds goes when it is done (R179,
R257). -/
def State.dropTags (s : State) (slice : Nat) : State :=
  { s with
    work := { s.work with cb := (s.work.cb.keep (fun _ c => c.slice != slice || !c.heldBy.isEmpty)).mapVals (fun _ (c : CbSlot) =>
      if c.slice = slice then { c with stale := true } else c) }
    mem := { s.mem with tlb := s.mem.tlb.filter (fun t => t.slice != slice) } }

/-- A slice's meter is full, and its floor credits are zero (R343). -/
def State.clearMeter (s : State) (slice : Nat) : State :=
  let s := s.fillMeter slice
  { s with work := { s.work with floorCredit := s.work.floorCredit.mapVals (fun k (c : Credit) => if k % 4096 = slice then ⟨0, s.now⟩ else c) } }

/-- A slice's meter is full, and its deficits and floor credits are zero (R337). -/
def State.clearTurns (s : State) (slice : Nat) : State :=
  let s := s.clearMeter slice
  { s with
    work := { s.work with deficit := s.work.deficit.keep (fun k _ => k % 4096 != slice) }
    fil := { s.fil with ports := s.fil.ports.mapVals (fun _ (x : Port) =>
      { x with rounds := x.rounds.map (fun t => if t.sub = slice then { t with deficit := 0 } else t) }) } }

/-! ### Creation (R330, R331, R333) -/

/-- Write the LC shares of a slice. -/
def State.setShares (s : State) (slice : Nat) (n : NewSlice) : State :=
  let s := (s.setF .SLC_LC_LO_SHARE0 slice (n.share 0)).setF .SLC_LC_LO_SHARE1 slice (n.share 1)
  let s := (s.setF .SLC_LC_LO_SHARE2 slice (n.share 2)).setF .SLC_LC_LO_SHARE3 slice (n.share 3)
  let s := (s.setF .SLC_LC_HI_SHARE4 slice (n.share 4)).setF .SLC_LC_HI_SHARE5 slice (n.share 5)
  (s.setF .SLC_LC_HI_SHARE6 slice (n.share 6)).setF .SLC_LC_HI_SHARE7 slice (n.share 7)

/-- What RESIZE_SLICE may change: shares, floor, queue limit, link share, memory quota. -/
def State.setQuotas (s : State) (n : NewSlice) : State :=
  let s := (s.setShares n.id n).setF .SLC_PLACE_BE_FLOOR n.id n.floor
  let s := (s.setF .SLC_PLACE_QUEUES n.id n.queues).setF .SLC_PORTS n.id n.ports
  s.setF .SLC_MEMQ_MIB n.id n.mib

/-- Fill a key slot from the DRBG (R331, R375). -/
def State.fillKey (s : State) (k : Nat) : State :=
  let s := s.draw
  (s.setKey k (fun _ => ⟨.live, false, s.now, s.slices.drbg⟩)).setF .SLC_CFG_FREE_KEYS 0 (s.getF .SLC_CFG_FREE_KEYS 0 - 1)

/-- Whether the host has enabled ATS on a slice's function: it does so in the function's PCIe configuration, which no command of the table
carries, so from the binding of the function, and again from its reset, the bit is open (DESIGN CHOICE, log entry 99). -/
def State.drawAts (s : State) (slice : Nat) : State :=
  if s.bitF .SLC_HOST_BOUND slice then
    let (w, s) := s.freeWord
    s.setF .MEM_XCTX_CFG_ATS slice (b2n (w.getLsbD 0))
  else s.setF .MEM_XCTX_CFG_ATS slice 0

/-- Assign the resources of Table 13-1: the slice is BUILDING. -/
def State.assign (s : State) (n : NewSlice) (key first : Nat) : State :=
  let s := ((s.fillKey key).setQuotas n).setF .SLC_PLACE_SECTIONS n.id n.secs
  let s := ((s.setF .SLC_HOT_PART n.id n.part).setF .SLC_HOT_FIRST n.id first).setF .SLC_HOT_COUNT n.id n.frames
  let s := ((s.setF .SLC_HOST_BOUND n.id (bits n.host 15 1)).setF .SLC_HOST_PORT n.id (bits n.host 12 3)).setF .SLC_HOST_VF n.id (bits n.host 0 9)
  let s := (s.setF .SLC_NODE_NODE n.id n.node).setF .SLC_NODE_RKEY n.id n.rkey
  let s := ((s.setF .SLC_STATE_KEY n.id key).setF .SLC_STATE_KEYST n.id 1).setF .SLC_STATE_ZEROISED n.id 0
  let s := ((s.setF .SLC_STATE_FREEZE_DONE n.id 0).setF .SLC_STATE_RESETTING n.id 0).setSlc n.id 1
  (((s.setSliceX n.id SliceX.fresh).clearAcct n.id).fillMeter n.id).drawAts n.id

/-- CREATE_SLICE (R330): the slice takes what its commit reserved (R72). -/
def State.createSlice (s : State) (i : Nat) (x : Item) (b : List Byte) : State :=
  let n := NewSlice.parse b
  match s.createBad b, s.oldestSlot, x.takenOr (s.createTake b) with
  | none, some k, some r => (s.assign n k r.first).finishOk i (BitVec.ofNat 64 (k + r.first * 2 ^ 16))
  | some e, _, _ => s.finishItem i e.1 e.2 none 0
  | none, _, _ => s.badDesc i 8

/-- R330: CREATE_SLICE. -/
def execCreateSlice (item : Nat) (reads : List Ext) (s : State) : Result :=
  match s.live item 0x80 with
  | some x => .next (s.withArgs item 64 x reads (fun b _ s => s.createSlice item x b))
  | none => .next s

/-! ### Slice reset (R337) -/

/-- The end of an item by a slice reset. -/
def causeSliceReset : EndCause := ⟨9, 0, true, none, some 1⟩

/-- What a slice reset does at once (steps 1 to 3). A second request meanwhile is absorbed. -/
def State.sliceReset (s : State) (slice : Nat) : State :=
  let st := s.slcState slice
  if slice = 0 ∨ st = 0 ∨ 4 ≤ st ∨ s.bitF .SLC_STATE_RESETTING slice then s
  else
    let s := s.setF .SLC_STATE_RESETTING slice 1
    let s := s.closeSeqs slice
    let s := s.each (s.sliceItems slice) (fun s kv =>
      let s := s.setF .TMP_DUR_RESV_PAGES 0 (s.getF .TMP_DUR_RESV_PAGES 0 - kv.2.durResv)
      let s := (s.updItem kv.1 (fun x => { x with durResv := 0 })).stopItem kv.1 (kv.2.withdrawn.getD causeSliceReset)
      s.updItem kv.1 (fun x => { x with stopAt := some s.now }))
    (s.dropTags slice).clearTurns slice

/-- Whether an operation, a token or an item of a slice is still held somewhere. -/
def State.sliceHeld (s : State) (slice : Nat) : Bool :=
  (s.sliceItems slice) != [] || s.work.ops.any (fun (kv : Nat × Op) => kv.2.slice == slice) ||
    s.work.backends.any (fun (kv : Nat × Backend) => kv.2.tokens.any (fun (t : Nat × Token) => t.2.slice == slice))

/-- Record a security error (SEC_ERR): 1 ANCHOR, 2 SIGNATURE, 3 SESSION_LIMIT, 4 TDI_ERROR, 5 INGOT. -/
def State.secErr (s : State) (code : Nat) : State := (s.setF .SEC_ERR_LAST 0 code).bumpF .SEC_ERR_COUNT 0

/-- Key of a virtual function's TDI. -/
def tdiKey (port vf : Nat) : Nat := port * 512 + vf

/-- An event of Table 15-4 on a slice: its TDI, in CONFIG_LOCKED or RUN, goes to ERROR, and the slice is reset (R374). -/
def State.tdiEvent (s : State) (slice : Nat) : State :=
  let k := tdiKey (s.getF .SLC_HOST_PORT slice) (s.getF .SLC_HOST_VF slice)
  match (if s.bitF .SLC_HOST_BOUND slice then s.sec.tdis.find k else none) with
  | some t =>
    if t.state = .locked ∨ t.state = .run then
      (({ s with sec := { s.sec with tdis := s.sec.tdis.put k { t with state := .error } } }).secErr 4).sliceReset slice
    else s
  | none => s

/-- R337: SLC_CTRL.RESET is written. A locked TDI of the slice goes to ERROR (Table 15-4). -/
def execSlcReset (slice : Nat) (s : State) : Result := .next ((s.tdiEvent slice).sliceReset slice)

/-- The slice that a virtual function is bound to. -/
def State.sliceOfVf (s : State) (port vf : Nat) : Option Nat :=
  (List.range 4096).find? (fun i => s.slcState i != 0 && s.bitF .SLC_HOST_BOUND i && s.getF .SLC_HOST_PORT i == port && s.getF .SLC_HOST_VF i == vf)

/-- R337: a function-level reset: the function's MSI-X state, and a slice reset of the slice that it is bound to. -/
def execFunctionLevelReset (port vf : Nat) (s : State) : Result :=
  let lo := msixKey port (some vf) 0
  let s := { s with mbx := { s.mbx with msix := s.mbx.msix.keep (fun k _ => decide (k < lo ∨ lo + 64 ≤ k)) } }
  match s.sliceOfVf port vf with
  | some slice => .next ((s.sliceReset slice).drawAts slice)
  | none => .next s

/-- R337, step 4: every holder has released: RESETTING clears and fetch resumes from each queue's HEAD. -/
def execSliceResetDone (slice : Nat) (s : State) : Result :=
  if s.bitF .SLC_STATE_RESETTING slice ∧ !s.sliceHeld slice then
    .next ((s.setF .SLC_STATE_RESETTING slice 0).each (s.sliceQueues slice) State.markReady)
  else .next s

/-! ### Resizing (R335) -/

/-- RESIZE_SLICE (R335), within what its commit reserved (R72). A locked TDI of the slice goes to ERROR (Table 15-4). -/
def State.resizeSlice (s : State) (i : Nat) (x : Item) (b : List Byte) : State :=
  let n := NewSlice.parse b
  match s.resizeBad b, x.takenOr (s.resizeTake b) with
  | some e, _ => s.finishItem i e.1 e.2 none 0
  | none, some _ => ((s.tdiEvent n.id).setQuotas n).finishOk i 0
  | none, none => s.badDesc i 8

/-- R335: RESIZE_SLICE; in a full configuration it completes ST_BAD_DESC, STATE, in every state. -/
def execResizeSlice (item : Nat) (reads : List Ext) (s : State) : Result :=
  match s.live item 0x81 with
  | some x =>
    if s.isFull then .next (s.badDesc item 8)
    else .next (s.withArgs item 64 x reads (fun b _ s => s.resizeSlice item x b))
  | none => .next s

/-! ### Freeze and thaw (R338, R343) -/

/-- The queues of a slice go to FROZEN with PRIOR saved (Table 4-12); what was fetched and not admitted is in the rings again (R73). -/
def State.freezeQueues (s : State) (slice : Nat) : State :=
  s.each (s.sliceQueues slice) (fun s q =>
    if s.qState q = 1 ∨ s.qState q = 2 then ((s.unfetch q).setF .QCX_STATE_PRIOR q (s.qState q)).setF .QCX_STATE_STATE q 3 else s)

/-- R338: FREEZE_SLICE is taken on a LIVE slice; it completes when the slice has drained (FREEZE_DRAIN_DONE). -/
def execFreezeSlice (item : Nat) (s : State) : Result :=
  match s.live item 0x82 with
  | some x =>
    let slice := x.inl % 4096
    if (s.sliceX slice).freezeItem = some item then .next s
    else if slice = 0 ∨ s.slcState slice ≠ 2 then .next (s.badDesc item 8)
    else
      let s := (((s.tdiEvent slice).setSlc slice 3).setF .SLC_STATE_FREEZE_DONE slice 0).freezeQueues slice
      .next (s.setSliceX slice { s.sliceX slice with freezeItem := some item })
  | none => .next s

/-- R338: the open items of a freezing slice have reached zero: FREEZE_DONE is set, and FREEZE_SLICE completes. -/
def execFreezeDrainDone (slice : Nat) (s : State) : Result :=
  match (s.sliceX slice).freezeItem with
  | some i =>
    if s.slcState slice = 3 ∧ s.openItems slice = [] ∧ !s.bitF .SLC_STATE_RESETTING slice then
      .next (((s.setF .SLC_STATE_FREEZE_DONE slice 1).setSliceX slice { s.sliceX slice with freezeItem := none }).finishOk i 0)
    else .next s
  | none => .next s

/-- The slice opens: FROZEN queues return to PRIOR, the meter is full and floor credits are zero after a freeze, and tails
recorded meanwhile are fetched (R332, R343). -/
def State.thaw (s : State) (slice : Nat) : State :=
  let s := if s.slcState slice = 3 then s.clearMeter slice else s
  let s := (s.setSlc slice 2).setF .SLC_STATE_FREEZE_DONE slice 0
  s.each (s.sliceQueues slice) (fun s q =>
    let s := if s.qState q = 3 then (s.setF .QCX_STATE_STATE q (s.getF .QCX_STATE_PRIOR q)).setF .QCX_STATE_PRIOR q 0 else s
    s.markReady q)

/-- R343: THAW of a BUILDING slice, or of a FROZEN one with FREEZE_DONE; it waits for a slice reset to end. -/
def execThaw (item : Nat) (s : State) : Result :=
  match s.live item 0x85 with
  | some x =>
    let slice := x.inl % 4096
    let st := s.slcState slice
    if slice = 0 ∨ !(st == 1 || (st == 3 && s.bitF .SLC_STATE_FREEZE_DONE slice)) then .next (s.badDesc item 8)
    else if s.bitF .SLC_STATE_RESETTING slice then .next s
    else .next ((s.thaw slice).finishOk item 0)
  | none => .next s

/-! ### Removal (R345–R348) -/

/-- Whether an enabled MEM_HDMd range uses a key slot. -/
def State.hdmUses (s : State) (key : Nat) : Bool := (List.range 8).any (fun d => s.bitF .MEM_HDM_CTRL_EN d && s.getF .MEM_HDM_CTRL_KEY d == key)

/-- The dirty log and the page mover stop if they serve a slice (R344). -/
def State.stopMover (s : State) (slice : Nat) : State :=
  let s := if s.bitF .SLC_DLOG_CTRL_EN 0 ∧ s.getF .SLC_DLOG_CTRL_SLICE 0 = slice then (s.setF .SLC_DLOG_CTRL_EN 0 0).setF .SLC_DLOG_CTRL_BUSY 0 0 else s
  if s.bitF .SLC_XFER_CTRL_BUSY 0 ∧ s.getF .SLC_XFER_CTRL_SLICE 0 = slice then
    ((s.setF .SLC_XFER_CTRL_BUSY 0 0).setF .SLC_XFER_CTRL_GO 0 0).setF .SLC_XFER_CTRL_ERR 0 1
  else s

/-- Byte ranges of this node that Pickle scrubs for a slice: its hot-tier frames and the KV pages that its sequences held; what its
translation context maps writable is added when the scrub starts (R348). -/
def State.seqPages (s : State) (slice : Nat) : List Nat :=
  (s.sliceSeqs slice ++ s.serve.closed.filter (fun kv => kv.1 / 65536 == slice)).flatMap (fun kv => kv.2.pages.map (fun p => s.kvBase kv.2.lcPool kv.2.sec + p * 65536))

/-- RETIRE_SLICE is taken (R345, step 1). -/
def State.retireSlice (s : State) (slice item : Nat) : State :=
  let x := s.sliceX slice
  let s := match x.freezeItem with
    | some i => s.finishItem i 0x0B 0 none 0
    | none => s
  let s := s.setSliceX slice { s.sliceX slice with freezeItem := none, retireItem := some item, heldPages := s.seqPages slice }
  let s := ((s.setSlc slice 4).setF .SLC_STATE_FREEZE_DONE slice 0).setF .SLC_STATE_RESETTING slice 0
  let s := s.each ((s.sliceQueues slice).filter (fun q => s.qState q != 4)) (fun s q => s.tombstone q none)
  let s := s.each ((s.work.casts.map (fun (kv : Nat × CastVer) => kv.1 / 4)).filter (fun c => s.bitF .CST_CAST_VALID c && s.getF .CST_CAST_OWNER c == slice)) State.supersede
  let s := ((s.closeSeqs slice).dropTags slice).stopMover slice
  (s.setKey (s.sliceKey slice) (fun k => { k with state := .draining })).setF .SLC_STATE_KEYST slice 2

/-- R345: RETIRE_SLICE; it completes when the key is zeroised (RETIRE_KEY_ZEROISE). -/
def execRetireSlice (item : Nat) (s : State) : Result :=
  match s.live item 0x86 with
  | some x =>
    let slice := x.inl % 4096
    let st := s.slcState slice
    if (s.sliceX slice).retireItem = some item then .next s
    else if slice = 0 ∨ st = 0 ∨ 4 ≤ st ∨ s.hdmUses (s.sliceKey slice) then .next (s.badDesc item 8)
    else .next ((s.tdiEvent slice).retireSlice slice item)
  | none => .next s

/-- Lines of this node that an on-block cache holds under a key slot. -/
def State.slotLines (s : State) (key : Nat) : List Nat :=
  let stored (l : Nat) : Bool := (match s.mem.dirty.find l with | some d => d.slot == key | none => (s.mem.lines.find l).any (fun (x : LineInfo) => x.slot == some key))
  ((s.mem.dirty.map (fun (kv : Nat × DirtyLine) => kv.1)) ++ s.coh.l0.map (fun (kv : Nat × LState) => kv.1 / 64) ++
    s.coh.l1.map (fun (kv : Nat × LState) => kv.1 / 8)).foldl (fun l n => if localLid n && stored n then addNew l n else l) []

/-- Step 3 of R345: every on-block cache writes back its dirty lines of a key slot and drops its clean ones. -/
def State.flushSlot (s : State) (key : Nat) : State :=
  s.each (s.slotLines key) (fun s l =>
    let s := s.writeBack (l * 64)
    let s := { s with
      coh := { s.coh with l0 := s.coh.l0.keep (fun k _ => k / 64 != l), l1 := s.coh.l1.keep (fun k _ => k / 8 != l) }
      mem := { s.mem with copies := s.mem.copies.del l } }
    s.updEnt l (fun e => (List.range 8).foldl (fun (e : DirEnt) k => e.del (.gateway k)) e))

/-- Messages of this block that name a key slot of its own, in egress queues or replay buffers (Table 13-7). -/
def State.slotFlits (s : State) (key : Nat) : Nat :=
  let mine (m : Msg) : Bool := m.key == key && m.srcNode == s.node && m.addr >>> 48 == s.node && msgCls m.kind != 5
  (s.fil.ports.map (fun (kv : Nat × Port) =>
    (kv.2.egress.filter (fun e => mine e.msg)).length + (kv.2.replay.filter (fun f => f.flit.msg.any mine)).length)).foldl (· + ·) 0

/-- References on a slice's key slot but for cached lines (Table 13-7). -/
def State.heldRefs (s : State) (slice : Nat) : Nat :=
  let key := s.sliceKey slice
  (s.sliceItems slice).length + (s.work.ops.filter (fun (kv : Nat × Op) => kv.2.slice == slice)).length + s.slotFlits key +
    (s.coh.txns.filter (fun (kv : Nat × Txn) => kv.2.req.key == key)).length +
    (if s.bitF .SLC_XFER_CTRL_BUSY 0 ∧ s.getF .SLC_XFER_CTRL_SLICE 0 = slice then 1 else 0)

/-- SLC_DRAIN.REFS. -/
def State.drainRefs (s : State) (slice : Nat) : Nat := s.heldRefs slice + (s.slotLines (s.sliceKey slice)).length

/-- The byte ranges that Pickle scrubs for a slice (R348): hot-tier frames, KV pages, and what its context maps writable. -/
def State.scrubRanges (s : State) (slice : Nat) : List (Nat × Nat) :=
  (List.range (s.getF .SLC_HOT_COUNT slice)).map (fun f => (directBase (s.getF .SLC_HOT_PART slice) + (s.getF .SLC_HOT_FIRST slice + f) * 0x200000, 0x200000)) ++
    (s.sliceX slice).heldPages.map (fun a => (a, 65536)) ++ s.writable slice

/-- 4 KiB pages of byte ranges. -/
def pagesIn (l : List (Nat × Nat)) : Nat := (l.map (fun r => r.2 / 4096)).foldl (· + ·) 0

/-- The one-time key of a slice's scrub job: drawn when the job starts, and the same until it ends (R376). -/
def State.oneTimeKey (s : State) (slice : Nat) : State :=
  if (s.slices.oneTime.find slice).isSome then s
  else
    let s := s.draw
    { s with slices := { s.slices with oneTime := s.slices.oneTime.put slice s.slices.drbg } }

/-- A scrub job ends: its key is zeroised (R376). -/
def State.dropOneTime (s : State) (slice : Nat) : State := { s with slices := { s.slices with oneTime := s.slices.oneTime.del slice } }

/-- Pickle takes the next slice that waits to be scrubbed, under a fresh one-time key (R376). -/
def State.pickleNext (s : State) : State :=
  match s.slices.scrub with
  | [] => (s.setF .SEC_PICKLE_BUSY 0 0).setF .SEC_PICKLE_SLICE 0 0
  | k :: _ => ((s.oneTimeKey k).setF .SEC_PICKLE_BUSY 0 1).setF .SEC_PICKLE_SLICE 0 k

/-- Every line of a range holds fresh ciphertext under a key that nobody has: it reads as bytes left open under every slot, and
no poison is left (R376). -/
def State.scrubRange (s : State) (off n : Nat) : State :=
  let out (l : Nat) : Bool := decide (l * 64 < off ∨ off + n ≤ l * 64)
  { s with mem := { s.mem with
    cells := s.mem.cells.filter (fun c => decide (c.1 < off ∨ off + n ≤ c.1)), lines := s.mem.lines.keep (fun l _ => out l),
    dirty := s.mem.dirty.keep (fun l _ => out l) } }

/-- Keep the ranges that a slice's scrub has still to write, and their pages in SLC_SCRUB. -/
def State.setScrub (s : State) (slice : Nat) (l : List (Nat × Nat)) : State :=
  let s := s.setF .SLC_SCRUB_PAGES slice (pagesIn l)
  { s with slices := { s.slices with
    scrubLeft := if l = [] then s.slices.scrubLeft.del slice else s.slices.scrubLeft.put slice l } }

/-- Scrub pages of 4 KiB from an offset on (R376), until one that the hold-up check does not cover, which stays unwritten (R243): how many
are left, and the state. -/
def State.scrubPages (s : State) : Nat → Nat → Nat × State
  | 0, _ => (0, s)
  | n + 1, off => match s.coverStore off 4096 with
    | some s => (s.scrubRange off 4096).scrubPages n (off + 4096)
    | none => (n + 1, s)

/-- Scrub ranges in order, until a page that waits for coverage (R243); the ranges left. -/
def State.scrubAll (s : State) : List (Nat × Nat) → List (Nat × Nat) × State
  | [] => ([], s)
  | r :: rest => match s.scrubPages (r.2 / 4096) r.1 with
    | (0, s) => s.scrubAll rest
    | (n, s) => ((r.1 + r.2 / 4096 * 4096 - n * 4096, n * 4096) :: rest, s)

/-- A slice's scrub goes on: whether every page is written. -/
def State.scrubOn (s : State) (slice : Nat) : Bool × State :=
  let (l, s) := s.scrubAll (s.slices.scrubLeft.findD slice [])
  (l = [], s.setScrub slice l)

/-- R345, step 4: every queue is FREE and no reference is left: the caches have written back, the key is zeroised, RETIRE_SLICE
completes and the slice is SCRUBBING. -/
def execRetireKeyZeroise (slice : Nat) (s : State) : Result :=
  if s.slcState slice = 4 ∧ s.sliceQueues slice = [] ∧ s.heldRefs slice = 0 then
    let key := s.sliceKey slice
    let s := s.flushSlot key
    let s := (s.setKey key (fun k => { k with zeroised := true, since := s.now })).setF .SLC_STATE_ZEROISED slice 1
    let s := (s.setSlc slice 5).setScrub slice (s.scrubRanges slice)
    let first := s.slices.scrub == []
    let s := { s with slices := { s.slices with scrub := s.slices.scrub ++ [slice] } }
    let s := if first then s.pickleNext else s
    match (s.sliceX slice).retireItem with
    | some i => .next ((s.setSliceX slice { s.sliceX slice with retireItem := none }).finishOk i 0)
    | none => .next s
  else .next s

/-- The fields of a slice's entry but for its key slot, which stays in quarantine (R347). -/
def slcFields : List Fld :=
  [.SLC_STATE_STATE, .SLC_STATE_RESETTING, .SLC_STATE_FREEZE_DONE, .SLC_PLACE_SECTIONS, .SLC_PLACE_BE_FLOOR, .SLC_PLACE_QUEUES, .SLC_LC_LO_SHARE0,
    .SLC_LC_LO_SHARE1, .SLC_LC_LO_SHARE2, .SLC_LC_LO_SHARE3, .SLC_LC_HI_SHARE4, .SLC_LC_HI_SHARE5, .SLC_LC_HI_SHARE6, .SLC_LC_HI_SHARE7, .SLC_PORTS,
    .SLC_MEMQ_MIB, .SLC_HOT_PART, .SLC_HOT_FIRST, .SLC_HOT_COUNT, .SLC_HOST_BOUND, .SLC_HOST_PORT, .SLC_HOST_VF, .SLC_NODE_NODE, .SLC_NODE_RKEY,
    .SLC_SCRUB_PAGES, .MEM_XCTX_CFG_ATS]

/-- A slice returns to EMPTY: its bindings and resources are released. -/
def State.emptySlice (s : State) (slice : Nat) : State :=
  let s := s.each slcFields (fun s f => s.setF f slice f.reset)
  { s with slices := { s.slices with ext := s.slices.ext.del slice } }

/-- R331: QUAR_MS after zeroisation the slot becomes FREE. -/
def execKeyQuarantineExpiry (slot : Nat) (s : State) : Result :=
  let k := s.keySlot slot
  let on : Bool := match s.recov.warm with | some w => decide (w.step = .reopened) | none => true
  if on ∧ k.state = .draining ∧ k.zeroised ∧ k.since + s.getF .SLC_CFG_QUAR_MS 0 * 1000000 ≤ s.now then
    let s := s.setKey slot (fun k => { k with state := .free, zeroised := false, since := s.now })
    let s := s.setF .SLC_CFG_FREE_KEYS 0 (s.getF .SLC_CFG_FREE_KEYS 0 + 1)
    .next (s.each ((List.range 4096).filter (fun i => s.getF .SLC_STATE_KEY i == slot && s.getF .SLC_STATE_KEYST i == 2)) (fun s i =>
      ((s.setF .SLC_STATE_KEYST i 0).setF .SLC_STATE_ZEROISED i 0).setF .SLC_STATE_KEY i 0))
  else .next s

/-! ### Dirty log and page mover (R340, R341) -/

/-- Lines of a range that a holder may have in E or M are snooped with SNP_SHR, with the exchanges within the block that this causes. -/
def State.downgradeAll (s : State) (off n key : Nat) : State := State.pump s.out.length (64 + n / 16) (s.downgrade off n key)

/-- EN is set: every home downgrades the exclusive holders in the range. -/
def State.dlogOn (s : State) : State :=
  if s.bitF .SLC_DLOG_CTRL_EN 0 then s
  else (({ s with slices := { s.slices with farLog := [] } }.setF .SLC_DLOG_CTRL_EN 0 1).setF .SLC_DLOG_CTRL_BUSY 0 1).downgradeAll (s.getF .SLC_DLOG_LO 0 * 4096) (s.getF .SLC_DLOG_PAGES 0 * 4096)
    (s.sliceKey (s.getF .SLC_DLOG_CTRL_SLICE 0))

/-- R340: the dirty log is enabled. -/
def execDirtyLogEnable (s : State) : Result := .next s.dlogOn

/-- R340: the walk of the homes has ended. -/
def execDirtyLogWalkDone (s : State) : Result :=
  .next (if s.bitF .SLC_DLOG_CTRL_BUSY 0 ∧ !s.coh.txns.any (fun (kv : Nat × Txn) => kv.2.kind == .snpShr) then s.setF .SLC_DLOG_CTRL_BUSY 0 0 else s)

/-- GO of the page mover; ignored while it is BUSY. -/
def State.moverGo (s : State) : State :=
  if s.bitF .SLC_XFER_CTRL_BUSY 0 then s
  else (((s.setF .SLC_XFER_CTRL_GO 0 1).setF .SLC_XFER_CTRL_BUSY 0 1).setF .SLC_XFER_CTRL_ERR 0 0).setF .SLC_XFER_DONE_PAGES 0 0

/-- R341: the page mover starts. -/
def execPageMoverGo (s : State) : Result := .next s.moverGo

/-- Node offset of a page of the mover's range. -/
def State.moverPage (s : State) (i : Nat) : Nat := (s.getF .SLC_XFER_SRC_OFFSET 0 + i) * 4096

/-- Whether the mover copies a page: every page in MODE 0, pages whose bit is set in MODE 1. -/
def State.moverTakes (s : State) (off : Nat) : Bool :=
  !s.bitF .SLC_XFER_CTRL_MODE 0 || (s.logged off && (s.mapByte (s.logBit off).1).1.any (fun x => x.testBit (s.logBit off).2))

/-- Whether a page lies in the range of the dirty log while it runs. -/
def State.moverLogs (s : State) (off : Nat) : Bool := s.bitF .SLC_DLOG_CTRL_EN 0 && s.logged off

/-- The target of a page, when it is memory of this node. -/
def State.moverHere (s : State) (i : Nat) : Option Nat :=
  let dst := s.getF .SLC_XFER_DST_ADDR 0 * 4096 + i * 4096
  if dst >>> 48 = s.node then some (dst % 2 ^ 48) else none

/-- Pages of the range that the mover has to copy. -/
def State.moverPages (s : State) (n : Nat) : List Nat := (List.range n).filter (fun i => s.moverTakes (s.moverPage i))

/-- Lines that the mover must be given first, as holders outside the block may have changed them (R341). -/
def State.moverNeeds (s : State) (n : Nat) : List Nat := (s.moverPages n).flatMap (fun i => s.needs moverTag (s.moverPage i) 4096)

/-- Lines of this node that holders outside the block must give up before the mover writes them (R281). -/
def State.moverHolds (s : State) (n : Nat) : List Nat := (s.moverPages n).flatMap (fun i => ((s.moverHere i).map (fun d => s.outsideHeld d 4096)).getD [])

/-- The mover asks for lines with RD_CUR, and for those in the log's range with SNP_SHR; it asks once, and again when a retry is due (R340,
R341). -/
def State.moverAsk (s : State) (l : List Nat) : State :=
  let key := s.sliceKey (s.getF .SLC_XFER_CTRL_SLICE 0)
  let logged := l.filter (fun x => s.moverLogs (x * 64))
  let n := s.out.length
  let s := s.each (logged.filter (fun x => (s.coh.curs.find (curKey moverTag x)).isNone)) (fun s x =>
    { s with coh := { s.coh with curs := s.coh.curs.put (curKey moverTag x) ⟨0, 0, none⟩ } }.addShr x
      { s.mkMsg .snpShr s.node (s.gaddr (x * 64)) with src := .uncached 0, key := key, txn := 2 ^ 16 + moverTag })
  (State.pump n (64 + 16 * logged.length) s.homes).askLines .rdCur moverTag 0 key (l.filter (fun x => !logged.contains x))

/-- A line goes to the target with WR_FULL under KEY, poisoned if it read so: to memory of this node, or over Filigree. `none`: the target
is no memory that takes it, or no port leads there. -/
def State.moverLine (s : State) (off dst : Nat) : Option State :=
  let (v, s) := s.readMixed moverTag off 64 (s.sliceKey (s.getF .SLC_XFER_CTRL_SLICE 0))
  let (b, p) := match v with | .bytes b => (b, false) | .poison => (List.replicate 64 0, true)
  let key := s.getF .SLC_XFER_CTRL_KEY 0
  let target := dst % 2 ^ 48
  if dst >>> 48 = s.node then
    if !s.inPool target || s.holeLost target then none
    else (s.coverStore target 64).map (fun s => ((s.storeLine target key b p).takeLines target 64).dlogRange target 64 key)
  else s.send? (s.getF .SLC_XFER_CTRL_SLICE 0) { s.mkMsg .wrFull (dst >>> 48) dst with src := .node s.node, key := key, data := b, poison := p }

/-- So many lines of a page from an offset on, until one is refused; whether all were taken. -/
def State.moverLines (s : State) : Nat → Nat → Nat → Bool × State
  | 0, _, _ => (true, s)
  | n + 1, off, dst => match s.moverLine off dst with
    | some s => s.moverLines n (off + 64) (dst + 64)
    | none => (false, s)

/-- Copy a page: in MODE 1 its bit is cleared first; a page in the log's range is snooped with SNP_SHR. Whether the target took it. -/
def State.moverCopy (s : State) (i : Nat) : Bool × State :=
  let off := s.moverPage i
  if !s.moverTakes off then (true, s)
  else
    let s := if s.bitF .SLC_XFER_CTRL_MODE 0 then s.setLogBit off false else s
    let s := if s.moverLogs off then s.downgradeAll off 4096 (s.sliceKey (s.getF .SLC_XFER_CTRL_SLICE 0)) else s
    match s.moverLines 64 off (s.getF .SLC_XFER_DST_ADDR 0 * 4096 + i * 4096) with
    | (true, s) => (true, s.setF .SLC_XFER_DONE_PAGES 0 (s.getF .SLC_XFER_DONE_PAGES 0 + 1))
    | r => r

/-- So many pages of the range from a page on, until one is refused; whether all were taken. -/
def State.moverRun (s : State) : Nat → Nat → Bool × State
  | 0, _ => (true, s)
  | n + 1, i => match s.moverCopy i with
    | (true, s) => s.moverRun n (i + 1)
    | r => r

/-- The mover has stopped. -/
def State.moverOver (s : State) (err : Bool) : State :=
  (((s.dropCurs moverTag).setF .SLC_XFER_CTRL_BUSY 0 0).setF .SLC_XFER_CTRL_GO 0 0).setF .SLC_XFER_CTRL_ERR 0 (if err then 1 else 0)

/-- R341: the mover has finished its range; a refusal of the target stops it with ERR, after a number of pages that is open. While lines that
it reads or writes are with holders outside the block it has not finished: it asks for them. -/
def execPageMoverDone (answer : Ext) (s : State) : Result :=
  if !s.bitF .SLC_XFER_CTRL_BUSY 0 then .next s
  else
    let n := s.getF .SLC_XFER_LEN_PAGES 0
    let ask (n : Nat) : Option State :=
      if s.moverNeeds n = [] ∧ s.moverHolds n = [] then none else some ((s.moverAsk (s.moverNeeds n)).askLines .wrFull 0 0 0 (s.moverHolds n))
    match answer with
    | .ok _ => match ask n with
      | some s => .next s
      | none =>
        let (all, s) := s.moverRun n 0
        .next (s.moverOver !all)
    | _ =>
      let (w, s') := s.freeWord
      match ask (w.toNat % (n + 1)) with
      | some s => .next s
      | none => .next ((s'.moverRun (w.toNat % (n + 1)) 0).2.moverOver true)

end Sys2Proof.Machine
end

