-- ==== Sys2Proof/Machine/Ingot.lean ====
section
/-!
DEFINITION. Ingots (R339, R342): SAVE_INGOT and RESTORE_INGOT. The clear part of an ingot is laid out as Table 13-5 says; where the
table names the contents of a record but not their places, the places are the model's (DESIGN CHOICE, log entry 50).
-/

namespace Sys2Proof.Machine

/-! ### Pairings (R372) -/

/-- The ACTIVE pairing with a node, if any. -/
def State.pairingWith (s : State) (node : Nat) : Option Pairing :=
  match (List.range 4).find? (fun n => s.getF .SEC_MIG_CTRL_STATE n == 2 && (s.sec.pairings.find n).any (fun (p : Pairing) => p.node == node)) with
  | some n => s.sec.pairings.find n
  | none => none

/-! ### Records (Table 13-5) -/

/-- The resources of a slice that its record reports, and its meter's parameters (Table 13-1). -/
def recordFields : List Fld :=
  [.SLC_PLACE_SECTIONS, .SLC_PLACE_BE_FLOOR, .SLC_PLACE_QUEUES, .SLC_LC_LO_SHARE0, .SLC_LC_LO_SHARE1, .SLC_LC_LO_SHARE2, .SLC_LC_LO_SHARE3,
    .SLC_LC_HI_SHARE4, .SLC_LC_HI_SHARE5, .SLC_LC_HI_SHARE6, .SLC_LC_HI_SHARE7, .SLC_MEMQ_MIB, .SLC_HOT_PART, .SLC_HOT_FIRST, .SLC_HOT_COUNT,
    .SLC_HOST_BOUND, .SLC_HOST_PORT, .SLC_HOST_VF, .SLC_NODE_NODE, .SLC_NODE_RKEY, .FIL_SLC_RATE_CIR, .FIL_SLC_RATE_PIR, .FIL_SLC_CBS, .FIL_SLC_PBS,
    .FIL_SLC_SHAPE_QUANTUM, .SRV_SLC_CFG_COLD_LIMIT, .SRV_SLC_CFG_BE_WEIGHT, .SRV_SLC_CFG_SEQ_QUOTA, .SLC_STATE_KEY, .MEM_XCTX_ROOT_EN,
    .MEM_XCTX_CFG_PASID, .MEM_XCTX_CFG_ATS, .MEM_XCTX_CFG_PORT]

/-- A bucket level as 8 bytes of two's complement. -/
def levelBytes (v : Int) : List Byte := bytesLE 8 (v % 2 ^ 64).toNat

/-- The level that 8 bytes spell. -/
def levelOf (b : List Byte) (o : Nat) : Int :=
  let n := fieldLE b o 8
  if n < 2 ^ 63 then n else (n : Int) - 2 ^ 64

/-- The 256 bytes of a slice record: the resources, the link share, the root of the translation context, the bucket levels and the counters. -/
def State.sliceRecord (s : State) (slice : Nat) : List Byte :=
  let b := s.bucketNow slice
  fit 256 (recordFields.flatMap (fun f => bytesLE 4 (s.getF f slice)) ++ bytesLE 8 (s.getF .SLC_PORTS slice) ++
    bytesLE 8 (s.getF .MEM_XCTX_ROOT_ROOT slice) ++ levelBytes b.tc ++ levelBytes b.tp ++
    acctFields.flatMap (fun f => bytesLE 4 (s.getF f slice)))

/-- Offset of the bucket levels in a slice record. -/
def recLevels : Nat := 4 * recordFields.length + 16

/-- The 256 bytes of a queue record: the fields of the context, then its counts. -/
def State.queueRecord (s : State) (q : Nat) : List Byte :=
  fit 256 (qcxFields.flatMap (fun f => bytesLE 8 (s.getF f q)) ++ (List.range 5).flatMap (fun n => bytesLE 4 (s.getF .QCX_CNT_COUNT (q * 5 + n))))

/-- The 64 bytes of a sequence record; `dir` is the address of its page directory. -/
def State.seqRecord (s : State) (key : Nat) (x : Seq) (dir : Nat) : List Byte :=
  fit 64 (bytesLE 2 (key % 65536) ++ bytesLE 2 x.model ++ bytesLE 4 x.kvLen ++ bytesLE 1 x.sec ++ bytesLE 1 x.poisoned.toNat ++ bytesLE 1 x.lcPool.toNat ++
    bytesLE 1 (s.getF .SRV_MDL_KV_LAYERS x.model) ++ bytesLE 2 (s.getF .SRV_MDL_KV_KV_TOK x.model) ++ bytesLE 2 x.pages.length ++ bytesLE 8 dir)

/-- The records of sequences; the spec gives their page directories no places, so the addresses are free values (log entry 50). -/
def State.seqRecords (s : State) : List (Nat × Seq) → List Byte × State
  | [] => ([], s)
  | (key, x) :: rest =>
    let (w, s) := s.freeWord
    let b := s.seqRecord key x w.toNat
    let (l, s) := s.seqRecords rest
    (b ++ l, s)

/-- The release that this block states (Table 0-1): 3.2.0. -/
def releaseWord : Nat := 3 * 2 ^ 24 + 2 * 2 ^ 16

/-- Bytes of an ingot with so many queues and sequences. -/
def ingotLen (queues seqs : Nat) : Nat := 256 + 256 + 256 * queues + 64 * seqs + 112

/-- The clear part of an ingot. -/
def State.ingotHead (s : State) (slice target len nq ns : Nat) (nonce : List Byte) : List Byte :=
  fit 256 (bytesLE 4 0x54474E49 ++ bytesLE 2 1 ++ bytesLE 2 target ++ bytesLE 4 len ++ bytesLE 2 s.node ++ bytesLE 2 slice ++ bytesLE 4 releaseWord ++
    bytesLE 1 nq ++ bytesLE 1 0 ++ bytesLE 2 ns ++ nonce)

/-- Label of the migration key: ingot (R372). -/
def ingotLabel : List Byte := [0x69, 0x6E, 0x67, 0x6F, 0x74]

/-- The migration key of a pairing (R372). -/
def Pairing.key (p : Pairing) : List Byte := Config.hkdfExpand (Config.exportSecret p.draw) ingotLabel 32

/-- The ingot of its clear part and its records: these under the pairing's key, the tag, and the device key's signature over all of it before
(Table 13-5). -/
def ingotBytes (p : Pairing) (nonce head plain : List Byte) : List Byte :=
  let body := head ++ fit (plain.length + 16) (Config.aeadSeal p.key nonce head plain)
  body ++ fit 96 (Config.deviceSign body)

/-! ### SAVE_INGOT (R339) -/

/-- Write the ingot of a slice; lines that holders outside the block have are taken from them first (R281), and the item goes on after. -/
def State.writeIngot (s : State) (i slice target dst room : Nat) (p : Pairing) : State :=
  let qs := s.sliceQueues slice
  let seqs := s.sliceSeqs slice
  let len := ingotLen qs.length seqs.length
  if room < len then s.badDesc i 5
  else match s.heldPages 0 ⟨0, none, false⟩ (len / 4096 + 2) dst len with
  | (l@(_ :: _), s) => s.takeFrom l
  | ([], s) =>
    let (nonce, s) := s.draw.freeBytes 12
    let (recs, s) := s.seqRecords seqs
    let plain := s.sliceRecord slice ++ qs.flatMap s.queueRecord ++ recs
    let bytes := ingotBytes p nonce (s.ingotHead slice target len qs.length seqs.length nonce) plain
    let (ok, s) := s.rangeOk 0 ⟨0, none, false⟩ true (fun t => match t with | .pool _ | .fail _ => true | _ => false) dst len
    if !ok then s.badDesc i 5
    else match s.writeBytes 0 ⟨0, none, false⟩ (some i) dst bytes with
    | (.xlate r, s) => s.finishItem i 8 r none 0
    | (.uncovered a, s) => s.holdupOverrun i a
    | (.hole, s) => s.finishItem i 4 0 none 0
    | (.done, s) => s.finishOk i (BitVec.ofNat 64 len)

/-- SAVE_INGOT in the order of R339. -/
def State.saveIngot (s : State) (i : Nat) (b : List Byte) : State :=
  let slice := fieldLE b 0 2
  let target := fieldLE b 2 2
  let dst := fieldLE b 8 8
  if 4096 ≤ slice ∨ dst % 64 ≠ 0 ∨ !zeroAt b 4 4 ∨ !zeroAt b 0x14 12 then s.badDesc i 5
  else if slice = 0 ∨ s.slcState slice ≠ 3 ∨ !s.bitF .SLC_STATE_FREEZE_DONE slice then s.badDesc i 8
  else match s.pairingWith target with
    | none => s.badDesc i 5
    | some p => (s.tdiEvent slice).writeIngot i slice target dst (fieldLE b 0x10 4) p

/-- R339: SAVE_INGOT. -/
def execSaveIngot (item : Nat) (reads : List Ext) (s : State) : Result :=
  match s.live item 0x83 with
  | some x => .next (s.withArgs item 32 x reads (fun b _ s => s.saveIngot item b))
  | none => .next s

/-! ### RESTORE_INGOT (R342) -/

/-- A queue record with the QueueID of its slot. -/
structure QueueRec where
  id : Nat
  bytes : List Byte
deriving DecidableEq, Repr

/-- Value of a context field in a queue record. -/
def QueueRec.field (r : QueueRec) (f : Fld) : Nat := fieldLE r.bytes (8 * qcxFields.idxOf f) 8

/-- A sequence record, and the contents of its pages as copied (R342, step 4). -/
structure SeqRec where
  id : Nat
  model : Nat
  kvLen : Nat
  poisoned : Bool
  lc : Bool
  layers : Nat
  tok : Nat
  pages : List (List Byte)
deriving DecidableEq, Repr

/-- Read a sequence record. -/
def SeqRec.parse (b : List Byte) (o : Nat) : SeqRec :=
  ⟨fieldLE b o 2, fieldLE b (o + 2) 2, fieldLE b (o + 4) 4, fieldLE b (o + 9) 1 == 1, fieldLE b (o + 10) 1 == 1, fieldLE b (o + 11) 1,
    fieldLE b (o + 12) 2, []⟩

/-- Copy the pages of a sequence from the source: a poisoned page leaves the sequence POISONED (Table 8-4), a refused one ends the copy. -/
def fetchPages : Nat → SeqRec → List Ext → Except Ext (SeqRec × List Ext)
  | 0, r, rs => .ok (r, rs)
  | n + 1, r, rs =>
    match headExt rs with
    | .ok b => fetchPages n { r with pages := r.pages ++ [fit 65536 b] } rs.tail
    | .poison => fetchPages n { r with pages := r.pages ++ [List.replicate 65536 0], poisoned := true } rs.tail
    | e => .error e

/-- Copy the pages of every sequence from the source over Filigree, in record order. -/
def State.copySeqs (s : State) : List SeqRec → List Ext → Except Ext (List SeqRec)
  | [], _ => .ok []
  | r :: t, rs =>
    match fetchPages (s.kvNeed r.model 0 r.kvLen) r rs with
    | .error e => .error e
    | .ok (r, rs) => match s.copySeqs t rs with
      | .error e => .error e
      | .ok l => .ok (r :: l)

/-- Whether a recorded sequence's model is VALID with equal LAYERS and KV_TOK (step 2). -/
def State.seqModelOk (s : State) (r : SeqRec) : Bool :=
  decide (r.model < 1024) && s.modelValid r.model && s.getF .SRV_MDL_KV_LAYERS r.model == r.layers && s.getF .SRV_MDL_KV_KV_TOK r.model == r.tok

/-- Why the copy of a restore stops: a durable page that the item has not reserved (R243). -/
inductive RestoreStop where
  | uncovered (addr : Nat)
deriving DecidableEq, Repr

/-- Write the copied contents of KV pages, each under its offset, out of an item's reservation. -/
def State.restorePages (s : State) (i : Nat) : List (Nat × List Byte) → Except RestoreStop State
  | [] => .ok s
  | (off, b) :: rest => match s.takeDurable (some i) off b.length with
    | none => .error (.uncovered (s.gaddr off))
    | some s => (s.writeHome off 0 b).restorePages i rest

/-- Place a sequence under R223 and reserve its pages; `none`: they fall short. -/
def State.placeRecord (s : State) (slice : Nat) (r : SeqRec) : Option State :=
  let n := s.kvNeed r.model 0 r.kvLen
  let secs := if s.modelState r.model = 0 then (match s.window r.model with | some w => s.planSecs r.model (some w) | none => s.modelSecs r.model)
    else s.modelSecs r.model
  if s.getF .SLC_MEMQ_MIB slice < s.kvMib slice n then none
  else match s.placeSeq r.model secs (if r.lc then .lc else .be) with
    | none => none
    | some (k, lc) => (s.kvTake lc k n).map (fun pages =>
        { s with serve := { s.serve with seqs := s.serve.seqs.put (seqKeyOf slice r.id) ⟨r.model, k, lc, r.kvLen, pages, r.poisoned, false⟩ } })

/-- Place every sequence, or none. -/
def State.placeRecords (s : State) (slice : Nat) : List SeqRec → Option State
  | [] => some s
  | r :: t => (s.placeRecord slice r).bind (fun s => s.placeRecords slice t)

/-- Fill the pages of a sequence that has its place with what was copied. -/
def State.fillRecord (s : State) (i slice : Nat) (r : SeqRec) : Except RestoreStop State :=
  let k := seqKeyOf slice r.id
  match s.serve.seqs.find k with
  | none => .ok s
  | some x =>
    let s := { s with serve := { s.serve with seqs := s.serve.seqs.put k { x with poisoned := r.poisoned } } }
    s.restorePages i ((x.pages.zip r.pages).map (fun p => (s.kvBase x.lcPool x.sec + p.1 * 65536, p.2)))

/-- Fill the pages of every sequence. -/
def State.fillRecords (s : State) (i slice : Nat) : List SeqRec → Except RestoreStop State
  | [] => .ok s
  | r :: t => match s.fillRecord i slice r with
    | .error e => .error e
    | .ok s => s.fillRecords i slice t

/-- Fill a queue context from its record (step 3): a host port is the target slice's, and the core is bound anew (R159). -/
def State.restoreQueue (s : State) (slice : Nat) (r : QueueRec) : State :=
  let q := r.id
  let s := ((s.clearQueue q).freshVector q).setQx q QueueX.fresh
  let s := s.each qcxFields (fun s f => s.setF f q (r.field f))
  let s := s.each (List.range 5) (fun s n => s.setF .QCX_CNT_COUNT (q * 5 + n) (fieldLE r.bytes (8 * qcxFields.length + 4 * n) 4))
  let s := (s.setF .QCX_STATE_STATE q 3).setF .QCX_OWNER_SLICE q slice
  let s := if r.field .QCX_OWNER_PORT < 8 then
      (s.setF .QCX_OWNER_PORT q (s.getF .SLC_HOST_PORT slice)).setF .QCX_OWNER_VF q (s.getF .SLC_HOST_VF slice)
    else s
  let n := s.entries q
  let open_ := (s.getF .QCX_CQ_PTRS_TAIL q + n - s.getF .QCX_CQ_PTRS_HEAD q) % n
  let (core, lost) := match s.rebindCore slice (r.field .QCX_CFG_LC_OK == 1) with | some c => (c, false) | none => (0, true)
  let s := s.setF .QCX_BIND_CORE q core
  s.setQx q { s.qx q with unfreed := open_, unbound := lost }

/-- Load the meter and the counters of a slice record (step 5). -/
def State.restoreMeter (s : State) (slice : Nat) (b : List Byte) : State :=
  let s := { s with slices := { s.slices with buckets := s.slices.buckets.put slice ⟨levelOf b recLevels, levelOf b (recLevels + 8), s.now⟩ } }
  s.each (acctFields.zip (List.range acctFields.length)) (fun s p => s.setF p.1 slice (fieldLE b (recLevels + 16 + 4 * p.2) 4))

/-- An ingot as read. -/
structure Ingot where
  src : Nat
  rec_ : List Byte
  queues : List QueueRec
  seqs : List SeqRec
deriving DecidableEq, Repr

/-- Read an ingot's clear part and, under the pairing's key, its records. -/
def parseIngot (b : List Byte) (p : Pairing) (qmap : Nat → Nat) : Ingot :=
  let nq := fieldLE b 0x14 1
  let ns := fieldLE b 0x16 2
  let plain := fit (256 + 256 * nq + 64 * ns) (Config.aeadOpen p.key ((b.drop 0x18).take 12) ((b.drop 256).take (256 + 256 * nq + 64 * ns)))
  let qr (i : Nat) : QueueRec := ⟨0, (plain.drop (256 + 256 * i)).take 256⟩
  ⟨fieldLE b 0x0C 2, plain.take 256, (List.range nq).map (fun i => { qr i with id := qmap ((qr i).field .QCX_OWNER_SLOT) }),
    (List.range ns).map (fun i => SeqRec.parse plain (256 + 256 * nq + 64 * i))⟩

/-- Step 1 of R342, but for the cryptographic checks. -/
def State.ingotOk (s : State) (b : List Byte) : Bool :=
  let nq := fieldLE b 0x14 1
  fieldLE b 0 4 == 0x54474E49 && fieldLE b 4 2 == 1 && fieldLE b 6 2 == s.node && fieldLE b 0x10 4 / 2 ^ 16 == releaseWord / 2 ^ 16 &&
    decide (nq ≤ 64) && fieldLE b 0x15 1 == 0 && fieldLE b 8 4 == ingotLen nq (fieldLE b 0x16 2) && fieldLE b 8 4 == b.length && zeroAt b 0x24 220

/-- Step 2 of R342: the slice, the QueueIDs and the models of an ingot. -/
def State.targetOk (s : State) (slice : Nat) (g : Ingot) : Bool :=
  s.slcState slice == 1 && s.sliceQueues slice == [] && (s.sliceSeqs slice).isEmpty &&
    decide (g.queues.map (fun r => r.id)).Nodup && g.queues.all (fun r => decide (0 < r.id ∧ r.id < 16384) && s.qState r.id == 0) && g.seqs.all s.seqModelOk

/-- RESTORE_INGOT with its ingot and its map of slots read (R342): SIGNATURE must be good under the leaf key of the pairing with the source, and TAG
under its key. Pages are reserved for every sequence before the first is copied. -/
def State.restoreIngot (s : State) (i slice : Nat) (b : List Byte) (qmap : Nat → Nat) (rs : List Ext) (check : CryptoCheck) : State :=
  match s.pairingWith (fieldLE b 0x0C 2) with
  | none => s.badDesc i 5
  | some p =>
    if !s.ingotOk b || check.leaf != p.leaf || !check.sigOk then (s.secErr 5).badDesc i 5
    else
      let g := parseIngot b p qmap
      if !s.targetOk slice g then s.badDesc i 8
      else match s.placeRecords slice g.seqs with
        | none => s.finishItem i 1 6 none 0
        | some placed => match s.copySeqs g.seqs rs with
          | .error e => s.readFailed i (extRead 65536 e)
          | .ok seqs => match placed.fillRecords i slice seqs with
          | .error (.uncovered a) => s.holdupOverrun i a
          | .ok s =>
            let s := (s.each g.queues (fun s r => s.restoreQueue slice r)).restoreMeter slice g.rec_
            ((s.setSlc slice 3).setF .SLC_STATE_FREEZE_DONE slice 1).finishOk i (BitVec.ofNat 64 seqs.length)

/-- The argument block of RESTORE_INGOT, the ingot and the map of slots. -/
def State.restoreArgs (s : State) (i : Nat) (b : List Byte) (rs : List Ext) (check : CryptoCheck) : State :=
  let slice := fieldLE b 0 2
  let len := fieldLE b 0x10 4
  if 4096 ≤ slice ∨ !zeroAt b 2 6 ∨ !zeroAt b 0x14 4 ∨ len < ingotLen 0 0 ∨ 0x1000000 < len then s.badDesc i 5
  else if slice = 0 then s.badDesc i 8
  else match s.readGuest 0 ⟨0, none, false⟩ (fieldLE b 8 8) len rs with
    | (.bytes g, rs, s) => match s.readGuest 0 ⟨0, none, false⟩ (fieldLE b 0x18 8) 128 rs with
      | (.bytes q, rs, s) => s.restoreIngot i slice g (fun slot => fieldLE q (2 * slot) 2) rs check
      | (r, _, s) => s.readFailed i r
    | (r, _, s) => s.readFailed i r

/-- R342: RESTORE_INGOT. -/
def execRestoreIngot (item : Nat) (reads : List Ext) (check : CryptoCheck) (s : State) : Result :=
  match s.live item 0x84 with
  | some x => .next (s.withArgs item 32 x reads (fun b rs s => s.restoreArgs item b rs check))
  | none => .next s

end Sys2Proof.Machine
end

