-- ==== Sys2Proof/Machine/Temper.lean ====
section
/-!
DEFINITION. Temper (chapter 09) with its inputs: telemetry records (R43, R44), burnish readings (R58–R60), the voltage handshake
(R45, R46), windows, Quench, durable regions, cleaning and the flush over PST (R47, R48), TREF (R51, R52), and the core leaving reset.
-/

namespace Sys2Proof.Machine

/-! ### Commitments and states -/

/-- A temperature byte as a signed number of °C. -/
def signed8 (b : Nat) : Int := if b % 256 < 128 then (b % 256 : Nat) else ((b % 256 : Nat) : Int) - 256
/-- A signed number of °C as a field of 8 bits. -/
def byteOf (i : Int) : Nat := (i % 256).toNat

/-- Enter 2 QUENCH_PARTIAL, 3 QUENCH_FULL or 4 FLUSH of TMP_STATUS.STATE, or leave them with 0. -/
def State.setTmp (s : State) (v : Nat) : State := s.setF .TMP_STATUS_STATE 0 v
/-- Withdraw every grant; what a section owes stays to lower its next one (R233, R236, R239). -/
def State.withdrawGrants (s : State) : State :=
  { s with temper := { s.temper with grants := s.temper.grants.keep (fun _ g => decide (g < 0)) } }

/-- S_min: the smallest S_adm among open items, or 1.75 (R235). -/
def State.sMin (s : State) : Nat := (s.itemsWhere (fun (x : Item) => !x.step)).foldl (fun m (kv : Nat × Item) => min m kv.2.sAdm) 1792

/-! ### The voltage handshake (R45, R46) -/

/-- Whether a handshake has not ended. -/
def State.vidBusy (s : State) : Bool := s.edge.pins.vidReq || s.edge.pins.vidAck

/-- Request a code: the code is set and VID_REQ raised (R45). -/
def State.requestCode (s : State) (code : Nat) : State :=
  { s with edge := { s.edge with
    pins := { s.edge.pins with vidReq := true, vidCode := code }, vidFrom := some (s.getF .TMP_STATUS_CODE 0), vidAt := s.now, vidLate := false } }

/-- R45: the regulator's output is at its target: the code is acknowledged and VID_REQ lowered. -/
def execVidAckRise (s : State) : Result :=
  if s.edge.pins.vidReq ∧ !s.edge.pins.vidAck then
    let s := s.setF .TMP_STATUS_CODE 0 s.edge.pins.vidCode
    .next { s with edge := { s.edge with pins := { s.edge.pins with vidReq := false, vidAck := true }, vidFrom := none } }
  else .next s

/-- R45: the regulator lowers VID_ACK, and another request may be made. -/
def execVidAckFall (s : State) : Result :=
  if s.edge.pins.vidAck ∧ !s.edge.pins.vidReq then .next { s with edge := { s.edge with pins := { s.edge.pins with vidAck := false } } }
  else .next s

/-- R46: VID_ACK has not risen 250 µs after VID_REQ: a record naming VID, once a request; it stays raised. -/
def execVidAckLate (s : State) : Result :=
  if s.edge.pins.vidReq ∧ !s.edge.pins.vidAck ∧ !s.edge.vidLate ∧ s.edge.vidAt + 250000 ≤ s.now then
    let s := s.fault { FaultRec.blank 0x1B 0 11 with aux0 := s.edge.pins.vidCode }
    let s := s.bumpF .TMP_VID_VID_FAULTS 0
    .next { s with edge := { s.edge with vidLate := true } }
  else .next s

/-! ### Burnish (R58–R61, R235, R236) -/

/-- Number of a monitor: area × 8 and its number. -/
def monitorOf (area j : Nat) : Nat := area * 8 + j
/-- Monitors of an area: 8 of a section, 4 of the edge (R58, PRM_MONk). -/
def monitorsOf (area : Nat) : Nat := if area = 8 then 4 else 8

/-- A monitor outside 0.50–2.50 is marked bad with a record (R59). -/
def State.checkMonitor (s : State) (area j v : Nat) : State :=
  if s.temper.badMon.contains (monitorOf area j) ∨ (512 ≤ v ∧ v ≤ 2560) then s
  else
    let s := s.fault { FaultRec.blank 0x1D 0 0 with unit := area, aux0 := v, aux1 := j }
    let s := s.setBit .PRM_MON_MON_OK area j false
    { s with temper := { s.temper with badMon := s.temper.badMon ++ [monitorOf area j] } }

/-- The contribution of an area: the largest value of its good monitors, or 1.75 when fewer than half are good (R59). -/
def State.areaReading (s : State) (area : Nat) (vs : List Nat) : Nat :=
  let good := (List.range (monitorsOf area)).filter (fun j => !s.temper.badMon.contains (monitorOf area j))
  if good.length < monitorsOf area / 2 then 1792 else good.foldl (fun m j => max m (vs.getD j 0)) 0

/-- Record a reading (R60): the history of 64, S_max64 with its area, and S_g. -/
def State.takeReading (s : State) (values : List (List Nat)) : State :=
  let s := s.each (List.range 9) (fun s k => s.each (List.range (monitorsOf k)) (fun s j =>
    match (values.getD k []).drop j with | v :: _ => s.checkMonitor k j v | [] => s))
  let areas := (List.range 9).map (fun k => s.areaReading k (values.getD k []))
  let s := s.each areas.zipIdx (fun s p => s.setF .PRM_MON_S_AREA p.2 p.1)
  let top := areas.zipIdx.foldl (fun (b : Nat × Nat) p => if b.1 < p.1 then p else b) (0, 0)
  let hist := (s.temper.history ++ [top]).drop ((s.temper.history.length + 1) - 64)
  let best := hist.foldl (fun (b : Nat × Nat) p => if b.1 < p.1 then p else b) (0, 0)
  let s := { s with temper := { s.temper with history := hist } }
  let s := ((s.setF .PRM_BURNISH_S_LAST 0 top.1).setF .PRM_BURNISH_S_MAX64 0 best.1).setF .PRM_BURNISH_MAX_SRC 0 best.2
  let n := min 64 (s.getF .PRM_STATUS_READINGS 0 + 1)
  let s := (s.setF .PRM_STATUS_READINGS 0 n).setF .PRM_STATUS_SG_WARM 0 (b2n (n == 64))
  s.setF .PRM_STATUS_S_G 0 (if n = 64 then min 1792 (ceilDiv (11 * best.1) 10) else 1792)

/-- What Temper does with a reading (R235, R236): the next code up above S_min ÷ 1.05; at code 46 above S_min, a record, no
grants, and BE held. -/
def State.afterReading (s : State) (r : Nat) : State :=
  let smin := s.sMin
  let code := s.getF .TMP_STATUS_CODE 0
  let s := if smin * 100 < r * 105 ∧ code < 46 ∧ !s.vidBusy then s.requestCode (code + 1) else s
  if code = 46 ∧ smin < r then
    let s := if s.temper.holdBe then s else s.fault { FaultRec.blank 0x15 0 11 with aux0 := r }
    { s.withdrawGrants with temper := { s.withdrawGrants.temper with holdBe := true } }
  else { s with temper := { s.temper with holdBe := false } }

/-- R58: every 2 µs the monitors give a reading, while TREF runs and the core is out of reset. -/
def execBurnishReading (values : List (List Nat)) (s : State) : Result :=
  if !s.coreOn || s.edge.trefLostAt.isSome then .next s
  else
    let s := s.takeReading values
    .next (s.afterReading (s.getF .PRM_BURNISH_S_LAST 0))

/-! ### PST (R47, R48, R245, R246) -/

/-- Durable pages in a state. -/
def State.durPages (s : State) (p : DurPage → Bool) : List Nat := (s.temper.dur.filter (fun (kv : Nat × DurPage) => p kv.2)).map (·.1)
/-- Dirty pages. -/
def State.durDirty (s : State) : List Nat := s.durPages (fun d => d == DurPage.dirty)

/-- Dirty pages of the enabled regions in region order, then address order (R246), with their region and offset in it. -/
def State.sendOrder (s : State) : List (Nat × Nat × Nat) :=
  (List.range 64).flatMap (fun n =>
    (s.durDirty.filter (fun p => s.durRegion (p * 4096) == some n)).map (fun p =>
      (p, n, s.node * 2 ^ 48 + p * 4096 - s.getF .TMP_DUR_BASE n * 0x200000)))

/-- The number of the epoch of the last OPEN. -/
def State.pstEpoch (s : State) : Nat := s.getF .TMP_FLUSH_EPOCH 0

/-- A PST packet (Table 2-7): its header, whose CRC-32C is taken over the header with a CRC of zero, and the payload (DESIGN CHOICE,
log entry 48). -/
def pstPacket (kind epoch seq region len offset : Nat) (payload : List Byte) : Out :=
  let head := bytesLE 1 kind ++ bytesLE 1 0 ++ bytesLE 2 epoch ++ bytesLE 4 seq ++ bytesLE 2 region ++ bytesLE 2 len ++ bytesLE 4 0 ++ bytesLE 8 offset
  let crc := crc32c (head ++ List.replicate 8 0 ++ payload)
  .pst (head ++ bytesLE 4 crc ++ bytesLE 4 0) payload

/-- The lines of a page as they are held in the stack, under their memory encryption (R48). Memory is first made to hold what a cache of
the block holds dirty of them (R271); what an owner outside has, CLEAN_LINE has made it hold before. -/
def State.pageCipher (s : State) (page : Nat) : List Byte × State :=
  (List.range 64).foldl (fun (r : List Byte × State) i =>
    let l := page * 64 + i
    let s := r.2.writeBack (l * 64)
    let info := s.mem.lines.findD l LineInfo.fresh
    let b := Config.memCipher info.draw (l * 64) (cellsGet s.mem.cells (l * 64) 64)
    (r.1 ++ (b ++ List.replicate 64 0).take 64, s)) ([], s)

/-- Open an epoch (R48). -/
def State.pstOpen (s : State) (e : Epoch) : State :=
  let n := (s.pstEpoch + 1) % 2 ^ 16
  let s := (s.setF .TMP_FLUSH_EPOCH 0 n).setF .TMP_FLUSH_STATE 0 (if e = .flushing then 2 else 1)
  ({ s with edge := { s.edge with pst := { s.edge.pst with epoch := e, seq := 0, committed := false } } }).emit (pstPacket 1 n 0 0 0 0 [])

/-- COMMIT the open epoch with the number of its DATA packets (R48). -/
def State.pstCommit (s : State) : State :=
  ({ s with edge := { s.edge with pst := { s.edge.pst with committed := true } } }).emit (pstPacket 3 s.pstEpoch s.edge.pst.seq 0 0 0 [])

/-- Send one page of 4 KiB as a DATA packet against one credit (R47); the page is in flight. -/
def State.pstData (s : State) (p : Nat × Nat × Nat) : State :=
  let e := s.pstEpoch
  let st := if s.edge.pst.epoch = .flushing then DurPage.flushing e else DurPage.inflight e
  let q := s.edge.pst
  let (b, s) := s.pageCipher p.1
  ({ s with
    edge := { s.edge with pst := { q with seq := q.seq + 1, credit := q.credit - 1 } }
    temper := { s.temper with dur := s.temper.dur.put p.1 st } }).emit (pstPacket 2 e q.seq p.2.1 64 p.2.2 b)

/-- Whether cleaning goes on below its thresholds: a short coverage or a waiting scrub asks for it (R243, R244). -/
def State.cleanUrgent (s : State) : Bool :=
  decide (s.coverage < s.temper.dur.length) ||
    (decide (s.coverage ≤ s.dirtyCount) && (s.slices.scrub ≠ [] || s.slices.recScrub ≠ []))

/-- Whether input holds, as far as the last valid record tells: no full Quench is in force, and INPUT_LOST is clear (R245). -/
def State.inputHolds (s : State) : Bool := decide (s.tmpState < 3) && s.edge.tlm.all (fun r => !r.inputLost)

/-- Whether a clean epoch opens now (R245): above HI, or above LO once cleaning, with input held. -/
def State.cleanDue (s : State) : Bool :=
  let d := s.durDirty.length * 64
  let c := s.coverage
  s.coreOn && s.inputHolds && s.durDirty != [] && (s.cleanUrgent || (s.bitF .TMP_CLEAN_EN 0 &&
    (decide (s.getF .TMP_CLEAN_HI 0 * c < d) || (s.getF .TMP_FLUSH_STATE 0 == 1 && decide (s.getF .TMP_CLEAN_LO 0 * c ≤ d)))))

/-- Open a clean epoch that is due (R244, R245); a closed channel opens none (Table 2-11). -/
def State.cleanStart (s : State) : State := if s.pstUp ∧ s.edge.pst.epoch = .none ∧ s.cleanDue then s.pstOpen .cleaning else s

/-- Whether a clean epoch has carried enough: the dirty pages left are below LO, or credit has run out with some sent. -/
def State.cleanEnough (s : State) : Bool :=
  s.durDirty == [] || (!s.cleanUrgent && decide (s.durDirty.length * 64 < s.getF .TMP_CLEAN_LO 0 * s.coverage)) ||
    (s.edge.pst.credit == 0 && decide (0 < s.edge.pst.seq))

/-- Send pages of a list while there is credit; a clean epoch stops when it has carried enough. A page with lines that an owner outside the
block may have changed goes out once CLEAN_LINE has completed for them (R271). -/
def State.pstSend (s : State) : List (Nat × Nat × Nat) → State
  | [] => s
  | p :: rest =>
    if s.edge.pst.credit = 0 ∨ (s.edge.pst.epoch = .cleaning ∧ 0 < s.edge.pst.seq ∧ s.cleanEnough) then s
    else match s.needs pstTag (p.1 * 4096) 4096 with
      | [] => ((s.pstData p).dropCurs pstTag).pstSend rest
      | l => s.askLines .cleanLine pstTag 0 0 l

/-- Step 1 of R239: a Quench is declared: admission closes, grants are withdrawn, source TEMPER is set, and it is counted. -/
def State.declareQuench (s : State) (full : Bool) (watts : Nat) : State :=
  let s := (s.setTmp (if full then 3 else 2)).withdrawGrants.cicAll 1
  let s := { s with temper := { s.temper with admitShut := true, quenchW := watts } }
  (s.bumpF .TMP_QUENCH_COUNT 0).setF .TMP_FLUSH_STATE 0 (if full ∧ s.getF .TMP_FLUSH_STATE 0 = 3 then 0 else s.getF .TMP_FLUSH_STATE 0)

/-- A full Quench ends with a record that shows INPUT_LOST clear (R238): with ASSURED_DROP and less assured than is committed it is
followed by a partial one, which ends at once: the full Quench has left no item to shed. -/
def State.quenchOver (s : State) (r : TlmRec) : State :=
  let s := if r.assuredDrop ∧ r.pAssured * 1000 < s.pCommit then s.declareQuench false r.pAssured else s
  { s.setTmp 0 with temper := { s.temper with admitShut := false } }

/-- The flush is over (R246): TMP_FLUSH reads DONE, and what was held for it goes on; admission reopens when a current record
shows INPUT_LOST clear. -/
def State.flushOver (s : State) : State :=
  let s := s.setF .TMP_FLUSH_STATE 0 3
  let s := { s with edge := { s.edge with pst := { s.edge.pst with epoch := .none } } }
  let s := if s.tmpState < 2 then s
    else match s.tlmNow.filter (fun r => !r.inputLost) with
      | some r => s.quenchOver r
      | none => s.setTmp 3
  s.warmRelease

/-- The dirty and in-flight pages beyond the coverage are at risk: the last that the flush sends (R246). -/
def State.riskBeyond (s : State) : State :=
  let l := s.sendOrder.map (fun p => p.1)
  let beyond := l.drop (l.length - (s.temper.dur.length - s.coverage))
  { s with temper := { s.temper with atRisk := beyond.foldl addNew s.temper.atRisk } }

/-- A full Quench's flush starts once its items have stopped: with no page dirty or in flight it ends at once, else a clean epoch
is committed and the flush epoch opens (R246). -/
def State.startFlush (s : State) : State :=
  let s := s.riskBeyond.setTmp 4
  if s.temper.dur = [] then s.flushOver
  else
    let s := if s.edge.pst.epoch = .cleaning ∧ !s.edge.pst.committed then s.pstCommit else s
    s.pstOpen .flushing

/-- The cause by which Quench ends items (R239). -/
def causePower : EndCause := ⟨0x0A, 0, true, none, some 2⟩

/-- Whether a Quench has chosen an item. -/
def Item.quenched (x : Item) : Bool := x.cause.any (fun c => c.status == 0x0A)

/-- Items that a Quench has chosen and that have not ended. -/
def State.shedding (s : State) : Bool := s.work.items.any (fun (kv : Nat × Item) => !kv.2.step && kv.2.quenched)

/-- Step 4 of R239: once the affected items have ended, admission reopens after a partial Quench, and the flush starts after a
full one, over an open channel (Table 2-11). -/
def State.quenchGoOn (s : State) : State :=
  if s.shedding then s
  else if s.tmpState = 2 then { s.setTmp 0 with temper := { s.temper with admitShut := false } }
  else if s.tmpState = 3 ∧ s.getF .TMP_FLUSH_STATE 0 ≠ 3 ∧ (s.pstUp ∨ s.temper.dur = []) then s.startFlush
  else s

/-- R48: the block opens an epoch that is due, sends its pages as credit allows, and commits it. -/
def execPstEpochSend (s : State) : Result :=
  let s := s.quenchGoOn.cleanStart
  if s.edge.pst.epoch = .none ∨ s.edge.pst.committed then .next s
  else
    let s := s.pstSend s.sendOrder
    let waits := s.edge.pst.epoch == .flushing && (s.durDirty != [] || (s.durPages (fun d => match d with | .inflight _ => true | _ => false)) != [])
    let open_ := s.edge.pst.epoch == .cleaning && !s.cleanEnough
    .next (if waits || open_ then s else s.pstCommit)

/-- R47: the store grants credits of 4 KiB, on an open channel (Table 2-11). -/
def execPstCredit (credits : Nat) (s : State) : Result :=
  .next (if !s.pstUp then s else { s with edge := { s.edge with pst := { s.edge.pst with credit := s.edge.pst.credit + credits } } })

/-- Whether an answer names the open epoch, committed. -/
def State.pstAnswers (s : State) (epoch : Nat) : Bool := s.edge.pst.committed && s.pstEpoch == epoch && s.edge.pst.epoch != .none

/-- The open epoch has ended: a flush is over; cleaning goes on with a next epoch, or stops below LO (R245). -/
def State.epochOver (s : State) : State :=
  if s.edge.pst.epoch = .flushing then s.flushOver
  else
    let s := { s with edge := { s.edge with pst := { s.edge.pst with epoch := .none } } }
    if s.cleanDue then s.cleanStart else s.setF .TMP_FLUSH_STATE 0 0

/-- R245: PERSISTED makes an epoch's in-flight pages clean, or ends the flush. A clean epoch that a flush followed is answered
while the flush runs. -/
def execPstPersisted (epoch : Nat) (s : State) : Result :=
  let mine (d : DurPage) : Bool := match d with | .inflight e => e == epoch | .flushing e => e == epoch | .dirty => false
  let before := s.edge.pst.epoch == .flushing && s.pstEpoch != epoch
  if s.pstAnswers epoch ∨ before then
    let s := { s with temper := { s.temper with
      dur := s.temper.dur.keep (fun _ d => !mine d), atRisk := s.temper.atRisk.filter (fun p => match s.temper.dur.find p with | some d => !mine d | none => true) } }
    .next (if before then s else s.epochOver)
  else .next s

/-- R245, Table 9-5: FAILED returns a clean epoch's pages to dirty; pages of a flush are at risk, with a record of the first of
them. -/
def execPstFailed (epoch : Nat) (s : State) : Result :=
  let mine (d : DurPage) : Bool := match d with | .inflight e => e == epoch | .flushing e => e == epoch | .dirty => false
  let before := s.edge.pst.epoch == .flushing && s.pstEpoch != epoch
  if s.pstAnswers epoch ∨ before then
    let s := s.bumpF .TMP_FLUSH_FAILED 0
    let lost := s.durPages (fun d => match d with | .flushing e => e == epoch | _ => false)
    let s := { s with temper := { s.temper with
      dur := s.temper.dur.mapVals (fun _ d => if mine d then DurPage.dirty else d), atRisk := lost.foldl addNew s.temper.atRisk } }
    let s := match lost with
      | p :: _ => s.fault { FaultRec.blank 0x1E 0 11 with addr := p * 4096, aux0 := epoch }
      | [] => s
    .next (if before then s else s.epochOver)
  else .next s

/-! ### Quench (R238–R240) -/

/-- Insert an item by acceptance, the latest first. -/
def insertLatest (x : Nat × Item) : List (Nat × Item) → List (Nat × Item)
  | [] => [x]
  | y :: t => if y.2.acceptAt < x.2.acceptAt ∨ (y.2.acceptAt = x.2.acceptAt ∧ y.1 < x.1) then x :: y :: t else y :: insertLatest x t

/-- The items that a partial Quench affects: from the front of a list until the committed power left is within the budget. -/
def shed (budget : Nat) : Nat → List (Nat × Item) → List Nat
  | _, [] => []
  | p, x :: t => if p ≤ budget then [] else x.1 :: shed budget (p - x.2.power) t

/-- Shed an item: it stops ST_POWER, its promise void; with nothing left to release it completes now (R239). -/
def State.shedItem (s : State) (i : Nat) : State :=
  let had := match s.item i with | some x => x.cause.isSome | none => true
  let s := s.stopItem i causePower
  let s := if had then s else s.bumpF .TMP_QUENCH_VOIDED 0
  if s.released i && !s.isRunning i then
    match (s.item i).bind (fun x => x.cause) with | some c => s.finishCause i c | none => s
  else s

/-- Running steps that no member is left in end with them. -/
def State.endEmptySteps (s : State) : State :=
  s.each (s.serve.chains.map (fun (kv : Nat × Chain) => kv.1)) (fun s m =>
    let c := s.chain m
    let gone := c.steps.filter (fun (st : Step) => st.started && st.members == [])
    if gone = [] then s
    else
      let s := s.each (s.itemsWhere (fun (x : Item) => x.step && x.model == some m)) (fun s kv => (s.cancelOps kv.1).dropItem kv.1)
      let s := s.setChain m { c with steps := c.steps.filter (fun (st : Step) => !(st.started && st.members == [])) }
      (s.each (gone.flatMap (fun st => st.dropped)) State.unreserve).closeMarked.freeClosed m)

/-- Quench to a new budget, in W (R239): admission closes, grants are withdrawn, source TEMPER is set, and the affected items are shed,
BE before LC, the latest acceptance first. What an earlier Quench chose counts as shed already. -/
def State.quench (s : State) (full : Bool) (watts : Nat) : State :=
  let s := s.declareQuench full watts
  let order (c : Cls) : List (Nat × Item) :=
    (s.itemsWhere (fun (x : Item) => !x.step && x.cls == c && !x.quenched)).foldl (fun l x => insertLatest x l) []
  let gone := (s.itemsWhere (fun (x : Item) => x.quenched)).foldl (fun a (kv : Nat × Item) => a + kv.2.power) 0
  let all := order .be ++ order .lc
  let chosen := if full then all.map (·.1) else shed (watts * 1000) (s.pCommit - gone) all
  ((s.each chosen State.shedItem).endEmptySteps).quenchGoOn

/-! ### Telemetry (R43, R44, R227–R232, R238, R244) -/

/-- A record's 48 bytes as fields (Table 2-6). -/
def parseTlm (b : List Byte) (now : Nat) : TlmRec :=
  { seq := fieldLE b 1 1, inputLost := (fieldLE b 2 2).testBit 0, assuredDrop := (fieldLE b 2 2).testBit 1, holdupValid := (fieldLE b 2 2).testBit 2,
    vin := fieldLE b 4 2, iin := fieldLE b 6 2, pAssured := fieldLE b 8 2, vBank := fieldLE b 0x0A 2, cBank := fieldLE b 0x0C 2,
    vFloor := fieldLE b 0x0E 2, derate := fieldLE b 0x10 2, flushCost := fieldLE b 0x12 2, msTemp := (List.range 20).map (fun i => fieldLE b (0x14 + i) 1),
    age := fieldLE b 0x28 2, arrived := now }

/-- Whether a record passes R44. -/
def State.tlmOk (s : State) (b : List Byte) : Bool :=
  b.length == 48 && fieldLE b 0 1 == 1 && fieldLE b 0x2C 4 == crc32c (b.take 0x2C) &&
    (match s.edge.tlm with | some r => fieldLE b 1 1 != r.seq | none => true)

/-- Since when no record has been current, when none is. -/
def State.staleSince (s : State) : Nat :=
  match s.edge.tlm with
  | some r => if s.getF .TMP_TLM_AGE_MAX 0 < r.age then r.arrived else r.arrived + s.getF .TMP_TLM_STALE_US 0 * 1000
  | none => s.edge.porAt

/-- Note when a stale spell began. -/
def State.noteStale (s : State) : State :=
  if s.stale ∧ s.temper.staleAt.isNone then { s with temper := { s.temper with staleAt := some s.staleSince, staleLogged := false } } else s

/-- E_usable in J, rounded down (R242). -/
def usableJ (r : TlmRec) : Nat := r.cBank * (r.vBank ^ 2 - r.vFloor ^ 2) * r.derate / 200000000000

/-- Set the coverage; a fall below the pages already dirty is recorded, and cleaning starts (R244). -/
def State.setCoverage (s : State) (c : Nat) : State :=
  let before := s.getF .TMP_DUR_COVER_PAGES 0
  let d := s.temper.dur.length
  let s := s.setF .TMP_DUR_COVER_PAGES 0 (min c (2 ^ 32 - 1))
  (if c < d ∧ d ≤ before then s.fault { FaultRec.blank 0x19 0 11 with aux0 := c, aux1 := d } else s).cleanStart

/-- A stack's temperature: the hotter of its own sensor as last read and its MS_TEMP in the last record, of those that there are (R263). -/
def State.stackTemp (s : State) (st : Nat) : Option Int :=
  let t := (s.edge.tlm.map (fun (r : TlmRec) => r.msTemp.getD st 0x80)).getD 0x80
  match s.temper.own[st]?, (if t = 0x80 then none else some (signed8 t)) with
  | some a, some b => some (max a b)
  | some a, none => some a
  | none, b => b

/-- The temperatures of all stacks. -/
def State.stackTempsNow (s : State) : List (Option Int) := (List.range s.nStacks).map s.stackTemp

/-- The stacks follow their temperatures (R263): the refresh rate, and a record where one that was not there `before` reaches 105 °C. -/
def State.stackTemps (s : State) (before : List (Option Int)) : State :=
  s.each (List.range s.nStacks) (fun s st =>
    match s.stackTemp st with
    | none => s
    | some c =>
      let s := s.setF .MEM_STK_STAT_REFRESH st (if c < 85 then 0 else if c < 95 then 1 else 2)
      if 105 ≤ c ∧ !((before.getD st none).any (fun w => decide (105 ≤ w))) then s.fault { FaultRec.blank 0x18 0 11 with aux0 := c.toNat, aux1 := st } else s)

/-- What Temper takes from a record while the core runs (Table 9-1, R232, R238, R242). -/
def State.useTlm (s : State) (before : List (Option Int)) (r : TlmRec) : State :=
  let s := s.stackTemps before
  if s.stale then (s.setCoverage 0)
  else
    let s := { s with temper := { s.temper with staleAt := none, staleLogged := false } }
    let fitted := r.msTemp.filter (· != 0x80)
    let hottest := fitted.foldl (fun (m : Int) t => max m (signed8 t)) (-128)
    let s := (s.setF .TMP_NODE_VIN 0 r.vin).setF .TMP_NODE_IIN 0 r.iin
    let s := s.setF .TMP_THERM_MS_MAX 0 (if fitted = [] then 0 else byteOf hottest)
    let s := (s.setF .TMP_HOLDUP_E_USABLE 0 (min (usableJ r) 65535)).setCoverage (s.coverOf r)
    let full := decide (3 ≤ s.tmpState)
    if r.inputLost then (if full then s else s.quench true 0)
    else if full then
      if s.getF .TMP_FLUSH_STATE 0 = 3 ∧ s.tmpState = 3 then s.quenchOver r else s
    else if r.assuredDrop ∧ r.pAssured * 1000 < s.pCommit then s.quench false r.pAssured
    else s

/-- R44: a record arrives in the edge domain: one that fails a check is discarded and counted, a valid one replaces the last. -/
def execTlmRecord (bytes : List Byte) (s : State) : Result :=
  if !s.edge.pins.porstN || !s.edge.pins.edgePwrOk then .next s
  else if !s.tlmOk bytes then .next (s.incF .TMP_TLM_DISCARDS 0)
  else
    let s := s.noteStale
    let before := s.stackTempsNow
    let r := parseTlm bytes s.now
    let s := { s with edge := { s.edge with tlm := some r } }
    .next (if s.coreOn then s.useTlm before r else s)

/-- R227: no record is current any more: Temper is stale. A Quench stays one. -/
def execTlmStale (s : State) : Result := .next (if s.stale then s.noteStale.withdrawGrants.setCoverage 0 else s)

/-- R227: a stale spell has lasted 1 ms: a record naming TLM, once a spell. -/
def execTlmStaleFault (s : State) : Result :=
  let s' := s.noteStale
  if s.stale ∧ !s'.temper.staleLogged ∧ s'.temper.staleAt.getD s.now + 1000000 ≤ s.now then
    .next ({ s' with temper := { s'.temper with staleLogged := true } } |>.fault (FaultRec.blank 0x1A 0 11))
  else .next s'

/-! ### Windows (R233–R237) -/

/-- Whether a section has a ready BE context that is not floor-due (R233). -/
def State.wantsGrant (s : State) (k : Nat) : Bool :=
  (coresOfSec k).any (fun c => (s.readyOn c).any (fun kv => kv.2.cls == Cls.be && !s.floorDue kv.2.slice k))

/-- Bars by junction temperature (Table 9-2, first row). -/
def State.barTj (s : State) (js : List Int) : List Nat :=
  let hot : Int := (s.getF .TMP_THERM_TJ_AHEAD 0 : Nat)
  (List.range 8).filter (fun k => match js[k]? with
    | some j => decide (hot ≤ j) || (s.temper.barredTj.contains k && decide (hot - 3 ≤ j))
    | none => s.temper.barredTj.contains k)

/-- Bars by stack temperature, of the home sections (Table 9-2, second row). -/
def State.barMs (s : State) : List Nat :=
  match s.tlmNow with
  | none => s.temper.barredMs
  | some r =>
    let hot : Int := (s.getF .TMP_THERM_MS_HOT 0 : Nat)
    let temps (k : Nat) : List Int := (((List.range s.nStacks).filter (fun st => secOfStack s.nStacks st == k)).filterMap (fun st =>
      match r.msTemp[st]? with | some 0x80 => none | some t => some (signed8 t) | none => none))
    (List.range 8).filter (fun k => (temps k).any (fun t => decide (hot ≤ t)) ||
      (s.temper.barredMs.contains k && (temps k).any (fun t => decide (hot - 3 ≤ t))))

/-- The ahead energy of a window in mW·ns (R233, R236). -/
def State.aheadEnergy (s : State) : Nat :=
  match s.tlmNow with
  | none => 0
  | some r =>
    let raised := (s.itemsWhere (fun (x : Item) => !x.step)).any (fun (kv : Nat × Item) => decide (kv.2.vCode < s.codeInForce))
    if s.tmpState ≠ 1 ∨ s.bitF .TMP_STATUS_THERMAL_HIGH 0 ∨ raised ∨ s.temper.holdBe then 0
    else (min (s.getF .TMP_LIMIT_LIMIT_W 0) (r.pAssured + s.getF .TMP_LIMIT_SURPLUS_W 0) * 1000 - s.pCommit) * 50000

/-- Divide a window's ahead energy equally among the sections that want it; debts are carried, what is left over is discarded
(R233, R234). -/
def State.grantWindow (s : State) : State :=
  let a := s.aheadEnergy
  let barred (k : Nat) : Bool := s.temper.barredTj.contains k || s.temper.barredMs.contains k
  let who := (List.range 8).filter (fun k => s.wantsGrant k && !barred k)
  let debt (k : Nat) : Int := min 0 (s.temper.grants.findD k 0)
  let share : Int := ((a / max 1 who.length : Nat) : Int)
  let grants := (List.range 8).foldl (fun (t : Tbl Int) k =>
    if who.contains k ∧ 0 < a then t.put k (share + debt k) else if debt k < 0 then t.put k (debt k) else t) []
  { s with temper := { s.temper with grants := grants } }

/-- Whether one code lower keeps the voltage-floor rule `n` codes down from now: 1.10 × S_max64 × (1 + DS ÷ 1024)ⁿ ≤ S_min ÷ 1.05
(R235). -/
def State.lowerOk (s : State) (n : Nat) : Bool :=
  decide (s.getF .PRM_BURNISH_S_MAX64 0 * (1024 + s.getF .TMP_VID_DS 0) ^ n * 11550 ≤ s.sMin * 1024 ^ n * 10000)

/-- Whether R235 lets the voltage be lowered at all. -/
def State.mayLower (s : State) : Bool :=
  !s.vidBusy && !s.stale && s.tmpState == 1 && s.bitF .PRM_STATUS_SG_WARM 0

/-- The lowest code that R235 would allow now (TMP_VID.FLOOR_CODE). -/
def State.floorCode (s : State) : Nat :=
  let code := s.getF .TMP_STATUS_CODE 0
  if s.mayLower then code - ((List.range code).takeWhile (fun n => s.lowerOk (n + 1))).length else code

/-- Lower the voltage by one code, at most once a window (R235). -/
def State.lower (s : State) : State :=
  let code := s.getF .TMP_STATUS_CODE 0
  if s.mayLower && s.lowerOk 1 && decide (0 < code) then s.requestCode (code - 1) else s

/-- R233, R235, R237, R263: at each 50 µs window the stacks follow their own sensors, and the thermal rules, the grants and the voltage-floor rule
are applied. -/
def execTemperWindow (temps : WindowTemps) (s : State) : Result :=
  if !s.coreOn then .next s
  else
    let junctions := temps.junctions
    let before := s.stackTempsNow
    let s := s.each (List.range (min s.nStacks temps.ownTemps.length)) (fun s st => s.emit (.wsp st false))
    let s := { s with temper := { s.temper with own := if temps.ownTemps = [] then s.temper.own else temps.ownTemps } }
    let s := s.stackTemps before
    let top := junctions.foldl max (-128)
    let s := if junctions = [] then s else s.setF .TMP_THERM_TJ_MAX 0 (byteOf top)
    let tj := s.barTj junctions
    let ms := s.barMs
    let s := if tj.all s.temper.barredTj.contains && ms.all s.temper.barredMs.contains then s else s.cicAll 1
    let s := { s with temper := { s.temper with barredTj := tj, barredMs := ms } }
    let high := s.bitF .TMP_STATUS_THERMAL_HIGH 0
    let s := if 110 ≤ top ∧ !high then ((s.setF .TMP_STATUS_THERMAL_HIGH 0 1).fault { FaultRec.blank 0x16 0 11 with aux0 := top.toNat }).cicAll 1
      else if high ∧ junctions ≠ [] ∧ top < 105 then s.setF .TMP_STATUS_THERMAL_HIGH 0 0 else s
    if 115 ≤ top then .next ((s.cicAll 1).warmTrigger 6 top.toNat)
    else
      let s := s.quenchGoOn.grantWindow.cleanStart
      let s := s.lower
      .next (s.each (List.range 64) State.dispatch)

/-! ### Durable regions (R241) -/

/-- Whether two ranges meet. -/
def overlap (a n b m : Nat) : Bool := decide (a < b + m ∧ b < a + n)

/-- The range of a durable region, as a global address and a length. -/
def State.durRange (s : State) (n : Nat) : Nat × Nat := (s.getF .TMP_DUR_BASE n * 0x200000, s.getF .TMP_DUR_SIZE_SIZE n * 0x200000)

/-- The range that a host port presents through CXL.mem, as a global address and a length. -/
def State.hdmRange (s : State) (d : Nat) : Nat × Nat := (s.gaddr (s.getF .MEM_HDM_BASE d * 2 ^ 28), s.getF .MEM_HDM_CTRL_SIZE d * 2 ^ 28)

/-- Whether a region keeps R241. -/
def State.durOk (s : State) (n : Nat) : Bool :=
  let (a, len) := s.durRange n
  decide (0 < len) && a / 2 ^ 48 == s.node && s.poolRange (a % 2 ^ 48) len &&
    (List.range 64).all (fun m => m == n || !s.bitF .TMP_DUR_SIZE_EN m || !overlap a len (s.durRange m).1 (s.durRange m).2) &&
    (List.range 8).all (fun d => !s.bitF .MEM_HDM_CTRL_EN d || !overlap a len (s.hdmRange d).1 (s.hdmRange d).2)

/-- Enable a durable region, or set DUR_ERR (R241). -/
def State.durEnable (s : State) (n : Nat) : State :=
  if s.bitF .TMP_DUR_SIZE_EN n then s
  else if s.durOk n then s.setF .TMP_DUR_SIZE_EN n 1
  else s.setF .TMP_STATUS_DUR_ERR 0 1

/-- R241: TMP_DURn_SIZE.EN is written 1. -/
def execTmpDurEnable (region : Nat) (s : State) : Result := .next (if region < 64 then s.durEnable region else s)

/-! ### TREF (R52) -/

/-- R52: no edge for 40 ns: TREF is lost, with a record naming it. -/
def execTrefLoss (s : State) : Result :=
  if s.edge.trefLostAt.isSome then .next s
  else
    let s := (s.fault (FaultRec.blank 0x1C 0 11)).setF .PRM_STATUS_TREF_LOST 0 1
    .next { s with edge := { s.edge with trefLostAt := some s.now } }

/-- R52: 1 ms of valid edges: TREF is restored; start stages were held meanwhile (R403). -/
def execTrefRestored (s : State) : Result :=
  match s.edge.trefLostAt with
  | some l =>
    let s := s.setF .PRM_STATUS_TREF_LOST 0 0
    let held := s.now - l
    let later (st : Stage) : Stage := { st with begunAt := st.begunAt + held, retryAt := st.retryAt.map (· + held) }
    .next { s with
      edge := { s.edge with trefLostAt := none, trefPast := s.edge.trefPast ++ [(l, s.now)] }
      recov := { s.recov with stages := s.recov.stages.mapVals (fun _ st => later st) } }
  | none => .next s

/-- R52: TREF lost beyond 10 s: the core takes a warm reset. -/
def execTrefLostTimeout (s : State) : Result :=
  match s.edge.trefLostAt with
  | some l => if l + 10000000000 < s.now then .next (s.warmTrigger 5 0) else .next s
  | none => .next s

/-! ### Leaving reset (R402) -/

/-- R402, Tables 2-8 and 16-8: the core leaves reset, with core and edge powered: a dump that had run to its end is COMPLETE,
c0 runs in Anvil mode, and the start stages begin again. The telemetry record that
the edge kept is judged and used as a new one (R228). -/
def execCoreLeavesReset (s : State) : Result :=
  let s := if s.recov.dump.isSome then s.endDump 1 else s
  let powered := s.edge.pins.porstN && s.edge.pins.corePwrOk && s.edge.pins.edgePwrOk
  let ready := match s.recov.warm with | some w => decide (w.step = .resetting) | none => true
  if s.edge.coreOut || !powered || !ready then .next s
  else
    let s := s.setF .BLK_STAGE_DONE 0 0
    let s := ((s.setF .BLK_IMG_CTRL_VALID 0 0).setF .BLK_IMG_CTRL_BUSY 0 0)
    let s := ((s.setF .BLK_IMG_VER_MAJOR 0 0).setF .BLK_IMG_VER_MINOR 0 0).setF .BLK_IMG_VER_PATCH 0 0
    let s := { s with
      edge := { s.edge with coreOut := true }
      recov := { s.recov with
        stages := [], image := none, warm := s.recov.warm.map (fun (w : WarmReset) => { w with step := .starting }) } }
    .next (match s.edge.tlm with | some r => s.useTlm s.stackTempsNow r | none => s)

end Sys2Proof.Machine
end

