-- ==== Sys2Proof/Machine/Memory.lean ====
section
/-!
DEFINITION. Pool memory's commands (chapter 10): the map lock, CXL.mem ranges, invalidations, stack training, patrol scrub,
sparing and holes.
-/

namespace Sys2Proof.Machine

/-! ### The map and CXL.mem ranges (R250, R251) -/

/-- Whether a lock of the map would take effect (R251). -/
def State.mapOk (s : State) : Bool :=
  let resv := s.getF .MEM_SPARE_RESV_MIB 0
  let q := s.getF .SRV_PART_LC_PC 0
  decide (resv ≠ 0 ∧ resv % 64 = 0 ∧ resv < s.edge.build.stackGib * 1024 ∧ q ≤ s.chans / 2 ∧
    s.getF .MEM_MAP_LOCAL_GIB 0 * 1024 ≤ (s.chans - q) * s.stackMib / s.chans)

/-- MEM_MAP.LOCK is set: the map takes effect until cold reset, or the lock is ignored (R250, R251). -/
def State.mapLock (s : State) : State :=
  if s.bitF .MEM_MAP_LOCK 0 ∨ !s.mapOk then s else (s.setF .MEM_MAP_LOCK 0 1).setF .MEM_STATUS_MAPPED 0 1

/-- R251: MEM_MAP.LOCK. -/
def execMemMapLock (s : State) : Result := .next s.mapLock

/-- Whether a CXL.mem range is clear of every enabled durable region (R241). -/
def State.hdmClear (s : State) (d : Nat) : Bool :=
  (List.range 64).all (fun m => !s.bitF .TMP_DUR_SIZE_EN m || !overlap (s.hdmRange d).1 (s.hdmRange d).2 (s.durRange m).1 (s.durRange m).2)

/-- MEM_HDMd_CTRL.EN is written 1: ignored for a range that is not wholly mapped; for one that overlaps an enabled durable
region ignored with DUR_ERR (R241). -/
def State.hdmEnable (s : State) (d : Nat) : State :=
  if s.bitF .MEM_HDM_CTRL_EN d then s
  else if !s.hdmClear d then s.setF .TMP_STATUS_DUR_ERR 0 1
  else if s.poolRange ((s.hdmRange d).1 % 2 ^ 48) (s.hdmRange d).2 then s.setF .MEM_HDM_CTRL_EN d 1
  else s

/-- R241: a CXL.mem range is enabled. -/
def execMemHdmEnable (die : Nat) (s : State) : Result := .next (if die < 8 then s.hdmEnable die else s)

/-! ### Invalidation (R257–R259) -/

/-- Drop TLB entries of slices that a test picks where they meet a range of guest-virtual pages. -/
def State.tlbDrop (s : State) (pick : TlbEnt → Bool) (page pages : Nat) : State :=
  { s with mem := { s.mem with tlb := s.mem.tlb.filter (fun t =>
    !(pick t && decide (page * 4096 < (t.page + 1) * 2 ^ t.bits) && decide (t.page * 2 ^ t.bits < (page + pages) * 4096))) } }

/-- Codebook slots that a change of a slice's translation context invalidates (R179). -/
def State.contextChanged (s : State) (slice : Nat) : State :=
  { s with work := { s.work with cb := (s.work.cb.keep (fun _ c => c.slice != slice || !c.heldBy.isEmpty)).mapVals (fun _ (c : CbSlot) =>
    if c.slice = slice then { c with stale := true } else c) } }

/-- GO of MEM_INV_CTRL: ignored while BUSY; a locked TDI of the slice goes to ERROR (Table 15-4). -/
def State.invGo (s : State) : State :=
  if s.bitF .MEM_INV_CTRL_BUSY 0 then s
  else
    let slice := s.getF .MEM_INV_CTRL_SLICE 0
    let s := ((s.tdiEvent slice).setF .MEM_INV_CTRL_GO 0 1).setF .MEM_INV_CTRL_BUSY 0 1
    let mine (t : TlbEnt) : Bool := t.slice == slice
    if s.bitF .MEM_INV_CTRL_ALL 0 then (s.tlbDrop mine 0 (2 ^ 36)).contextChanged slice
    else s.tlbDrop mine (s.getF .MEM_INV_VA 0) (s.getF .MEM_INV_CTRL_PAGES 0)

/-- R257: the manager starts an invalidation. -/
def execTlbInvalidate (s : State) : Result := .next s.invGo

/-- Whether an access of a slice that has been translated in the range of the invalidation waits to be performed (R259). -/
def State.invCrossed (s : State) : Bool :=
  s.work.cores.any (fun (kv : Nat × Core) => kv.2.access.any (fun a => a.slice == s.getF .MEM_INV_CTRL_SLICE 0 &&
    (s.bitF .MEM_INV_CTRL_ALL 0 || decide (s.getF .MEM_INV_VA 0 ≤ a.va / 4096 ∧ a.va / 4096 < s.getF .MEM_INV_VA 0 + s.getF .MEM_INV_CTRL_PAGES 0))))

/-- R257: every access that used a dropped entry is performed: BUSY clears. -/
def execTlbInvalidateDone (s : State) : Result :=
  .next (if s.bitF .MEM_INV_CTRL_BUSY 0 ∧ !s.invCrossed then (s.setF .MEM_INV_CTRL_BUSY 0 0).setF .MEM_INV_CTRL_GO 0 0 else s)

/-- R258: an ATS invalidation of a function, over its HOST entries. An access to host memory is performed within the command that makes it,
so the completion goes out at once. -/
def execAtsInvalidation (port vf page pages : Nat) (s : State) : Result :=
  let s := match s.sliceOfVf port vf with
    | some slice => s.tlbDrop (fun t => t.slice == slice && t.host) page pages
    | none => s
  .next (s.emit (.atsInvalidated port vf))

/-! ### Holes (R266) -/

/-- A stack's state beside its registers, before it has trained. -/
def StackX.fresh : StackX := ⟨0, 0, [], 0, [], [], []⟩

/-- A stack's state beside its registers; numbers from 32 on are the hot-tier parts (log entry 51). -/
def State.stackX (s : State) (st : Nat) : StackX := s.mem.stks.findD st StackX.fresh

/-- Change a stack's state. -/
def State.updStack (s : State) (st : Nat) (f : StackX → StackX) : State :=
  { s with mem := { s.mem with stks := s.mem.stks.put st (f (s.stackX st)) } }

/-- The slice whose key slot a stored line lies under, where one is known. -/
def State.sliceOfLine (s : State) (off : Nat) : Option Nat :=
  match s.mem.lines.find (off / 64) with
  | some x => match x.slot with
    | some k => if k = 0 then some 0 else (List.range 4096).find? (fun i => i != 0 && s.slcState i != 0 && s.getF .SLC_STATE_KEY i == k)
    | none => none
  | none => none

/-- A record about memory: it names the slice of the key slot, where one is known (R265). -/
def State.memFault (s : State) (reason off lines : Nat) : State :=
  let r := { FaultRec.blank reason 0 0 with addr := off, aux1 := lines }
  s.fault (match s.sliceOfLine off with | some k => { r with slice := k, domain := 6 } | none => r)

/-- Record a hole: it enters the log while the log has room, MEMORY is raised, and the first hole makes the block DEGRADED. -/
def State.addHole (s : State) (h : Hole) (off lines : Nat) : State :=
  let s := if 4096 ≤ s.mem.holes.length then s.bumpF .MEM_HOLE_SEL_DROPPED 0 else s
  let s := { s with mem := { s.mem with holes := s.mem.holes ++ [h] } }
  (((s.setF .MEM_STATUS_DEGRADED 0 1).memFault 0x13 off lines).managerCause 4).degrade

/-- Whether a pseudo-channel of a stack is retired (R267). -/
def State.channelGone (s : State) (st ch : Nat) : Bool :=
  s.mem.holes.any (fun h => h.channel && h.offset % 32 == st && bits h.offset 8 7 == ch)

/-- A lane that LREP cannot repair makes its pseudo-channel a hole, one entry for the whole of it; one that the map record already names
is a hole as before (R267). -/
def State.retireChannel (s : State) (st ch : Nat) : State :=
  if s.channelGone st ch then s else s.addHole ⟨false, false, false, true, ch * 256 + st⟩ 0 0

/-- Poison every line of a range, but for what caches hold of it. -/
def State.poisonRange (s : State) (off n : Nat) : State := s.each (List.range (n / 64)) (fun s i => s.poisonLine (off + 64 * i))

/-! ### Sparing (R265, Table 10-8) -/

/-- The number of a row of a stack: its channel, and its number in the channel. -/
def rowKey (ch row : Nat) : Nat := row * 128 + ch

/-- Whether a channel of a stack is one of the LC part's. -/
def State.lcChan (s : State) (ch : Nat) : Bool := decide (s.chans - s.lcChans ≤ ch)

/-- The offset of a granule by its place, where the map names it: the inverse of R252's decoding. -/
def State.offsetOf (s : State) (st row : Nat) : Option Nat :=
  let ch := row % 128
  let r := row / 128
  let shared := s.chans - s.lcChans
  let k := secOfStack s.nStacks st
  let h := homeStacks s.nStacks k
  let i := st - firstStack s.nStacks k
  let off :=
    if s.lcChan ch then lcBase k + ((r * s.lcChans + (ch - shared)) * h + i) * 4096
    else if r < s.globalMib * 256 / shared then ((r * shared + ch) * s.nStacks + st) * 4096
    else localBase k + (((r - s.globalMib * 256 / shared) * shared + ch) * h + i) * 4096
  if s.place off = some (st, ch, r) then some off else none

/-- KiB of a channel's share of the spare region, less the map record in channel 0 (R267). -/
def State.channelKib (s : State) (ch : Nat) : Nat := s.getF .MEM_SPARE_RESV_MIB 0 * 1024 / s.chans - (if ch = 0 then 64 else 0)

/-- KiB of a channel's share of the spare region in use. -/
def State.channelUsed (s : State) (st ch : Nat) : Nat :=
  let x := s.stackX st
  4 * (x.rows.filter (fun (r : Spared) => decide (2 ≤ r.rung) && r.chan == ch)).length +
    Config.bankKib * (x.banks.filter (fun b => b.1 == ch)).length

/-- KiB of a stack's spare region left (MEM_STK_RESV); none before the stack has trained, nor once it has failed (DEDUCED, log entry 119). -/
def State.spareKib (s : State) (st : Nat) : Nat :=
  if s.getF .MEM_STK_STAT_STATE st = 2 ∨ s.getF .MEM_STK_STAT_STATE st = 3 then
    s.getF .MEM_SPARE_RESV_MIB 0 * 1024 - 64 - ((List.range s.chans).map (s.channelUsed st)).foldl (· + ·) 0
  else 0

/-- A location fails: its row is being moved. -/
def State.startMove (s : State) (st row : Nat) : State := s.updStack st (fun x => { x with moves := addNew x.moves row })

/-- A corrected error in a row: the row fails at ROW_CE within one scrub period (R265). -/
def State.correctedAt (s : State) (st row : Nat) : State :=
  let x := s.stackX st
  let elapsed := decide (x.periodAt + s.getF .MEM_SCRUB_PERIOD_H 0 * 3600000000000 ≤ s.now)
  let ce : Tbl Nat := if elapsed then [] else x.rowCe
  let n := ce.findD row 0 + 1
  let s := s.updStack st (fun x => { x with rowCe := ce.put row n, periodAt := if elapsed then s.now else x.periodAt })
  if s.getF .MEM_SPARE_ROW_CE 0 ≤ n then s.startMove st row else s

/-- An uncorrectable error at an offset: the line is poison, a record names it, and its location fails. -/
def State.uncorrectableAt (s : State) (off : Nat) : State :=
  let s := s.memFault 0x0C off 0
  if (s.mem.dirty.find (off / 64)).isSome then s else s.poisonLine off

/-- The number by which the sparing of a hot-tier part is held beside that of the stacks. -/
def partUnit (k : Nat) : Nat := 32 + k

/-- R262: a patrol read of a line found it clean, corrected it, or found it uncorrectable. Lines of a moved hole are read where they lie. A
hole that is poisoned, and a retired channel or a failed stack, have none to read. -/
def execPatrolScrub (offset : Nat) (found : EccRead) (s : State) : Result :=
  let off := offset / 64 * 64
  if found = .clean ∨ s.holeLost off then .next s
  else match s.region off with
  | .direct k b =>
    .next (if found = .corrected then (s.bumpF .MEM_HT_ERR_CORRECTED k).correctedAt (partUnit k) (b / 4096)
      else ((s.bumpF .MEM_HT_ERR_UNCORRECTED k).uncorrectableAt off).startMove (partUnit k) (b / 4096))
  | _ =>
    match s.place off with
    | none => .next s
    | some (st, ch, r) =>
      .next (if found = .corrected then (s.bumpF .MEM_STK_ERR_CORRECTED st).correctedAt st (rowKey ch r)
        else ((s.bumpF .MEM_STK_ERR_UNCORRECTED st).uncorrectableAt off).startMove st (rowKey ch r))

/-- The bank of a row of a stack. -/
def bankOfRow (st row : Nat) : Nat := Config.bankOf st (row % 128) (row / 128)

/-- The rung on which a row of a stack was last moved; 0 for one where it was made. A row of a moved bank is on rung 2. -/
def State.rungOf (s : State) (st row : Nat) : Nat :=
  let x := s.stackX st
  (x.rows.filter (fun (r : Spared) => r.row == row)).foldl (fun n (r : Spared) => max n r.rung)
    (if x.banks.contains (row % 128, bankOfRow st row) then 2 else 0)

/-- Note on which rung a row has been moved. -/
def State.spare (s : State) (st row rung chan : Nat) : State :=
  s.updStack st (fun x => { x with rows := x.rows.filter (fun (r : Spared) => r.row != row) ++ [⟨row, rung, chan⟩] })

/-- Rung 3: a row is retired (R266). Its lines move to the spare region of a channel of its part that has room, or are poisoned; a row that the
map does not name holds none. -/
def State.retireRow (s : State) (st row : Nat) : State :=
  match s.offsetOf st row with
  | none => s.spare st row 3 128
  | some off =>
    match (List.range s.chans).find? (fun ch => s.lcChan ch == s.lcChan (row % 128) && decide (s.channelUsed st ch + 4 ≤ s.channelKib ch)) with
    | some ch => (s.spare st row 3 ch).addHole ⟨true, false, false, false, off⟩ off 0
    | none => ((s.spare st row 3 128).poisonRange off 4096).addHole ⟨false, false, false, false, off⟩ off 64

/-- Rung 2: a bank with BANK_ROWS spared rows moves to its channel's share of the spare region if it fits there; otherwise the row alone moves
there; with no room for it, it is retired (Table 10-8). -/
def State.spareBank (s : State) (st row : Nat) : State :=
  let ch := row % 128
  let mine (r : Spared) : Bool := r.row % 128 == ch && bankOfRow st r.row == bankOfRow st row
  let used := s.channelUsed st ch
  if s.getF .MEM_SPARE_BANK_ROWS 0 ≤ ((s.stackX st).rows.filter mine).length ∧ used + Config.bankKib ≤ s.channelKib ch then
    (s.updStack st (fun x => { x with rows := x.rows.filter (fun r => !mine r), banks := x.banks ++ [(ch, bankOfRow st row)] })).bumpF .MEM_STK_SPARE_BANKS st
  else if used + 4 ≤ s.channelKib ch then (s.spare st row 2 ch).bumpF .MEM_STK_SPARE_ROWS st
  else s.retireRow st row

/-- The move of a failing row of a stack is committed on the first rung of Table 10-8 that has room, after the rung that holds the row already
(Table 10-9). In a hole it has no effect. How many spare rows a bank has, which rows share a bank, and a bank's size are not the spec's (log
entry 51). -/
def State.commitMove (s : State) (st row : Nat) : State :=
  let same (r : Spared) : Bool := r.rung == 1 && r.row % 128 == row % 128 && bankOfRow st r.row == bankOfRow st row
  let n := s.rungOf st row
  if n = 0 ∧ ((s.stackX st).rows.filter same).length < Config.spareRows then (s.spare st row 1 128).bumpF .MEM_STK_SPARE_ROWS st
  else if n < 2 then s.spareBank st row
  else if n = 2 then s.retireRow st row
  else s

/-- The same in a hot-tier part: a spare row of the die, the part's spare rows for the whole frame, or retirement of the frame. -/
def State.commitPart (s : State) (k row : Nat) : State :=
  let u := partUnit k
  let f := row / 512
  let framed := (s.stackX u).rows.any (fun (r : Spared) => r.rung == 2 && r.row / 512 == f)
  if !framed ∧ s.rungOf u row = 0 ∧ ((s.stackX u).rows.filter (fun (r : Spared) => r.rung == 1)).length < Config.partRows then s.spare u row 1 128
  else if !framed ∧ 0 < s.getF .MEM_HT_STAT_SPARE_LEFT k then
    (s.spare u row 2 128).setF .MEM_HT_STAT_SPARE_LEFT k (s.getF .MEM_HT_STAT_SPARE_LEFT k - 1)
  else
    let off := directBase k + f * 0x200000
    if (s.holeAt off).isSome then s else (s.bumpF .MEM_HT_STAT_HOLES k).addHole ⟨false, true, false, false, off⟩ off 0x8000

/-- R265: the move of a row ends: `stack` names the stack, or from 32 on the hot-tier part, and `row` its row. The move of a row that needs the
spare region waits for the map, which gives that its size (log entry 51). -/
def execSpareMoveComplete (stack row : Nat) (s : State) : Result :=
  if (s.stackX stack).moves.contains row ∧ (s.mapped ∨ 32 ≤ stack) then
    let s := s.updStack stack (fun x => { x with moves := x.moves.filter (· != row), rowCe := x.rowCe.del row })
    .next (if 32 ≤ stack then s.commitPart (stack - 32) row else s.commitMove stack row)
  else .next s

/-! ### Training (R264, Table 10-7) -/

/-- Bound of a training step in ns: step 5 initialises a stack after a cold reset and reloads its map record after a warm one. -/
def trainBound (warm : Bool) : Nat → Nat
  | 1 => 50000000
  | 2 => 1500000000
  | 3 => 2000000000
  | 4 => 200000000
  | _ => if warm then 1000000 else 172000000

/-- A stack is FAILED: the whole of it is a hole (R264, R266). -/
def State.stackFailed (s : State) (st : Nat) : State :=
  let s := (s.setF .MEM_STK_STAT_STATE st 4).bumpF .MEM_STATUS_FAILED_STACKS 0
  s.addHole ⟨false, false, true, false, st⟩ 0 0

/-- What the controller drives for a training step: TRN_REQ with the step as its code, and in step 4 lane repair, whose assignment is the
stack's (a free value), and the reading of the stack's repair state (Table 10-7). -/
def State.driveStep (s : State) (st step : Nat) : State :=
  if step = 4 then
    let (code, s) := s.freeWord
    (s.emit (.lrep st (code.toNat % 65536))).emit (.wsp st true)
  else s.emit (.trnReq st step)

/-- A stack begins a step of its training. -/
def State.trainStep (s : State) (st step : Nat) : State :=
  ((s.setF .MEM_STK_STAT_LAST_STEP st step).updStack st (fun x => { x with fails := 0, stepAt := s.now })).driveStep st step

/-- Every stack that the build has and that has not failed begins to train, and the hot-tier parts are initialised (the MEMORY stage). -/
def State.trainStacks (s : State) : State :=
  (s.each (List.range 8) (fun s k => s.setF .MEM_HT_STAT_STATE k 1)).each (List.range s.nStacks) (fun s st =>
    if s.getF .MEM_STK_STAT_STATE st = 4 then s
    else ((s.setF .MEM_STK_STAT_STATE st 1).bumpF .MEM_STK_STAT_ATTEMPTS st).trainStep st 1)

/-- R264: a step of a stack's training ends: the next begins, the stack is ACTIVE after step 5, or after a third failure it is
FAILED. At the end of step 4 the pseudo-channels that bits of `stat.lost` name, each with a lane that LREP cannot repair, become holes (R267);
the rows that step 5 found failing begin to move (R265). -/
def execTrnDone (stack : Nat) (ok : Bool) (stat : TrnStat) (s : State) : Result :=
  if s.getF .MEM_STK_STAT_STATE stack ≠ 1 then .next s
  else
    let step := s.getF .MEM_STK_STAT_LAST_STEP stack
    if ok then
      let s := if step = 4 then s.each ((List.range s.chans).filter stat.lost.testBit) (fun s ch => s.retireChannel stack ch) else s
      .next (if 5 ≤ step then (s.each stat.failing (fun s row => s.startMove stack row)).setF .MEM_STK_STAT_STATE stack 2 else s.trainStep stack (step + 1))
    else
      let s := s.setF .MEM_STK_STAT_TRN_STAT stack stat.stat.toNat
      let n := (s.stackX stack).fails + 1
      let s := s.updStack stack (fun x => { x with fails := n })
      .next (if 3 ≤ n then s.stackFailed stack else s.driveStep stack step)

/-- R264: a step's bound has elapsed before the stack completed it. -/
def execStackTrainTimeout (stack : Nat) (s : State) : Result :=
  if s.getF .MEM_STK_STAT_STATE stack = 1 ∧
      (s.stackX stack).stepAt + trainBound s.recov.warm.isSome (s.getF .MEM_STK_STAT_LAST_STEP stack) ≤ s.now then .next (s.stackFailed stack)
  else .next s

/-! ### Scrubs (R348, R396) -/

/-- R348: Pickle has scrubbed every page of the slice whose turn it is: the slice is EMPTY, and manager cause SLICE is raised. At a page
that is not covered the scrub waits, and cleaning starts (R243, Table 15-5). -/
def execScrubComplete (slice : Nat) (s : State) : Result :=
  if s.slcState slice = 5 ∧ s.slices.scrub.head? = some slice then
    match s.scrubOn slice with
    | (false, s) => .next s.cleanStart
    | (true, s) =>
      let s := (s.emptySlice slice).dropOneTime slice
      .next ({ s with slices := { s.slices with scrub := s.slices.scrub.tail } }.pickleNext.managerCause 6)
  else .next s

end Sys2Proof.Machine
end

