-- ==== Sys2Proof/Machine/Spdm.lean ====
section
/-!
DEFINITION. SPDM messages (R365 to R367): their bytes, the two paths by which they travel, the connections and their transcripts, chunks, and what the
block asks as requester. Message and error codes and the layout of messages are SPDM's own (PRESUMED, log entry 60).
-/

namespace Sys2Proof.Machine

/-! ### Connections -/

/-- Whether a port carries SPDM: a host port whose link is up, a live Filigree port, or a peer of a migration session. -/
def State.spdmUp (s : State) : SpdmPort → Bool
  | .host d => s.edge.hostUp.contains d
  | .link p => s.portLive p
  | .peer _ => true

/-- Whether SPDM requests are answered Busy: from a warm-reset trigger until the core leaves reset (Table 16-7). -/
def State.spdmBusy (s : State) : Bool :=
  match s.recov.warm with
  | some w => w.step != .starting && w.step != .reopened
  | none => false

/-- Whether a port is one of Filigree, where sessions are mutually authenticated (Table 15-1). -/
def onFil : SpdmPort → Bool
  | .host _ => false
  | _ => true

/-- A port with no connection. -/
def Conn.fresh : Conn := ⟨.start, 0, [], [], []⟩

/-- A port's connection. -/
def State.conn (s : State) (p : SpdmPort) : Conn := ((s.sec.conns.find? (fun c => c.1 == p)).map (fun c => c.2)).getD Conn.fresh

/-- Keep a port's connection. -/
def State.setConn (s : State) (p : SpdmPort) (x : Conn) : State :=
  { s with sec := { s.sec with conns := (p, x) :: s.sec.conns.filter (fun c => c.1 != p) } }

/-- Where a connection stands. -/
def State.spdmPhase (s : State) (p : SpdmPort) : SpdmPhase := (s.conn p).phase

/-- What the block asks at a port. -/
def State.ask (s : State) (p : SpdmPort) : Ask := ((s.sec.asks.find? (fun c => c.1 == p)).map (fun c => c.2)).getD ⟨0, [], []⟩

/-- Keep what the block asks at a port. -/
def State.setAsk (s : State) (p : SpdmPort) (x : Ask) : State :=
  { s with sec := { s.sec with asks := (p, x) :: s.sec.asks.filter (fun c => c.1 != p) } }

/-! ### Messages and their paths (R367) -/

/-- The bytes of a message: the version, which is 1.0 in GET_VERSION and VERSION and 1.3 elsewhere, its code, two parameters, and its body. -/
def spdmBytes (code p1 p2 : Nat) (body : List Byte) : List Byte :=
  [if code = 0x84 ∨ code = 0x04 then 0x10 else 0x13, code, p1, p2].map (BitVec.ofNat 8) ++ body

/-- Bytes of a fragment. -/
def fragBytes : Nat := 64

/-- Send an SPDM_MSG: to the link's partner on its port, or to a peer by route. -/
def State.spdmOut (s : State) (p : SpdmPort) (m : Msg) : State :=
  match p with
  | .host _ => s
  | .link q => s.toPort q 0xFFF { m with dst := s.getF .FIL_PORT_STAT_PARTNER q }
  | .peer n => s.send { m with dst := n }

/-- Send so many fragments of a message from an index on, the last one marked. -/
def State.sendFrags (s : State) (p : SpdmPort) (txn : Nat) (resp : Bool) : Nat → Nat → List Byte → State
  | 0, _, _ => s
  | n + 1, i, b =>
    let part := b.take fragBytes
    let m := { s.mkMsg .spdmMsg 0 (i + b2n (n == 0) * 2 ^ 16 + b2n resp * 2 ^ 17) with txn := txn, aux := part.length, data := fit fragBytes part }
    (s.spdmOut p m).sendFrags p txn resp n (i + 1) (b.drop fragBytes)

/-- Send a message, as a Secured SPDM record within a session: through the DOE mailbox of a host port's PF0, or in fragments over Filigree. -/
def State.spdmSend (s : State) (p : SpdmPort) (resp : Bool) (txn : Nat) (within : Option SpdmSession) (msg : List Byte) : State :=
  let bytes := match within with | some x => Config.securedRecord x.draw x.keyGen msg | none => msg
  match p with
  | .host d => s.emit (.spdm d (if within.isSome then 2 else 1) bytes)
  | p => s.sendFrags p txn resp ((bytes.length + fragBytes - 1) / fragBytes) 0 bytes

/-- DataTransferSize of Table 15-1. -/
def transferSize : Nat := 4096

/-- Answer the request that stands at a port; an answer longer than DataTransferSize is kept for CHUNK_GET, and ERROR LargeResponse goes out. -/
def State.spdmAnswer (s : State) (p : SpdmPort) (within : Option SpdmSession) (msg : List Byte) : State :=
  let txn := (s.conn p).txn
  if msg.length ≤ transferSize then s.spdmSend p true txn within msg
  else { s with sec := { s.sec with chunks := (p, msg) :: s.sec.chunks.filter (fun c => c.1 != p) } }.spdmSend p true txn within (spdmBytes 0x7F 0x0F 0 [0])

/-- Answer with a message outside every session. -/
def State.spdmReply (s : State) (p : SpdmPort) (code p1 p2 : Nat) (body : List Byte) : State := s.spdmAnswer p none (spdmBytes code p1 p2 body)

/-- Answer ERROR with an error code. -/
def State.spdmError (s : State) (p : SpdmPort) (err : Nat) : State := s.spdmReply p 0x7F err 0 []

/-- A request at a port: none reaches the block through a port that is down; a busy block answers ERROR Busy. -/
def State.spdmRequest (s : State) (p : SpdmPort) (f : State → State) : Result :=
  .next (if !s.spdmUp p then s else if s.spdmBusy then s.spdmError p 3 else f s)

/-- A request that needs a negotiated connection: before, it is answered ERROR UnexpectedRequest. -/
def State.spdmNegotiated (s : State) (p : SpdmPort) (f : State → State) : Result :=
  s.spdmRequest p (fun s => if s.spdmPhase p = .negotiated then f s else s.spdmError p 4)

/-- The bytes of the request that a command stands for: those that came in fragments or chunks, or else its header and the fields that the command
names, and after them so many bytes that no command carries, which are open (DESIGN CHOICE, log entry 62). -/
def State.takeRequest (s : State) (p : SpdmPort) (code p1 p2 : Nat) (named : List Byte) (rest : Nat) : List Byte × State :=
  let c := s.conn p
  if (c.heard.drop 1).head? = some (BitVec.ofNat 8 code) then (c.heard, s.setConn p { c with heard := [] })
  else
    let (b, s) := s.freeBytes rest
    (spdmBytes code p1 p2 (named ++ b), s)

/-! ### Versions, capabilities, algorithms (R365, R366) -/

/-- R365: GET_VERSION begins a connection; the block speaks version 1.3 only. -/
def execGetVersion (port : SpdmPort) (s : State) : Result :=
  s.spdmRequest port (fun s =>
    let (req, s) := s.takeRequest port 0x84 0 0 [] 0
    let resp := spdmBytes 0x04 0 0 [0, 1, 0, 0x13]
    (s.setConn port ⟨.version, (s.conn port).txn, [], req ++ resp, []⟩).spdmAnswer port none resp)

/-- The body of CAPABILITIES and of GET_CAPABILITIES: CTExponent 12, the flags, DataTransferSize (R365, R366). -/
def capabilities : List Byte := [0, 12, 0, 0] ++ bytesLE 4 Config.spdmFlags ++ bytesLE 4 transferSize ++ bytesLE 4 Config.maxSpdmMsg

/-- A message of the negotiation: the connection goes on to a phase, and request and response join its transcript. -/
def State.negotiate (s : State) (p : SpdmPort) (next : SpdmPhase) (req resp : List Byte) : State :=
  (s.setConn p { s.conn p with phase := next, vca := (s.conn p).vca ++ req ++ resp }).spdmAnswer p none resp

/-- R365: GET_CAPABILITIES. -/
def execGetCapabilities (port : SpdmPort) (s : State) : Result :=
  s.spdmRequest port (fun s =>
    if s.spdmPhase port = .version then
      let (req, s) := s.takeRequest port 0xE1 0 0 [] 16
      s.negotiate port .capabilities req (spdmBytes 0x61 0 0 capabilities)
    else s.spdmError port 4)

/-- The algorithms of R366, a mask for each category as SPDM numbers them. -/
def blockAlgs : AlgOffer := ⟨0x80, 2, 0x10, 2, 1, 1, 4⟩

/-- Whether an offer holds the block's algorithm of every category. -/
def algsOffered (o : AlgOffer) : Bool :=
  let a := blockAlgs
  o.asym &&& a.asym != 0 && o.hash &&& a.hash != 0 && o.dhe &&& a.dhe != 0 && o.aead &&& a.aead != 0 && o.sched &&& a.sched != 0 &&
    o.spec &&& a.spec != 0 && o.measHash &&& a.measHash != 0

/-- The tables of a negotiation: DHE, AEAD, the requester's signature, the key schedule. -/
def algTables (o : AlgOffer) : List Byte :=
  [(2, o.dhe), (3, o.aead), (4, o.asym), (5, o.sched)].flatMap (fun t => bytesLE 1 t.1 ++ bytesLE 1 0x20 ++ bytesLE 2 t.2)

/-- The body of ALGORITHMS: the one selection of each category. -/
def algorithms : List Byte :=
  let a := blockAlgs
  bytesLE 2 52 ++ bytesLE 1 a.spec ++ bytesLE 1 0 ++ bytesLE 4 a.measHash ++ bytesLE 4 a.asym ++ bytesLE 4 a.hash ++ List.replicate 16 0 ++ algTables a

/-- The body of the block's own NEGOTIATE_ALGORITHMS. -/
def offerBody : List Byte :=
  let a := blockAlgs
  bytesLE 2 48 ++ bytesLE 1 a.spec ++ bytesLE 1 0 ++ bytesLE 4 a.asym ++ bytesLE 4 a.hash ++ List.replicate 16 0 ++ algTables a

/-- R366: NEGOTIATE_ALGORITHMS: a requester that offers none of the block's algorithms in some category receives ERROR. -/
def execNegotiateAlgorithms (port : SpdmPort) (offered : AlgOffer) (s : State) : Result :=
  s.spdmRequest port (fun s =>
    if s.spdmPhase port = .capabilities then
      if algsOffered offered then
        let (req, s) := s.takeRequest port 0xE3 4 0 (bytesLE 2 48 ++ bytesLE 1 offered.spec ++ bytesLE 1 0 ++ bytesLE 4 offered.asym ++
          bytesLE 4 offered.hash ++ List.replicate 16 0 ++ algTables offered) 0
        s.negotiate port .negotiated req (spdmBytes 0x63 4 0 algorithms)
      else s.spdmError port 1
    else s.spdmError port 4)

/-! ### Certificates and challenges (R363) -/

/-- The certificate chain of slot 0: at most 8 KiB. -/
def State.certBytes (s : State) : List Byte := (Config.certChain s.edge.build.uid).take 8192

/-- A certificate message joins the transcript of its connection. -/
def State.certified (s : State) (p : SpdmPort) (req resp : List Byte) : State :=
  (s.setConn p { s.conn p with certs := (s.conn p).certs ++ req ++ resp }).spdmAnswer p none resp

/-- R365: GET_DIGESTS: the digest of the chain in slot 0. -/
def execGetDigests (port : SpdmPort) (s : State) : Result :=
  s.spdmNegotiated port (fun s =>
    let (req, s) := s.takeRequest port 0x81 0 0 [] 0
    s.certified port req (spdmBytes 0x01 0 1 (Config.sha384 s.certBytes)))

/-- CERTIFICATE: a portion of the chain, its length and what is left after it. -/
def State.portion (s : State) (offset length : Nat) : List Byte :=
  let part := (s.certBytes.drop offset).take length
  spdmBytes 0x02 0 0 (bytesLE 2 part.length ++ bytesLE 2 (s.certBytes.length - offset - part.length) ++ part)

/-- R363: GET_CERTIFICATE: a portion of the chain in slot 0; the other slots are empty. -/
def execGetCertificate (port : SpdmPort) (at_ : CertPos) (length : Nat) (s : State) : Result :=
  s.spdmNegotiated port (fun s =>
    if at_.slot ≠ 0 then s.spdmError port 1
    else
      let (req, s) := s.takeRequest port 0x82 0 0 (bytesLE 2 at_.offset ++ bytesLE 2 length) 0
      s.certified port req (s.portion at_.offset length))

/-- A signature by the device key, 96 bytes. -/
def signature (b : List Byte) : List Byte := fit 96 (Config.deviceSign b)

/-- R365: CHALLENGE: the chain's digest and a nonce of the block's under the device key's signature over the transcript. -/
def execChallenge (port : SpdmPort) (nonce : List Byte) (s : State) : Result :=
  s.spdmNegotiated port (fun s =>
    let (req, s) := s.takeRequest port 0x83 0 0 (fit 32 nonce) 8
    let (own, s) := s.draw.freeBytes 32
    let c := s.conn port
    let resp := spdmBytes 0x03 0 1 (Config.sha384 s.certBytes ++ own ++ [0, 0] ++ (req.drop 36).take 8)
    (s.setConn port { c with certs := [] }).spdmAnswer port none (resp ++ signature (c.vca ++ c.certs ++ req ++ resp)))

/-! ### Chunks, and what is not supported -/

/-- R365: CHUNK_SEND: chunks of at most DataTransferSize bytes, from 0 on in order; the last ends the message, which its own command
brings. -/
def execChunkSend (port : SpdmPort) (index : Nat) (last : Bool) (bytes : List Byte) (s : State) : Result :=
  s.spdmNegotiated port (fun s =>
    let rest := s.sec.sends.filter (fun c => c.1 != port)
    let cur : Frags := match s.sec.sends.find? (fun c => c.1 == port) with | some c => c.2 | none => ⟨0, 0, []⟩
    let cur : Frags := if index = 0 then ⟨0, 0, []⟩ else cur
    if index ≠ cur.next ∨ transferSize < bytes.length then { s with sec := { s.sec with sends := rest } }.spdmError port 1
    else
      let all := cur.bytes ++ bytes
      let s := { s with sec := { s.sec with sends := if last then rest else (port, ⟨0, index + 1, all⟩) :: rest } }
      let s := if last then s.setConn port { s.conn port with heard := all } else s
      s.spdmReply port 0x05 0 0 (bytesLE 2 index ++ [0, 0]))

/-- Bytes of a response that a CHUNK_RESPONSE carries beside its own fields. -/
def chunkBytes : Nat := transferSize - 16

/-- CHUNK_RESPONSE: a chunk of a message, the first with its length, the last marked. -/
def chunkResponse (msg : List Byte) (index : Nat) : List Byte :=
  let part := (msg.drop (index * chunkBytes)).take chunkBytes
  spdmBytes 0x06 (b2n (decide (msg.length ≤ (index + 1) * chunkBytes))) 0
    (bytesLE 2 index ++ [0, 0] ++ bytesLE 4 part.length ++ (if index = 0 then bytesLE 4 msg.length else []) ++ part)

/-- R365: CHUNK_GET: a chunk of the response that was too large. -/
def execChunkGet (port : SpdmPort) (index : Nat) (s : State) : Result :=
  s.spdmNegotiated port (fun s =>
    match s.sec.chunks.find? (fun c => c.1 == port) with
    | none => s.spdmError port 4
    | some c =>
      if c.2.length ≤ index * chunkBytes then s.spdmError port 1
      else
        let s := if c.2.length ≤ (index + 1) * chunkBytes then { s with sec := { s.sec with chunks := s.sec.chunks.filter (fun c => c.1 != port) } } else s
        s.spdmAnswer port none (chunkResponse c.2 index))

/-- R365: any other request is answered ERROR UnsupportedRequest. -/
def execSpdmUnsupported (port : SpdmPort) (code : Nat) (s : State) : Result :=
  s.spdmRequest port (fun s => s.spdmReply port 0x7F 7 code [])

/-! ### The block as requester (R365, R371, R372) -/

/-- Send a request to a partner under a TXN of its own. -/
def State.spdmAsk (s : State) (p : SpdmPort) (within : Option SpdmSession) (msg : List Byte) : State :=
  let n := s.sec.nextTxn % 2 ^ 16
  ({ s with sec := { s.sec with nextTxn := n + 1 } }.setAsk p { s.ask p with txn := n }).spdmSend p false n within msg

/-- Ask for a further portion of the partner's chain: a portion is what a message of 64 fragments can bring. -/
def State.askChain (s : State) (p : SpdmPort) : State :=
  s.spdmAsk p none (spdmBytes 0x82 0 0 (bytesLE 2 (s.ask p).chain.length ++ bytesLE 2 (transferSize - 8)))

/-- KEY_EXCHANGE of a session that the block sets up: the session's number, a random value, and the public key drawn for it. -/
def State.askKeys (s : State) (p : SpdmPort) (i : Nat) (x : SpdmSession) : State :=
  let (r, s) := s.freeBytes 32
  s.spdmAsk p none (spdmBytes 0xE4 0 0 (bytesLE 2 i ++ [0, 0] ++ r ++ fit 96 (Config.keyShare x.draw) ++ [0, 0]))

/-- FINISH of a session that the block sets up: signed by the device key, as both ends authenticate themselves, and with a MAC, which the spec leaves to
SPDM. -/
def State.askFinish (s : State) (p : SpdmPort) (x : SpdmSession) (partner : List Byte) : State :=
  let (mac, s) := s.freeBytes 48
  let msg := spdmBytes 0xE5 1 0 []
  s.spdmAsk p (some x) (msg ++ signature (partner ++ msg) ++ mac)

end Sys2Proof.Machine
end

