-- ==== Sys2Proof/Machine/Security.lean ====
section
/-!
DEFINITION. Hallmark (chapter 15): measurements, SPDM sessions, link sessions and migration pairings, IDE key management and TDISP. What a message
under cryptographic protection was made with is an operand; message and error codes are SPDM's, IDE_KM's and TDISP's own (log entry 60).
-/

namespace Sys2Proof.Machine

/-! ### The Hallmark report (R369, R370, Table 15-2) -/

/-- The cast log: 48 zero bytes, replaced at each registration. -/
def State.castLogValue (s : State) : List Byte :=
  s.sec.castLog.foldl (fun log e => Config.sha384 (log ++ e.digest ++ bytesLE 2 e.number)) (List.replicate 48 0)

/-- Measurement block 3: the hardware configuration, 16 bytes. -/
def State.hwConfig (s : State) : List Byte :=
  let st := s.edge.straps
  let b := s.edge.build
  let v := s.getF .BLK_STEWARD_VERSION 0
  let locks := b2n (s.bitF .MEM_MAP_LOCK 0) + 2 * b2n (s.bitF .FIL_NODE_LOCK 0) + 4 * b2n (s.bitF .MBX_LOCK 0) + 8 * b2n (s.bitF .SEC_CFG_LOCK 0)
  [st.mgtSrc, st.alloyRole, b2n st.bothEnds, b2n st.testEn, b.stks, b.dies, (match b.stackType with | .hbm3e => 0 | .hbm4 => 1), b.stackGib,
    bits v 16 8, bits v 24 8, locks, 0, 0, 0, 0, 0].map (BitVec.ofNat 8)

/-- What measurement block 5 covers: SEC_ANCHOR, SEC_CFG, the route entries with TRUST, and KEY and EN of every window. How they are
laid out under the digest is the model's (log entry 61). -/
def State.secConfig (s : State) : List Byte :=
  (List.range 12).flatMap (fun n => bytesLE 4 (s.getF .SEC_ANCHOR_DIGEST n)) ++ bytesLE 1 (s.getF .SEC_CFG_LOCK 0) ++
    ((List.range 65536).filter (fun n => (s.getF .FIL_ROUTE_ENTRY n).testBit 62)).flatMap (bytesLE 2) ++
    (List.range 8).flatMap (fun d => bytesLE 2 (s.getF .MEM_HDM_CTRL_KEY d) ++ bytesLE 1 (s.getF .MEM_HDM_CTRL_EN d))

/-- A measurement block: its index, its DMTFSpecMeasurementValueType, with bit 7 set on a raw bit-stream, and its value. -/
structure Measure where
  index : Nat
  vtype : Nat
  value : List Byte
deriving DecidableEq, Repr

/-- Block 2: the digest of the steward image, and before any has been fetched that of no bytes (DESIGN CHOICE, log entry 61). -/
def State.stewardDigest (s : State) : List Byte := if s.sec.measure2 = [] then Config.sha384 [] else s.sec.measure2

/-- The measurement blocks of Table 15-2. -/
def State.measurements (s : State) : List Measure :=
  let m : List Measure := [⟨1, 0x00, Config.romDigest s.edge.build.uid⟩, ⟨2, 0x01, s.stewardDigest⟩, ⟨3, 0x82, s.hwConfig⟩,
    ⟨4, 0x03, Config.sha384 s.castLogValue⟩, ⟨5, 0x03, Config.sha384 s.secConfig⟩]
  m ++ [⟨0xFE, 0x04, Config.sha384 (m.flatMap (fun b => b.value))⟩]

/-- A measurement block in the DMTF format: index, specification, size, value type, value size, value. -/
def Measure.bytes (m : Measure) : List Byte :=
  bytesLE 1 m.index ++ [1] ++ bytesLE 2 (m.value.length + 3) ++ bytesLE 1 m.vtype ++ bytesLE 2 m.value.length ++ m.value

/-- The MEASUREMENTS response but for its signature: the blocks and the requester's nonce. -/
def State.hallmark (s : State) (nonce context : List Byte) : List Byte :=
  let rec_ := s.measurements.flatMap Measure.bytes
  spdmBytes 0x60 0 0 (bytesLE 1 s.measurements.length ++ bytesLE 3 rec_.length ++ rec_ ++ fit 32 nonce ++ [0, 0] ++ context)

/-- R369: GET_MEASUREMENTS: every block, with the requester's nonce, signed by the device key over the SPDM transcript: the negotiation, this request
and this response. -/
def execGetMeasurements (port : SpdmPort) (nonce : List Byte) (s : State) : Result :=
  s.spdmNegotiated port (fun s =>
    let (req, s) := s.takeRequest port 0xE0 1 0xFF (fit 32 nonce ++ [0]) 8
    let resp := s.hallmark nonce ((req.drop 37).take 8)
    s.spdmAnswer port none (resp ++ signature ((s.conn port).vca ++ req ++ resp)))

/-! ### Sessions (R368, R371, R372) -/

/-- Sessions on a port. -/
def State.sessionsOn (s : State) (p : SpdmPort) : List (Nat × SpdmSession) := s.sec.sessions.filter (fun kv => kv.2.port == p)

/-- Migration sessions. -/
def State.migrations (s : State) : List (Nat × SpdmSession) :=
  s.sec.sessions.filter (fun kv => match kv.2.port with | .peer _ => true | _ => false)

/-- Whether a port can hold no further session (R368). A session that is set up beside a link's established one may replace it (Table
15-3). -/
def State.sessionsFull (s : State) : SpdmPort → Bool
  | .host d => decide (8 ≤ (s.sessionsOn (.host d)).length)
  | .link p => (s.sessionsOn (.link p)).any (fun kv => !kv.2.established)
  | .peer _ => decide (4 ≤ s.migrations.length)

/-- The lowest number that no session has. -/
def State.newSession (s : State) : Nat :=
  ((List.range (s.sec.sessions.length + 1)).find? (fun i => (s.sec.sessions.find i).isNone)).getD 0

/-- Open a session that is being set up with a partner, with secrets from the DRBG (R364). -/
def State.openSession (s : State) (p : SpdmPort) (requester : Bool) (partner : Nat) : State :=
  let i := s.newSession
  let s := s.draw
  { s with sec := { s.sec with sessions := s.sec.sessions.put i ⟨p, false, requester, s.now, 0, s.slices.drbg, partner⟩ } }

/-- Forget a session. -/
def State.dropSession (s : State) (i : Nat) : State := { s with sec := { s.sec with sessions := s.sec.sessions.del i } }

/-- The pairings with a node that stand in a state (R372). -/
def State.pairingsOf (s : State) (node state : Nat) : List Nat :=
  (List.range 4).filter (fun n => s.getF .SEC_MIG_CTRL_STATE n == state && (s.sec.pairings.find n).any (fun (p : Pairing) => p.node == node))

/-- Pairings leave for a state, 0 none or 3 failed. -/
def State.endPairings (s : State) (l : List Nat) (state : Nat) : State :=
  s.each l (fun s n => { s.setF .SEC_MIG_CTRL_STATE n state with sec := { s.sec with pairings := s.sec.pairings.del n } })

/-- The setup of a link session that this block asked for is over. -/
def State.setupOver (s : State) (p : Nat) : State :=
  if s.sec.linkSetup = some p then { s.setF .SEC_LINK_CTRL_BUSY 0 0 with sec := { s.sec with linkSetup := none } } else s

/-- A session ends (R368): a link's keys go with it, and a migration session's pairing. -/
def State.sessionEnds (s : State) (i : Nat) (x : SpdmSession) : State :=
  match x.port with
  | .link p => if x.established then s.endLinkSession p else (s.dropSession i).setupOver p
  | .peer n => (s.dropSession i).endPairings (s.pairingsOf n 2 ++ s.pairingsOf n 1) 0
  | .host _ => s.dropSession i

/-- The attempt to set a session up ends. -/
def State.attemptOver (s : State) (i : Nat) (x : SpdmSession) : State :=
  let s := s.dropSession i
  match x.port with
  | .link p => if x.requester then s.setupOver p else s
  | .peer n => s.endPairings (s.pairingsOf n 1) 3
  | .host _ => s

/-- A session's exchange fails: SEC_ERR says why, and the attempt ends (R371, R372). -/
def State.sessionFails (s : State) (i : Nat) (x : SpdmSession) (code : Nat) : State := (s.secErr code).attemptOver i x

/-- Label of the requester-to-responder key: fil r2q (R371). -/
def filR2q : List Byte := [0x66, 0x69, 0x6C, 0x20, 0x72, 0x32, 0x71]
/-- Label of the key of the other direction: fil q2r. -/
def filQ2r : List Byte := [0x66, 0x69, 0x6C, 0x20, 0x71, 0x32, 0x72]

/-- The key of epoch 0 that a session gives one direction of a link (R371). -/
def linkKey (x : SpdmSession) (label : List Byte) : List Byte := Config.hkdfExpand (Config.exportSecret x.draw) label 32

/-- Epoch 0 is installed on a port after FINISH: ENCRYPTED is set, and an earlier session of the port is replaced (R371). -/
def State.installKeys (s : State) (p i : Nat) (x : SpdmSession) : State :=
  let others := (s.sessionsOn (.link p)).filter (fun kv => kv.1 != i && kv.2.established)
  let s := (s.each others (fun s kv => s.dropSession kv.1)).setupOver p
  let s := s.setPort p { s.port p with
    epochTx := 0, epochRx := 0, countTx := 0, countRx := 0, rekeyNext := false
    keyTx := linkKey x (if x.requester then filR2q else filQ2r), keyRx := linkKey x (if x.requester then filQ2r else filR2q) }
  s.setF .FIL_PORT_STAT_ENCRYPTED p 1

/-- A session is established with a partner that has a leaf key, which a pairing keeps (R372). -/
def State.sessionStands (s : State) (i : Nat) (x : SpdmSession) (leaf : List Byte) : State :=
  let s := { s with sec := { s.sec with sessions := s.sec.sessions.put i { x with established := true, lastBeat := s.now } } }
  match x.port with
  | .link p => s.installKeys p i x
  | .peer n => s.each (s.pairingsOf n 1) (fun s m =>
      { s.setF .SEC_MIG_CTRL_STATE m 2 with sec := { s.sec with pairings := s.sec.pairings.put m ⟨n, x.draw, s.now, leaf⟩ } })
  | .host _ => s

/-- The trust anchor: the SHA-384 digest that SEC_ANCHORn hold (R371). -/
def State.anchor (s : State) : List Byte := (List.range 12).flatMap (fun n => bytesLE 4 (s.getF .SEC_ANCHOR_DIGEST n))

/-- Whether this end goes on as requester when both ends of a link set a session up: its node number is the lower one; an unnumbered end always
abandons (Table 15-3). -/
def State.outranks (s : State) (partner : Nat) : Bool := decide (s.node < partner ∧ s.node ≠ 0xFFFF)

/-- Sessions that one side sets up on a link. -/
def State.setups (s : State) (p : Nat) (requester : Bool) : List (Nat × SpdmSession) :=
  (s.sessionsOn (.link p)).filter (fun kv => kv.2.requester == requester && !kv.2.established)

/-- The requester's setup on a link yields to the partner's, unless this end goes on (Table 15-3). -/
def State.yieldSetup (s : State) (p partner : Nat) : Bool × State :=
  if s.sec.linkSetup = some p then
    if s.outranks partner then (false, s) else (true, (s.each (s.setups p true) (fun s kv => s.dropSession kv.1)).setupOver p)
  else (true, s)

/-- R368, R371: KEY_EXCHANGE as responder: a new session within the limits; on Filigree the partner's chain must end in the
anchor. -/
def execKeyExchange (port : SpdmPort) (check : CryptoCheck) (partner : Nat) (s : State) : Result :=
  s.spdmNegotiated port (fun s =>
    let (go, s) := match port with | .link p => s.yieldSetup p partner | _ => (true, s)
    if !go then s.spdmError port 4
    else if s.sessionsFull port then (s.secErr 3).spdmError port 0x0A
    else if onFil port && check.root != s.anchor then (s.secErr 1).spdmError port 1
    else
      let i := s.newSession
      let (req, s) := s.takeRequest port 0xE4 0 0 [] 134
      let (r, s) := (s.openSession port false partner).freeBytes 32
      let resp := spdmBytes 0x64 60 0 (bytesLE 2 i ++ bytesLE 1 (b2n (onFil port)) ++ [0] ++ r ++ fit 96 (Config.keyShare s.slices.drbg) ++ [0, 0])
      let (mac, s) := s.freeBytes 48
      s.spdmAnswer port none (resp ++ signature ((s.conn port).vca ++ Config.sha384 s.certBytes ++ req ++ resp) ++ mac))

/-- R371: FINISH: the session stands when its checks are good; a partner's chain that fails the anchor, or a bad signature, ends the
attempt. As requester, it is the partner's FINISH_RSP. -/
def execFinish (port : SpdmPort) (session : Nat) (check : CryptoCheck) (s : State) : Result :=
  s.spdmRequest port (fun s =>
    match s.sec.sessions.find session with
    | none => s.spdmError port 4
    | some x =>
      if x.port ≠ port ∨ x.established then s.spdmError port 4
      else if onFil port && check.root != s.anchor then
        let s := s.sessionFails session x 1
        if x.requester then s else s.spdmError port 1
      else if !check.sigOk then
        let s := s.sessionFails session x 2
        if x.requester then s else s.spdmError port 6
      else
        let s := s.sessionStands session x check.leaf
        if x.requester then s else s.spdmAnswer port (some x) (spdmBytes 0x65 0 0 []))

/-- A message within an established session of its port; elsewhere it is answered ERROR UnexpectedRequest. -/
def State.inSession (s : State) (p : SpdmPort) (i : Nat) (f : State → SpdmSession → State) : Result :=
  s.spdmRequest p (fun s => match s.sec.sessions.find i with
    | some x => if x.port = p ∧ x.established then f s x else s.spdmError p 4
    | none => s.spdmError p 4)

/-- R365: KEY_UPDATE: the session's keys go one generation on. -/
def execKeyUpdate (port : SpdmPort) (session : Nat) (s : State) : Result :=
  s.inSession port session (fun s x =>
    ({ s with sec := { s.sec with sessions := s.sec.sessions.put session { x with keyGen := x.keyGen + 1 } } }).spdmAnswer port (some x) (spdmBytes 0x69 0 0 []))

/-- R365: HEARTBEAT keeps a session alive. -/
def execHeartbeat (port : SpdmPort) (session : Nat) (s : State) : Result :=
  s.inSession port session (fun s x =>
    let s := { s with sec := { s.sec with sessions := s.sec.sessions.put session { x with lastBeat := s.now } } }
    let s := match port with
      | .peer n => s.each (s.pairingsOf n 2) (fun s m =>
          { s with sec := { s.sec with pairings := s.sec.pairings.upd m (fun p => { p with lastBeat := s.now }) } })
      | _ => s
    s.spdmAnswer port (some x) (spdmBytes 0x68 0 0 []))

/-- R368: a session has had no HEARTBEAT for two periods of 60 s: it ends. -/
def execHeartbeatLapse (session : Nat) (s : State) : Result :=
  match s.sec.sessions.find session with
  | some x => .next (if x.established ∧ x.lastBeat + 120000000000 ≤ s.now then s.sessionEnds session x else s)
  | none => .next s

/-- R368: END_SESSION ends a session. -/
def execEndSession (port : SpdmPort) (session : Nat) (s : State) : Result :=
  s.inSession port session (fun s x => (s.spdmAnswer port (some x) (spdmBytes 0x6C 0 0 [])).sessionEnds session x)

/-- R365: as requester the block sends HEARTBEAT every 60 s while it has heard none. -/
def State.sendBeats (s : State) : State :=
  let due (x : SpdmSession) : Bool := x.established && x.requester && decide (x.lastBeat < s.now ∧ (s.now - x.lastBeat) % 60000000000 = 0)
  s.each (s.sec.sessions.filter (fun kv => due kv.2)) (fun s kv => s.spdmAsk kv.2.port (some kv.2) (spdmBytes 0xE8 0 0 []))

/-! ### Sessions that the manager starts -/

/-- The block begins an exchange with a partner as requester: GET_VERSION (R365). -/
def State.askVersion (s : State) (p : SpdmPort) : State := (s.setAsk p ⟨0, [], []⟩).spdmAsk p none (spdmBytes 0x84 0 0 [])

/-- Start a link session on SEC_LINK_CTRL.PORT, ignored while one is being set up (R371). A set-up of the partner's that is in progress is dropped if
this end goes on as requester, and else this one is abandoned (Table 15-3). -/
def State.linkStart (s : State) : State :=
  let p := s.getF .SEC_LINK_CTRL_PORT 0
  let theirs := s.setups p false
  if s.bitF .SEC_LINK_CTRL_BUSY 0 || !s.portLive p || theirs.any (fun kv => !s.outranks kv.2.partner) then s
  else
    let s := s.each theirs (fun s kv => s.dropSession kv.1)
    let s := (s.setF .SEC_LINK_CTRL_BUSY 0 1).openSession (.link p) true (s.getF .FIL_PORT_STAT_PARTNER p)
    { s with sec := { s.sec with linkSetup := some p } }.askVersion (.link p)

/-- R371: LINK_SESSION_START. -/
def execLinkSessionStart (s : State) : Result := .next s.linkStart

/-- The block sends END_SESSION, and the session ends (R368). -/
def State.closeSession (s : State) (i : Nat) (x : SpdmSession) : State :=
  (s.spdmAsk x.port (some x) (spdmBytes 0xEC 0 0 [])).sessionEnds i x

/-- Pair with SEC_MIGn.NODE (R372), ignored while a pairing is being made; a fifth migration session exceeds the limit (R368). The session of the pairing
that it replaces ends with END_SESSION, if no other pairing stands on it. -/
def State.pairStart (s : State) (n : Nat) : State :=
  if s.getF .SEC_MIG_CTRL_STATE n = 1 ∨ !s.coreOn then s
  else
    let node := s.getF .SEC_MIG_CTRL_NODE n
    let old : List (Nat × SpdmSession) := match s.sec.pairings.find n with
      | some p => if (s.pairingsOf p.node 2).length ≤ 1 then s.sessionsOn (.peer p.node) else []
      | none => []
    let s := s.each old (fun s kv => s.closeSession kv.1 kv.2)
    let s := { s with sec := { s.sec with pairings := s.sec.pairings.del n } }
    if s.sessionsFull (.peer node) then (s.setF .SEC_MIG_CTRL_STATE n 3).secErr 3
    else
      let s := (s.setF .SEC_MIG_CTRL_STATE n 1).openSession (.peer node) true node
      { s with sec := { s.sec with pairings := s.sec.pairings.put n ⟨node, 0, s.now, []⟩ } }.askVersion (.peer node)

/-- R372: MIGRATION_PAIRING_START. -/
def execMigrationPairingStart (pairing : Nat) (s : State) : Result := .next (if pairing < 4 then s.pairStart pairing else s)

/-- R380: SEC_CFG.LOCK locks SEC_ANCHORn until cold reset. -/
def execSecCfgLock (s : State) : Result := .next (s.setF .SEC_CFG_LOCK 0 1)

/-! ### IDE key management (R373) -/

/-- Key of an IDE stream: the port, and 0 for the link stream or 1 to 31 for a selective one. -/
def ideKey (port stream : Nat) : Nat := port * 32 + stream

/-- An IDE_KM message at a host port, which needs a secure session there. -/
def State.ideRequest (s : State) (port : Nat) (f : State → State) : Result :=
  s.spdmRequest (.host port) (fun s =>
    if (s.sessionsOn (.host port)).any (fun kv => kv.2.established) then f s else s.spdmError (.host port) 4)

/-- Change a stream. -/
def State.updIde (s : State) (k : Nat) (f : IdeStream → IdeStream) : State :=
  { s with sec := { s.sec with ide := s.sec.ide.put k (f (s.sec.ide.findD k ⟨false, false, none⟩)) } }

/-- R373: QUERY: the highest stream number of the port. -/
def execIdeKmQuery (port : Nat) (s : State) : Result := s.ideRequest port (fun s => s.emit (.ideKm port 1 31))

/-- R373: KEY_PROG programs a key set of a stream. -/
def execIdeKmKeyProg (port stream keySet : Nat) (s : State) : Result :=
  s.ideRequest port (fun s =>
    if stream < 32 ∧ keySet < 2 then
      (s.updIde (ideKey port stream) (fun x => if keySet = 0 then { x with prog0 := true } else { x with prog1 := true })).emit (.ideKm port 3 0)
    else s.emit (.ideKm port 3 3))

/-- R373: K_SET_GO starts the use of a programmed key set. -/
def execIdeKmKSetGo (port stream keySet : Nat) (s : State) : Result :=
  s.ideRequest port (fun s =>
    let x := s.sec.ide.findD (ideKey port stream) ⟨false, false, none⟩
    let ready := decide (stream < 32 ∧ keySet < 2) && (if keySet = 0 then x.prog0 else x.prog1)
    (if ready then s.updIde (ideKey port stream) (fun x => { x with active := some keySet }) else s).emit (.ideKm port 6 0))

/-- R373: K_SET_STOP ends the use of a key set. -/
def execIdeKmKSetStop (port stream keySet : Nat) (s : State) : Result :=
  s.ideRequest port (fun s =>
    let x := s.sec.ide.findD (ideKey port stream) ⟨false, false, none⟩
    (if x.active = some keySet then s.updIde (ideKey port stream) (fun x => { x with active := none }) else s).emit (.ideKm port 6 0))

/-! ### TDISP (R374) -/

/-- The code of a TDI's state. -/
def TdiState.code : TdiState → Nat
  | .unlocked => 0
  | .locked => 1
  | .run => 2
  | .error => 3

/-- A function's TDI. -/
def State.tdi (s : State) (port vf : Nat) : Tdi := s.sec.tdis.findD (tdiKey port vf) ⟨.unlocked, 0, []⟩

/-- Keep a TDI. -/
def State.setTdi (s : State) (port vf : Nat) (t : Tdi) : State :=
  { s with sec := { s.sec with tdis := s.sec.tdis.put (tdiKey port vf) t } }

/-- A TDISP error response. -/
def State.tdispError (s : State) (port vf err : Nat) : State := s.emit (.tdisp port vf 0x7F err 0)

/-- A TDISP message for a function that is a TDI: one bound to a slice, or one that left its slice in ERROR. -/
def State.tdispRequest (s : State) (port vf : Nat) (f : State → Tdi → State) : Result :=
  s.spdmRequest (.host port) (fun s =>
    if (s.sliceOfVf port vf).isSome || (s.tdi port vf).state == .error then f s (s.tdi port vf) else s.tdispError port vf 0x101)

/-- R374: GET_TDISP_VERSION: 1.0. -/
def execGetTdispVersion (port vf : Nat) (s : State) : Result := s.tdispRequest port vf (fun s _ => s.emit (.tdisp port vf 0x01 0 0x10))

/-- R374: GET_TDISP_CAPABILITIES. -/
def execGetTdispCapabilities (port vf : Nat) (s : State) : Result := s.tdispRequest port vf (fun s _ => s.emit (.tdisp port vf 0x02 0 0))

/-- R374: LOCK_INTERFACE_REQUEST: accepted from CONFIG_UNLOCKED while the slice is BUILDING or LIVE; ROOT and the valid leaf entries,
in address order, are recorded. -/
def execLockInterfaceRequest (port vf : Nat) (s : State) : Result :=
  s.tdispRequest port vf (fun s t =>
    match s.sliceOfVf port vf with
    | some k =>
      if t.state = .unlocked ∧ (s.slcState k = 1 ∨ s.slcState k = 2) then
        let root := s.getF .MEM_XCTX_ROOT_ROOT k * 4096
        (s.setTdi port vf ⟨.locked, root, (s.sliceLeaves k).map (fun e => e.1)⟩).emit (.tdisp port vf 0x03 0 0)
      else s.tdispError port vf 4
    | none => s.tdispError port vf 4)

/-- The interface report: MMIO ranges, SliceID, key slot, placement, the recorded ROOT and the digest over the leaf entries. Its layout
is the model's (log entry 61). -/
def State.tdiReport (s : State) (slice : Nat) (t : Tdi) : Nat :=
  natLE (bytesLE 4 0x40000 ++ bytesLE 4 0x10000 ++ bytesLE 2 slice ++ bytesLE 2 (s.sliceKey slice) ++
    bytesLE 1 (s.getF .SLC_PLACE_SECTIONS slice) ++ bytesLE 8 t.root ++ Config.sha384 (t.leaves.flatMap (bytesLE 8)))

/-- R374: GET_DEVICE_INTERFACE_REPORT, in CONFIG_LOCKED or RUN. -/
def execGetDeviceInterfaceReport (port vf : Nat) (s : State) : Result :=
  s.tdispRequest port vf (fun s t =>
    match s.sliceOfVf port vf with
    | some k => if t.state = .locked ∨ t.state = .run then s.emit (.tdisp port vf 0x04 0 (s.tdiReport k t)) else s.tdispError port vf 4
    | none => s.tdispError port vf 4)

/-- R374: GET_DEVICE_INTERFACE_STATE. -/
def execGetDeviceInterfaceState (port vf : Nat) (s : State) : Result :=
  s.tdispRequest port vf (fun s t => s.emit (.tdisp port vf 0x05 0 t.state.code))

/-- R374: START_INTERFACE_REQUEST: from CONFIG_LOCKED to RUN. -/
def execStartInterfaceRequest (port vf : Nat) (s : State) : Result :=
  s.tdispRequest port vf (fun s t =>
    if t.state = .locked then (s.setTdi port vf { t with state := .run }).emit (.tdisp port vf 0x06 0 0) else s.tdispError port vf 4)

/-- R374: STOP_INTERFACE_REQUEST: to CONFIG_UNLOCKED; fetch of the slice's queues resumes. -/
def execStopInterfaceRequest (port vf : Nat) (s : State) : Result :=
  s.tdispRequest port vf (fun s _ =>
    ({ s with sec := { s.sec with tdis := s.sec.tdis.del (tdiKey port vf) } }).emit (.tdisp port vf 0x07 0 0))

/-! ### SPDM over Filigree (R367) -/

/-- A session that the block sets up at a port. -/
def State.settingUp (s : State) (p : SpdmPort) : Option (Nat × SpdmSession) :=
  (s.sessionsOn p).find? (fun kv => kv.2.requester && !kv.2.established)

/-- What the block does with a partner's response to its own request: the exchange goes on from GET_VERSION to FINISH, whose response is the command
FINISH. A response that is too large is fetched in chunks; ERROR but for Busy, a partner without version 1.3 or without the block's algorithms, and a
chain that fails the anchor, end the attempt (R365, R366, R371; log entry 131). -/
def State.respond (s : State) (p : SpdmPort) (i : Nat) (x : SpdmSession) (msg : List Byte) : State :=
  let a := s.ask p
  match fieldLE msg 1 1 with
  | 0x04 =>
    let versions := (List.range (fieldLE msg 5 1)).map (fun k => fieldLE msg (7 + 2 * k) 1)
    if versions.contains 0x13 then s.spdmAsk p none (spdmBytes 0xE1 0 0 capabilities) else s.attemptOver i x
  | 0x61 => s.spdmAsk p none (spdmBytes 0xE3 4 0 offerBody)
  | 0x63 =>
    if fieldLE msg 12 4 = blockAlgs.asym ∧ fieldLE msg 16 4 = blockAlgs.hash then s.spdmAsk p none (spdmBytes 0x81 0 0 []) else s.attemptOver i x
  | 0x01 => (s.setAsk p { a with chain := [] }).askChain p
  | 0x02 =>
    let chain := a.chain ++ (msg.drop 8).take (fieldLE msg 4 2)
    let s := s.setAsk p { a with chain := chain }
    if fieldLE msg 4 2 ≠ 0 ∧ fieldLE msg 6 2 ≠ 0 then s.askChain p
    else if (chain.drop 4).take 48 ≠ s.anchor then s.sessionFails i x 1
    else s.askKeys p i x
  | 0x64 => s.askFinish p x msg
  | 0x7F =>
    if fieldLE msg 2 1 = 0x0F then (s.setAsk p { a with large := [] }).spdmAsk p none (spdmBytes 0x86 0 (fieldLE msg 4 1) [0, 0])
    else if fieldLE msg 2 1 = 3 then s
    else s.attemptOver i x
  | _ => s

/-- A partner's response has come whole; one that answers no request that stands is dropped. A chunk joins those before it, and the last one makes the
response whole. -/
def State.spdmResponse (s : State) (p : SpdmPort) (txn : Nat) (msg : List Byte) : State :=
  let a := s.ask p
  match s.settingUp p with
  | some (i, x) =>
    if txn ≠ a.txn then s
    else if fieldLE msg 1 1 = 6 then
      let seq := fieldLE msg 4 2
      let all := a.large ++ (msg.drop (if seq = 0 then 16 else 12)).take (fieldLE msg 8 4)
      let s := s.setAsk p { a with large := all }
      if (fieldLE msg 2 1).testBit 0 then s.respond p i x all
      else s.spdmAsk p none (spdmBytes 0x86 0 (fieldLE msg 3 1) (bytesLE 2 (seq + 1)))
    else s.respond p i x msg
  | none => s

/-- A fragment of an SPDM message arrived on a port: from an unnumbered node or the link's partner it belongs to the link, from another
node to its peer. Fragments of a message come in order from 0; one out of order aborts its message, and a request so aborted is
answered ERROR RequestResynch. A complete request is kept for its own command, which follows (log entry 62); a complete response is acted on. -/
def State.spdmFragment (s : State) (p : Nat) (m : Msg) : State :=
  let port : SpdmPort := if m.srcNode = 0xFFFF ∨ m.srcNode = s.getF .FIL_PORT_STAT_PARTNER p then .link p else .peer m.srcNode
  let index := bits m.addr 0 16
  let txn := m.txn * 2 + bits m.addr 17 1
  let rest := s.sec.frags.filter (fun c => c.1 != port)
  let cur : Frags := match s.sec.frags.find? (fun c => c.1 == port) with | some c => c.2 | none => ⟨txn, 0, []⟩
  let cur : Frags := if index = 0 then ⟨txn, 0, []⟩ else cur
  let n := m.aux % 128
  let bad := decide (index ≠ cur.next ∨ txn ≠ cur.txn ∨ 64 ≤ index ∨ n = 0 ∨ 64 < n ∨ m.addr / 2 ^ 18 ≠ 0)
  let all := cur.bytes ++ m.data.take n
  let resp := m.addr.testBit 17
  if bad then
    let s := { s with sec := { s.sec with frags := rest } }
    if resp then s else (s.setConn port { s.conn port with txn := m.txn }).spdmError port 0x43
  else if m.addr.testBit 16 then
    let s := { s with sec := { s.sec with frags := rest } }
    if resp then s.spdmResponse port m.txn all else s.setConn port { s.conn port with txn := m.txn, heard := all }
  else { s with sec := { s.sec with frags := (port, ⟨txn, index + 1, all⟩) :: rest } }

end Sys2Proof.Machine
end

