-- ==== Sys2Proof/Machine/Start.lean ====
section
/-!
DEFINITION. Start-up (chapter 17): the start stages with their retries, the steward image, steps 11 to 15 of a warm reset
(Table 16-8), re-admission from FENCED, and Touchstone.
-/

namespace Sys2Proof.Machine

/-! ### Stages (R402, R403, Table 17-1) -/

/-- The stages that must have completed before a stage begins. -/
def stageAfter : Nat → List Nat
  | 4 => [1, 3]
  | 5 => [4, 2]
  | 6 => [5]
  | 7 => [6]
  | _ => []

/-- A stage that has begun. -/
def State.stage (s : State) (n : Nat) : Option Stage := s.recov.stages.find n

/-- Keep a stage. -/
def State.setStage (s : State) (n : Nat) (x : Stage) : State := { s with recov := { s.recov with stages := s.recov.stages.put n x } }

/-- Whether an attempt of a stage runs: begun, not waiting for a retry, and not complete. -/
def State.stageRuns (s : State) (n : Nat) : Bool :=
  !s.stageDone n && (match s.stage n with | some x => x.running | none => false)

/-- Whether the core can work on its stages: out of reset, powered, and TREF running (R52). -/
def State.stagesOn (s : State) : Bool := s.coreOn && s.edge.trefLostAt.isNone

/-- Whether a block on its way to FENCED, or there, leaves a stage out (Table 17-1, R392). -/
def State.stageLeftOut (s : State) (n : Nat) : Bool :=
  n == 6 && (s.blkState == stFenced || (match s.recov.warm with | some w => w.fence | none => false))

/-- Whether an image attempt would fetch from the host: MGT_SRC 0, an address, and nothing pushed (R405). -/
def State.imageFetches (s : State) : Bool :=
  s.edge.straps.mgtSrc == 0 && s.getF .BLK_IMG_ADDR 0 != 0 && s.recov.pushed == []

/-- An image attempt starts: BUSY is set, and a recorded GO is used up. -/
def State.imageAttempt (s : State) : State :=
  let s := s.setF .BLK_IMG_CTRL_BUSY 0 1
  { s with recov := { s.recov with goHeld := false } }

/-- The seed list starts once nothing keeps it back: with an entry enabled it waits for a current TLM record (Table 17-1). -/
def State.seedStart (s : State) : State :=
  let any := (List.range 16).any (fun n => s.bitF .SRV_SEED_EN n)
  if s.stagesOn && s.stageRuns 7 && s.serve.seedAt.isNone && !s.bitF .SRV_STATUS_SEEDED 0 && !(any && s.stale) then
    { s with serve := { s.serve with seedAt := some 0 } }.seedGo 17
  else s

/-- The marks of failed stacks are cleared before they train again (R403). -/
def State.clearFailed (s : State) : State :=
  let s := s.each (List.range s.nStacks) (fun s st => if s.getF .MEM_STK_STAT_STATE st = 4 then s.setF .MEM_STK_STAT_STATE st 0 else s)
  { s.setF .MEM_STATUS_FAILED_STACKS 0 0 with mem := { s.mem with holes := s.mem.holes.filter (fun h => !h.stack) } }

/-- An attempt of a stage starts, the first (`again` false) or a retry. -/
def State.attempt (s : State) (n : Nat) (again : Bool) : State :=
  let x : Stage := (s.stage n).getD ⟨false, 0, 0, none⟩
  let s := s.setStage n { x with running := true, begunAt := s.now, retryAt := none }
  match n with
  | 3 => (if again then s.clearFailed else s).trainStacks
  | 4 =>
    let auto := s.bitF .BLK_IMG_CTRL_AUTO 0 && s.getF .BLK_IMG_ADDR 0 != 0 && s.edge.straps.mgtSrc == 0
    if s.recov.goHeld || auto then s.imageAttempt else s
  | 5 => ((s.setF .TCH_LAST_PASSED 0 0).setF .TCH_LAST_FAILED 0 0).setF .TCH_LAST_UNIT 0 0xFFFF
  | 6 => if s.recov.warm.isSome then s.restartHomes else s
  | 7 => s.seedStart
  | _ => s

/-- The wait before the n-th retry: 10 ms × 2^(n − 1), at most 10 s (R403). -/
def stageBackoff (n : Nat) : Nat := min 10000000000 (10000000 * 2 ^ min 20 (n - 1))

/-- The field of BLK_ATTEMPT that counts a stage's failures. -/
def attemptFld : Nat → Option Fld
  | 1 => some .BLK_ATTEMPT_EDGE
  | 3 => some .BLK_ATTEMPT_MEMORY
  | 4 => some .BLK_ATTEMPT_IMAGE
  | 5 => some .BLK_ATTEMPT_TOUCHSTONE
  | _ => none

/-- An image attempt ends: the push offset returns to 0 (R413). -/
def State.imageEnds (s : State) : State :=
  let s := s.setF .BLK_IMG_CTRL_BUSY 0 0
  { s with recov := { s.recov with pushed := [] } }

/-- An attempt of a stage fails with a FAIL_CODE: it is counted and recorded, and its retry is set (R403). -/
def State.failStage (s : State) (n code : Nat) : State :=
  let x : Stage := (s.stage n).getD ⟨false, 0, 0, none⟩
  let fails := x.fails + 1
  let s := s.setStage n { x with running := false, fails := fails, retryAt := some (s.now + stageBackoff fails) }
  let s := (s.setF .BLK_STAGE_FAIL_STAGE 0 n).setF .BLK_STAGE_FAIL_CODE 0 code
  let s := match attemptFld n with | some f => s.bumpF f 0 | none => s
  if n = 4 then s.imageEnds else s

/-! ### Steps 12 to 15 of a warm reset (Table 16-8) -/

/-- Step 12: quarantines count from now, meters are full, deficits zero, queue 0 is ACTIVE again unless it never was, and the
recovery scrub begins (R396, R397, R315). -/
def State.stepTwelve (s : State) : State :=
  let now := s.now
  let later (slot : Nat) (k : KeySlot) : KeySlot := if slot ≠ 0 ∧ k.state = .draining then { k with since := now } else k
  let s := { s with
    slices := { s.slices with keys := s.slices.keys.mapVals later, buckets := [] }, work := { s.work with deficit := [] }
    recov := { s.recov with warm := s.recov.warm.map (fun (w : WarmReset) => { w with step := .reopened }) } }
  let s := s.each s.slices.recScrub (fun s k => s.setScrub k (s.writable k))
  if s.qState 0 = 0 then s else (s.setF .QCX_STATE_STATE 0 1).markReady 0

/-- Step 13: the block is FENCED and READY, and the warm reset is over (R392). -/
def State.stepThirteen (s : State) : State :=
  let s := (s.setBlkState stFenced).setF .BLK_STATE_READY 0 1
  { s with recov := { s.recov with warm := none } }

/-- Units of the block that are in service. -/
def State.unitsInService (s : State) : List Nat := (List.range 160).filter (fun u => !s.unitOos u)

/-- Announce a crash dump: two words on its mailbox channel, from c0 to the manager, and a record of reason DUMP (R400). -/
def State.announceDump (s : State) : State :=
  if s.recov.announce then
    let s := { s with recov := { s.recov with announce := false } }
    let late := s.getF .FLT_DUMP_CTRL_TIMEOUTS 0
    let s := s.fault { FaultRec.blank 0x21 0 8 with addr := s.getF .FLT_DUMP_BASE 0 * 0x200000, aux1 := late }
    let ch := s.getF .FLT_DUMP_CTRL_CHANNEL 0
    match s.mbxAccess ch (.steward 0) with
    | .inl b =>
      let d := s.mbxDir ch b
      if d.full then s
      else
        let w0 : BitVec 64 := BitVec.ofNat 64 (s.getF .FLT_DUMP_SEQ_COUNT 0)
        let w1 : BitVec 64 := BitVec.ofNat 64 (s.getF .FLT_DUMP_CTRL_STATUS 0 + late * 65536)
        (s.setMbxDir ch b { d with words := (d.words.setIfInBounds 0 w0).setIfInBounds 1 w1 }).mbxPost ch b 2
    | .inr _ => s
  else s

/-- Step 15: SERVICE, or DEGRADED with a hole or a unit out of service (R402); the warm reset is over, and a dump is announced (R400). -/
def State.enterService (s : State) : State :=
  let whole := s.mem.holes == [] && decide (s.unitsInService.length = 160)
  let s := s.setBlkState (if whole then stService else stDegraded)
  { s with recov := { s.recov with warm := none } }.announceDump

/-! ### The start run of Touchstone (R408, R409) -/

/-- The start run ends: each unit still in service passed, and TCH_LAST shows the run. -/
def State.endStartRun (s : State) : State :=
  let s := s.each s.unitsInService (fun s u => s.noteTest u (2 ^ (kindTest u - 1)) 0)
  (s.setF .TCH_LAST_PASSED 0 (0xFF - s.getF .TCH_LAST_FAILED 0)).bumpF .TCH_COUNT_RUNS 0

/-- A unit of the start run, or 160 for the spine, reports its failed tests. A failing unit leaves service; c0, and tests 6 and 7,
fail the stage (Table 17-1), and c0 stays. -/
def State.startTest (s : State) (unit failed : Nat) : State :=
  let note (s : State) (m : Nat) : State := s.setF .TCH_LAST_FAILED 0 (s.getF .TCH_LAST_FAILED 0 ||| m)
  if failed = 0 then s
  else if unit < 160 then
    let m := 2 ^ (kindTest unit - 1)
    if unit = unitOfCore 0 then (((note s m).noteTest unit m m).endStartRun).failStage 5 7
    else if s.unitOos unit then s
    else ((note s m).noteTest unit m m).leaveService unit { FaultRec.ofUnit unit 0x22 3 with aux1 := m, count := s.resetsInWindow unit }
  else if failed &&& 0x60 ≠ 0 then ((note s (failed &&& 0xE0)).endStartRun).failStage 5 7
  else note s (failed &&& 0x80)

/-! ### Completing a stage -/

/-- Whether every present module has trained or failed (Table 17-1, EDGE). -/
def State.modulesSettled (s : State) : Bool := s.edge.ia.all (fun kv => kv.2.state != .training)

/-- Whether every stack is in a given training state. -/
def State.stacksAll (s : State) (p : Nat → Bool) : Bool := (List.range s.nStacks).all (fun st => p (s.getF .MEM_STK_STAT_STATE st))

/-- What Table 17-1 asks for before a stage completes. That the start run of Touchstone has ended is the command's own news. -/
def State.stageMet (s : State) : Nat → Bool
  | 1 => s.recov.warm.isSome || (s.modulesSettled && s.sourceUp)
  | 2 => s.bitF .PRM_STATUS_SG_WARM 0
  | 3 => s.stacksAll (fun st => st == 2 || st == 4) && !s.stacksAll (· == 4)
  | 4 => s.recov.image.isSome
  | 6 => s.coh.recallAt.isNone
  | 7 => s.bitF .SRV_STATUS_SEEDED 0
  | _ => true

/-- A stage completes (R402): DONE is set, and what its end brings about happens. -/
def State.completeStage (s : State) (n : Nat) : State :=
  let x : Stage := (s.stage n).getD ⟨false, 0, 0, none⟩
  let s := (s.setStage n { x with running := false }).setBit .BLK_STAGE_DONE 0 (n - 1) true
  let fence := match s.recov.warm with | some w => w.fence | none => false
  match n with
  | 2 => s.each (List.range 9) (fun s k =>
      s.setF .PRM_MON_MON_OK k (maskOf ((List.range (monitorsOf k)).filter (fun j => !s.temper.badMon.contains (monitorOf k j)))))
  | 3 => s.each (List.range 8) (fun s k => (s.setF .MEM_HT_STAT_STATE k 2).setF .MEM_HT_STAT_SPARE_LEFT k 32)
  | 4 => { s with recov := { s.recov with pfServed := true } }
  | 5 => if fence then s.endStartRun.stepTwelve.stepThirteen else s.endStartRun
  | 6 => if s.recov.warm.isSome then s.stepTwelve else s
  | 7 => s.enterService
  | _ => s

/-- R402: a stage begins, once every stage in its After column has completed. -/
def execStartStageBegin (stage : Nat) (s : State) : Result :=
  .next (if s.stagesOn && decide (1 ≤ stage ∧ stage ≤ 7) && !s.stageDone stage && (s.stage stage).isNone && (stageAfter stage).all s.stageDone &&
      !s.stageLeftOut stage then s.attempt stage false else s)

/-- R402: a stage meets its completion condition. -/
def execStartStageComplete (stage : Nat) (s : State) : Result :=
  let s := if stage = 7 then s.seedStart else s
  .next (if s.stagesOn && decide (1 ≤ stage ∧ stage ≤ 7) && s.stageRuns stage && s.stageMet stage then s.completeStage stage else s)

/-- R403: an attempt of a stage fails: EDGE when its source is not reachable within 1 s, MEMORY when every stack is FAILED, IMAGE
when its fetch ends in a host error, TOUCHSTONE when c0 fails test 1, or test 6 or 7 fails. -/
def execStartStageFail (stage code : Nat) (s : State) : Result :=
  let since := match s.stage stage with | some x => x.begunAt | none => 0
  let due : Bool := match stage with
    | 1 => code == 1 && s.recov.warm.isNone && !s.sourceUp && decide (since + 1000000000 ≤ s.now)
    | 3 => code == 2 && s.stacksAll (· == 4)
    | 4 => code == 6 && s.bitF .BLK_IMG_CTRL_BUSY 0 && s.imageFetches
    | 5 => code == 7
    | _ => false
  if s.stagesOn && s.stageRuns stage && due then
    .next ((if stage = 5 then s.endStartRun else s).failStage stage code)
  else .next s

/-- R403: a stage's wait has elapsed: the stage is tried again, alone. -/
def execStartStageRetry (stage : Nat) (s : State) : Result :=
  match s.stage stage with
  | some x => match x.retryAt with
    | some t => .next (if s.stagesOn && !s.stageDone stage && decide (t ≤ s.now) then s.attempt stage true else s)
    | none => .next s
  | none => .next s

/-! ### The steward image (R404, R405) -/

/-- GO is written: an attempt starts if the IMAGE stage waits for one; else it is recorded. -/
def State.imageGo (s : State) : State :=
  let s := { s with recov := { s.recov with goHeld := true } }
  if s.stagesOn && s.stageRuns 4 && !s.bitF .BLK_IMG_CTRL_BUSY 0 then s.imageAttempt else s

/-- R405: BLK_IMG_CTRL.GO. -/
def execImageGo (s : State) : Result := .next s.imageGo

/-- The next eight image bytes are pushed. -/
def State.imagePush (s : State) (v : Nat) : State := { s with recov := { s.recov with pushed := s.recov.pushed ++ bytesLE 8 v } }

/-- R405: a write of BLK_IMG_DATA. -/
def execImageDataPush (value : Word) (s : State) : Result := .next (s.imagePush value.toNat)

/-- The FAIL_CODE that the checks of R404 give, in their order, or 0. -/
def imageCheck (b : List Byte) (signatureOk : Bool) : Nat :=
  if b.length < 256 ∨ 16777216 < b.length ∨ fieldLE b 0 4 ≠ 0x57545453 ∨ fieldLE b 4 2 ≠ 1 ∨ fieldLE b 0x0C 4 ≠ b.length ∨
      !zeroAt b 6 2 ∨ !zeroAt b 0x14 0x8C then 3
  else if fieldLE b 0x0A 2 ≠ 0x0302 then 4
  else if !signatureOk then 5
  else 0

/-- A checked image is held in frames 2,040 to 2,047 of part 0. -/
def State.holdImage (s : State) (b : List Byte) : State :=
  let v := fieldLE b 8 4
  let s := ((s.setF .BLK_IMG_CTRL_VALID 0 1).setF .BLK_STEWARD_VERSION 0 v).setF .BLK_IMG_VER_MAJOR 0 (bits v 24 8)
  let s := (s.setF .BLK_IMG_VER_MINOR 0 (bits v 16 8)).setF .BLK_IMG_VER_PATCH 0 (bits v 0 16)
  let s := s.writeMem (directBase 0 + 2040 * 0x200000) 0 b
  { s with recov := { s.recov with image := some ⟨v, b⟩ } }

/-- R404: the image of the running attempt is there and is checked; a fetch that ended in a host error fails the stage. Its digest is
Hallmark measurement 2, which changes with each attempt that brings an image (Table 15-2). -/
def execImageFetchComplete (image : Ext) (signatureOk : Bool) (s : State) : Result :=
  if s.stagesOn && s.stageRuns 4 && s.bitF .BLK_IMG_CTRL_BUSY 0 then
    let n := s.getF .BLK_IMG_CTRL_LEN 0
    let got : Option (List Byte) :=
      if s.imageFetches then (match image with | .ok b => some (b.take n) | _ => none) else some (s.recov.pushed.take n)
    match got with
    | none => .next (s.failStage 4 6)
    | some b =>
      let s := { s with sec := { s.sec with measure2 := Config.sha384 b } }
      let code := imageCheck b signatureOk
      if code ≠ 0 then .next (s.failStage 4 code) else .next ((s.holdImage b).imageEnds.completeStage 4)
  else .next s

/-! ### Leaving FENCED, and the recovery scrub -/

/-- READMIT is written: while READY in FENCED, the warm-reset history is cleared and the homes restart (R392). -/
def State.readmit (s : State) : State :=
  if s.blkState = stFenced ∧ s.bitF .BLK_STATE_READY 0 then
    let s := s.setF .BLK_STATE_READY 0 0
    { s with recov := { s.recov with warmTimes := [] } }.restartHomes.setStage 6 ⟨true, s.now, 0, none⟩
  else s

/-- R392: BLK_CTRL.READMIT. -/
def execBlkCtrlReadmit (s : State) : Result := .next s.readmit

/-- R396: the recovery scrub job, which starts at step 12, has scrubbed the pages that a former slice's context maps writable, under
a fresh one-time key. At a page that is not covered it waits, and cleaning starts (R243, Table 15-5). -/
def execRecoveryScrub (slice : Nat) (s : State) : Result :=
  let on : Bool := match s.recov.warm with | some w => decide (w.step = .reopened) | none => s.coreOn
  if on ∧ s.slices.recScrub.contains slice then
    match (s.oneTimeKey slice).scrubOn slice with
    | (false, s) => .next s.cleanStart
    | (true, s) => .next ({ s with slices := { s.slices with recScrub := s.slices.recScrub.filter (· != slice) } }.dropOneTime slice)
  else .next s

/-! ### The TOUCHSTONE descriptor (R410–R412) -/

/-- The number that stands for the spine among the units of a test. -/
def unitSpine : Nat := 160

/-- The test that borrows a unit: 6 for the spine. -/
def unitTest (u : Nat) : Nat := if u = unitSpine then 6 else kindTest u

/-- Tests of an item that have not run. -/
def Touch.left (x : Touch) : Nat := x.tests - (x.passed ||| x.failed)

/-- Whether the operands of a TOUCHSTONE item break R410's ARG check: no test, a UNIT that is none or of another kind than a
borrowing test's, or a DEADLINE of unit 3. -/
def touchArgBad (inl : Nat) : Bool :=
  let tests := bits inl 0 8
  let unit := bits inl 16 16
  tests == 0 || (allowNs (bits inl 32 32)).isNone ||
    (unit != 0xFFFF && (decide (160 ≤ unit) || (testsOf (tests % 64)).any (fun t => t != kindTest unit)))

/-- R410: a TOUCHSTONE item is checked, and waits for its units. -/
def execTouchstone (item : Nat) (s : State) : Result :=
  match s.live item 0xB0 with
  | none => .next s
  | some x =>
    let inl := x.inl
    if (s.work.touches.find item).isSome then .next s
    else if touchArgBad inl then .next (s.badDesc item 5)
    else if bits inl 4 2 ≠ 0 ∧ s.blkState ≠ stFenced then .next (s.badDesc item 8)
    else
      let t : Touch := ⟨bits inl 0 8, bits inl 16 16, s.now + (allowNs (bits inl 32 32)).getD 0, none, 0xFFFF, 0, 0⟩
      .next { s with work := { s.work with touches := s.work.touches.put item t } }

/-- Whether a unit is idle enough to borrow (R411): in FENCED every unit is. -/
def State.canBorrow (s : State) (u : Nat) : Bool :=
  let fenced := s.blkState == stFenced
  let held (p : Item → Bool) : Bool := s.work.items.any (fun (kv : Nat × Item) => p kv.2)
  let ops (on : UnitId) : Bool := s.work.ops.any (fun (kv : Nat × Op) => kv.2.on == on)
  let taken := s.work.touches.any (fun (kv : Nat × Touch) => kv.2.borrowed == some u)
  if u = unitSpine then fenced && !taken
  else if s.unitOos u || s.inReset u || taken || !s.coreOn then false
  else if fenced then true
  else if u < 48 then !held (fun x => x.teGrant.testBit u) && !ops (.te u)
  else if u < 56 then !held (fun x => (List.range 6).any (fun i => x.teGrant.testBit (6 * (u - 48) + i))) && !ops (.att (u - 48))
  else if u < 120 then
    let c := u - 56
    (s.core c).item.isNone && !held (fun x => x.core == c && x.hasContext) &&
      !s.work.queues.any (fun (kv : Nat × QueueX) => s.qState kv.1 != 0 && s.getF .QCX_BIND_CORE kv.1 == c && s.bitF .QCX_CFG_LC_OK kv.1)
  else if u < 152 then
    let loads : Bool := match s.serve.load with | some l => l.begun && (s.modelSecs l.model).contains (secOfUnit u) | none => false
    !held (fun x => x.meGrant.testBit (u - 120)) && !ops (.me (u - 120)) && !loads
  else false

/-- Whether a unit is the one that a waiting item borrows next: the one named, or the first borrowable of its kind. -/
def State.borrows (s : State) (x : Touch) (u : Nat) : Bool :=
  x.borrowed.isNone && x.left.testBit (unitTest u - 1) && s.canBorrow u &&
    (if x.unit = 0xFFFF then !(List.range u).any (fun v => unitTest v == unitTest u && s.canBorrow v) else x.unit == u)

/-- R411: a unit is borrowed at the first moment that it is idle. -/
def execTouchstoneBorrow (item unit : Nat) (s : State) : Result :=
  match s.live item 0xB0, s.work.touches.find item with
  | some _, some x =>
    .next (if unit ≤ 160 ∧ s.borrows x unit then
      { s with work := { s.work with touches := s.work.touches.put item { x with borrowed := some unit } } } else s)
  | _, _ => .next s

/-- A test clears the state of the unit that it borrowed (R408). -/
def State.clearTested (s : State) (u : Nat) : State :=
  if u < 48 then s.clearCb u
  else if 56 ≤ u ∧ u < 120 then s.clearCore (u - 56)
  else if 152 ≤ u ∧ u < 160 then { s with mem := { s.mem with tlb := s.mem.tlb.filter (fun e => e.sec != u - 152) } }
  else s

/-- A TOUCHSTONE item whose tests have all run completes ST_OK with the result of Table 17-4. -/
def State.touchOver (s : State) (item : Nat) (x : Touch) : State :=
  if x.left ≠ 0 then { s with work := { s.work with touches := s.work.touches.put item x } }
  else
    let s := ((s.setF .TCH_LAST_PASSED 0 x.passed).setF .TCH_LAST_FAILED 0 x.failed).setF .TCH_LAST_UNIT 0 x.lastUnit
    (s.bumpF .TCH_COUNT_RUNS 0).finishOk item (BitVec.ofNat 64 (x.lastUnit + x.passed * 2 ^ 16 + x.failed * 2 ^ 24))

/-- An item's test ends: that of the unit it borrowed, or those of the spine that borrow nothing. A failing unit leaves service. -/
def State.touchTest (s : State) (item unit failed : Nat) (x : Touch) : State :=
  if unit = unitSpine then
    let ran := x.left &&& (0xC0 + (if x.borrowed = some unitSpine then 0x20 else 0))
    s.touchOver item { x with
      borrowed := if x.borrowed = some unitSpine then none else x.borrowed, passed := x.passed ||| (ran - (ran &&& failed)), failed := x.failed ||| (ran &&& failed) }
  else if x.borrowed = some unit then
    let m := 2 ^ (kindTest unit - 1)
    let bad := decide (failed ≠ 0)
    let s := (s.clearTested unit).noteTest unit m (if bad then m else 0)
    let s := s.touchOver item { x with
      borrowed := none, lastUnit := unit, passed := x.passed ||| (if bad then 0 else m), failed := x.failed ||| (if bad then m else 0) }
    if bad then s.leaveService unit { FaultRec.ofUnit unit 0x22 3 with aux1 := m, count := s.resetsInWindow unit } else s
  else s

/-- R409: a test on a unit, or on the spine (160), ends: of a TOUCHSTONE item, or of the start run. -/
def execTouchstoneTestDone (item unit : Nat) (check : TestResult) (s : State) : Result :=
  match s.live item 0xB0, s.work.touches.find item with
  | some _, some x => .next (if unit ≤ 160 then s.touchTest item unit check.failed x else s)
  | _, _ => .next (if unit ≤ 160 ∧ s.stagesOn ∧ s.stageRuns 5 then s.startTest unit check.failed else s)

/-- R411: DEADLINE passes before the borrow: ST_DEFERRED with RESULT zero. -/
def execTouchstoneDeadline (item : Nat) (s : State) : Result :=
  match s.live item 0xB0, s.work.touches.find item with
  | some _, some x =>
    .next (if x.borrowed.isNone ∧ x.left ≠ 0 ∧ x.deadlineAt ≤ s.now then (s.bumpF .TCH_COUNT_DEFERRED 0).finishItem item 13 0 none 0 else s)
  | _, _ => .next s

end Sys2Proof.Machine
end

