-- ==== Sys2Proof/Machine/View.lean ====
section
/-!
DEFINITION. What the management space shows: the fields whose value follows from other state, and the value of a register.
-/

namespace Sys2Proof.Machine

/-- Entries of a list that satisfy a test. -/
def countWhere {α : Type} (l : List α) (p : α → Bool) : Nat := (l.filter p).length

/-- Whether a warm reset of a cause runs or is held. -/
def State.warmBy (s : State) (cause : Nat) : Bool :=
  (match s.recov.warm with | some w => w.cause == cause | none => false) || (match s.recov.warmHeld with | some (c, _) => c == cause | none => false)

/-- The BLK_ fields that follow from straps, build, locks, time and start stages (R420, Table 18-2, chapter 17). -/
def State.viewBlk (s : State) (f : Fld) (i : Nat) : Option Nat :=
  let st := s.edge.straps
  let b := s.edge.build
  match f with
  | .BLK_PART_STEPPING => some b.stepping
  | .BLK_BUILD_TYPE => some (match b.stackType with | .hbm3e => 0 | .hbm4 => 1)
  | .BLK_BUILD_FULL => some (b2n s.isFull)
  | .BLK_BUILD_STACK_GIB => some b.stackGib
  | .BLK_BUILD_N => some b.stks
  | .BLK_BUILD_D => some b.dies
  | .BLK_STRAPS_MGT_SRC => some st.mgtSrc
  | .BLK_STRAPS_MGT_FP => some st.mgtFp
  | .BLK_STRAPS_I3C_SA => some st.i3cSa
  | .BLK_STRAPS_ALLOY_ROLE => some (if st.alloyRole = 3 then 0 else st.alloyRole)
  | .BLK_STRAPS_BOTH_ENDS => some (b2n st.bothEnds)
  | .BLK_STRAPS_TEST_EN => some (b2n st.testEn)
  | .BLK_UID => some b.uid
  | .BLK_NODE_LOCK => some (s.getF .FIL_NODE_LOCK 0)
  | .BLK_NODE_NODE => some (s.getF .FIL_NODE_NODE 0)
  | .BLK_LOCKS_SEC => some (s.getF .SEC_CFG_LOCK 0)
  | .BLK_LOCKS_MBX => some (s.getF .MBX_LOCK 0)
  | .BLK_LOCKS_FIL => some (s.getF .FIL_NODE_LOCK 0)
  | .BLK_LOCKS_MEM => some (s.getF .MEM_MAP_LOCK 0)
  | .BLK_STATE_ANVIL => some (b2n s.anvil)
  | .BLK_TIME_NS => some s.time
  | .BLK_STAGE_STAGE => some (((List.range' 1 7).find? (fun n => !s.stageDone n)).getD 8)
  | .BLK_STAGE_HELD => some (b2n (s.edge.trefLostAt.isSome && (List.range' 1 7).any (fun n => !s.stageDone n)))
  | .BLK_IMG_CTRL_GO => some (b2n s.recov.goHeld)
  | .BLK_CTRL_WARM => some (b2n (s.warmBy 2))
  | .BLK_CTRL_FENCE => some (b2n (s.warmBy 3))
  | .BLK_CTRL_READMIT => some (b2n (s.blkState == stFenced && (s.stage 6).isSome))
  | .SEC_LINK_CTRL_GO => some (s.getF .SEC_LINK_CTRL_BUSY 0)
  | .SEC_MIG_CTRL_GO => some (b2n (s.getF .SEC_MIG_CTRL_STATE i == 1))
  | .FLT_WARM_IN_WINDOW => some (s.within (s.getF .BLK_ESC_BLOCK_WINDOW_S 0) s.recov.warmTimes)
  | .FLT_RST_IN_WINDOW => some (s.resetsInWindow i)
  | .FIL_BE_ACTIVE => some (b2n st.bothEnds)
  | .MEM_CFG_TYPE => some (match b.stackType with | .hbm3e => 0 | .hbm4 => 1)
  | .MEM_CFG_P => some s.chans
  | .MEM_CFG_N => some b.stks
  | .MEM_CFG_STACK_GIB => some b.stackGib
  | _ => none

/-- Promise, Temper, interrupt-controller and mailbox fields (chapters 03, 09, 14). -/
def State.viewEdge (s : State) (f : Fld) (i : Nat) : Option Nat :=
  let top := (s.core i).stack.headD (0, 0)
  match f with
  | .PRM_STATUS_ADMIT_OPEN => some (b2n (!s.stale && s.edge.trefLostAt.isNone))
  | .TMP_BUDGET_P_BUDGET => some (s.pBudget / 1000)
  | .TMP_STATUS_STATE => some s.tmpState
  | .TMP_BUDGET_P_COMMIT => some (if s.coreOn then ceilDiv s.pCommit 1000 else 0)
  | .TMP_VID_FLOOR_CODE => some s.floorCode
  | .TMP_DUR_COVER_PAGES => some s.coverage
  | .TMP_DUR_DIRTY_PAGES => some s.temper.dur.length
  | .TMP_DUR_SIZE_DIRTY => some (countWhere s.temper.dur (fun (kv : Nat × DurPage) => s.durRegion (kv.1 * 4096) == some i))
  | .CIC_SET => some (maskOf ((List.range 32).filter (fun b => (s.getF .CIC_PEND i).testBit b && cicSettable (32 * (i % 4) + b))))
  | .CIC_STACK_DEPTH => some (s.core i).stack.length
  | .CIC_STACK_TOP_PRIO => some top.2
  | .CIC_STACK_TOP_SRC => some top.1
  | .CIC_VMOD_COUNT => some (s.qx (s.getF .CIC_VMOD_SEL_VECTOR 0)).count
  | .CIC_VMOD_THRESH => some (s.vmod (s.getF .CIC_VMOD_SEL_VECTOR 0)).thresh
  | .CIC_VMOD_DELAY_US => some (s.vmod (s.getF .CIC_VMOD_SEL_VECTOR 0)).delayUs
  | .MBX_STAT_FULL_AB => some (b2n (s.mbxDir i false).full)
  | .MBX_STAT_FULL_BA => some (b2n (s.mbxDir i true).full)
  | .MBX_STAT_FAR_OFF => some (b2n (s.domainOff (s.mbxSide i false)) + 2 * b2n (s.domainOff (s.mbxSide i true)))
  | .MBX_STAT_LEN_AB => some (s.mbxDir i false).len
  | .MBX_STAT_LEN_BA => some (s.mbxDir i true).len
  | _ => none

/-- The cast version that CST_VSEL selects: its CastID and slot. -/
def State.verSel (s : State) : Nat × Nat := (s.getF .CST_VSEL_CAST_ID 0, s.getF .CST_VSEL_SLOT 0)

/-- The version that CST_VSEL selects, if its slot is not FREED. -/
def State.selVer (s : State) : Option CastVer :=
  if s.slotState s.verSel.1 s.verSel.2 = 0 then none else s.castVer (s.verSel.1 * 4 + s.verSel.2)

/-- The engines, cores and backend adapters that a destroyed queue still waits for (R108, QCX_INFLIGHT.HOLDERS). -/
def State.holders (s : State) (q : Nat) : Nat :=
  let mine := s.itemsWhere (fun (x : Item) => x.queue == q && !x.step)
  (mine.foldl (fun l kv => (s.unreleased kv.1 kv.2).foldl addNew l) []).length +
    countWhere s.work.backends (fun (kv : Nat × Backend) => kv.2.tokens.any (fun (t : Nat × Token) => t.2.queue == q))

/-- Accepted items of a queue that have ended and whose completions wait for earlier ones (R99). -/
def State.completing (s : State) (q : Nat) : Nat := ((s.qx q).ordered.filter (fun p => p.at_.isSome)).length

/-- The sequence that SRV_SEQ_SEL selects. -/
def State.selSeq (s : State) : Option Seq := s.serve.seqs.find (seqKeyOf (s.getF .SRV_SEQ_SEL_SLICE 0) (s.getF .SRV_SEQ_SEL_SEQID 0))

/-- Slice, queue, cast and serving fields (chapters 04, 06, 08, 13). -/
def State.viewWork (s : State) (f : Fld) (i : Nat) : Option Nat :=
  match f with
  | .SLC_CTRL_RESET => some (s.getF .SLC_STATE_RESETTING i)
  | .SLC_OPEN_ITEMS => some ((s.openItems i).length + ((s.sliceQueues i).map s.completing).foldl (· + ·) 0)
  | .SLC_OPEN_QUEUES => some (s.sliceQueues i).length
  | .SLC_MEMUSE_MIB => some (s.kvMib i 0)
  | .SLC_DRAIN_REFS => some (s.drainRefs i)
  | .QCX_INFLIGHT_OPEN => some ((s.itemsWhere (fun (x : Item) => x.queue == i && !x.step)).length + s.completing i)
  | .QCX_INFLIGHT_HOLDERS => some (if s.qState i = 4 then s.holders i else 0)
  | .CST_CMODEL_MODEL =>
    some (match (List.range 4).find? (fun n => s.slotState i n == 1) with
      | some n => match s.castVer (i * 4 + n) with | some v => v.model | none => 0xFFFF
      | none => 0xFFFF)
  | .CST_VINFO_STATE => some (s.slotState s.verSel.1 s.verSel.2)
  | .CST_VINFO_VERSION => some (s.slotVer s.verSel.1 s.verSel.2)
  | .CST_VPINS_LAUNCHES => some (match s.selVer with | some v => v.pins | none => 0)
  | .CST_VADDR_ADDR => some (match s.selVer with | some v => v.addr | none => 0)
  | .CST_VLEN_IMAGE_LEN => some (match s.selVer with | some v => v.len | none => 0)
  | .CST_BK_STATE_LATE_IN_WINDOW => some (match s.work.backends.find i with | some b => s.lateCount b | none => 0)
  | .CST_BK_STATE_OPEN => some (match s.work.backends.find i with | some b => b.tokens.length | none => 0)
  | .SRV_STATUS_RESIDENT => some (countWhere (List.range 1024) (fun m => s.modelState m == 2))
  | .SRV_SEQ_INFO_OPEN => some (b2n s.selSeq.isSome)
  | .SRV_SEQ_INFO_POISONED => some (match s.selSeq with | some x => b2n x.poisoned | none => 0)
  | .SRV_SEQ_INFO_SECTION => some (match s.selSeq with | some x => x.sec | none => 0)
  | .SRV_SEQ_INFO_MODEL => some (match s.selSeq with | some x => x.model | none => 0)
  | .SRV_SEQ_KV_KV_LEN => some (match s.selSeq with | some x => x.kvLen | none => 0)
  | .SRV_KVPOOL_USED_PAGES => some (s.kvUsed false i).length
  | .SRV_KVLC_USED_PAGES => some (s.kvUsed true i).length
  | .SRV_MDL_CTRL_PARTS => some (s.modelParts i)
  | .SRV_MDL_STAT_SEQS => some (s.modelSeqs i).length
  | .SRV_MDL_STAT_HELD =>
    some (countWhere s.work.items (fun (kv : Nat × Item) => kv.2.holds i) +
      (match s.serve.load with | some l => b2n (l.model == i) | none => 0))
  | .SRV_SLC_SEQS_OPEN => some (s.sliceSeqs i).length
  | _ => none

/-- The 4 KiB holes of a stack (MEM_STKn_HOLES): all that the pool windows have of it once it is FAILED, of a retired pseudo-channel its
part of that, and the granules retired beside them (R266, R267). -/
def State.stackHoles (s : State) (st : Nat) : Nat :=
  let all := s.stackMib * 256
  if s.mem.holes.any (fun h => h.stack && h.offset == st) then all
  else
    let chs := (List.range s.chans).filter (fun ch => s.channelGone st ch)
    chs.length * (all / s.chans) + (s.mem.holes.filter (fun h => !h.frame && !h.stack && !h.channel &&
      (match s.place h.offset with | some (a, ch, _) => a == st && !chs.contains ch | none => false))).length

/-- KiB of the holes of every stack. -/
def State.holeKib (s : State) : Nat := ((List.range s.nStacks).map (fun st => 4 * s.stackHoles st)).foldl (· + ·) 0

/-- The directory entry that COH_DIR_SEL selects, with its line (COH_DIR_ENT, COH_DIR_TAG). -/
def State.dirSel (s : State) : Option (Nat × DirEnt) :=
  if s.bitF .COH_DIR_SEL_MODE 0 then (s.ent (s.getF .COH_DIR_LINE 0)).map (fun e => (s.getF .COH_DIR_LINE 0, e))
  else
    let w := s.getF .COH_DIR_SEL_WAY 0
    let h := s.getF .COH_DIR_SEL_HOME 0
    s.coh.dir.find? (fun (kv : Nat × DirEnt) => kv.2.home == h && kv.2.way == w &&
      (decide (16 ≤ w) || dirSet h kv.1 == s.getF .COH_DIR_SEL_SET 0))

/-- A number of the selected directory entry. -/
def State.dirField (s : State) (f : Nat × DirEnt → Nat) : Option Nat := some (match s.dirSel with | some e => f e | none => 0)

/-- Pool-memory and coherence fields (chapters 10, 11). -/
def State.viewMem (s : State) (f : Fld) (i : Nat) : Option Nat :=
  let hole (g : Hole → Nat) : Option Nat := some (match s.mem.holes[s.getF .MEM_HOLE_SEL_INDEX 0]? with | some h => g h | none => 0)
  match f with
  | .MEM_CAP_MAPPED_MIB => some (if s.mapped then s.poolMib else 0)
  | .MEM_CAP_USABLE_MIB => some (if s.mapped then s.poolMib - ceilDiv s.holeKib 1024 else 0)
  | .MEM_STK_RESV_KIB => some (s.spareKib i)
  | .MEM_STK_HOLES_GRANULES => some (s.stackHoles i)
  | .MEM_HOLE_ADDR_VALID => hole (fun _ => 1)
  | .MEM_HOLE_ADDR_FRAME => hole (fun h => b2n h.frame)
  | .MEM_HOLE_ADDR_STACK => hole (fun h => b2n h.stack)
  | .MEM_HOLE_ADDR_CHANNEL => hole (fun h => b2n h.channel)
  | .MEM_HOLE_ADDR_OFFSET => hole (fun h => h.offset)
  | .COH_STATUS_RECALL => some (b2n s.coh.recallAt.isSome)
  | .COH_STATUS_WALK => some (b2n (!s.coh.walks.isEmpty))
  | .COH_STATUS_BARRED => some (s.coh.barred.foldl (fun l c => addNew l (c % 2 ^ 20)) []).length
  | .COH_HOME_TRK_OPEN => some (s.trackerUse i false + s.trackerUse i true)
  | .COH_HOME_TRK_STAKE => some (s.trackerUse i true)
  | .COH_HOME_TRK_WBK => some 0
  | .COH_HOME_DIR_ENTRIES => some (countWhere s.coh.dir (fun (kv : Nat × DirEnt) => kv.2.home == i && decide (kv.2.way < 16)))
  | .COH_HOME_DIR_OVERFLOW => some (countWhere s.coh.dir (fun (kv : Nat × DirEnt) => kv.2.home == i && decide (16 ≤ kv.2.way)))
  | .COH_HOME_HEAD_TICKET => some (match s.oldestTicket i (fun _ => true) with | some t => t % 2 ^ 32 | none => s.getF .COH_HOME_NEXT_TICKET i)
  | .COH_DIR_ENT_VALID => s.dirField (fun _ => 1)
  | .COH_DIR_ENT_PIN => s.dirField (fun e => b2n (s.pinned e.1))
  | .COH_DIR_ENT_LOST => s.dirField (fun e => b2n e.2.lost)
  | .COH_DIR_ENT_SUM => s.dirField (fun e => e.2.sum)
  | .COH_DIR_ENT_FAB => s.dirField (fun e => b2n e.2.fab)
  | .COH_DIR_ENT_NPTR => s.dirField (fun e => e.2.nptr)
  | .COH_DIR_ENT_PRES => s.dirField (fun e => e.2.pres)
  | .COH_DIR_ENT_OWNER => s.dirField (fun e => e.2.owner)
  | .COH_DIR_ENT_NODE0 => s.dirField (fun e => e.2.node0)
  | .COH_DIR_ENT_NODE1 => s.dirField (fun e => e.2.node1)
  | .COH_DIR_TAG_LINE => s.dirField (fun e => e.1)
  | .COH_HPF_ENTRIES => some (countWhere s.coh.hpf (fun (kv : Nat × HpfEnt) => kv.1 / 2 ^ 42 == i))
  | .COH_RESTART_LOG_ENTRIES => some s.coh.restartLog.length
  | _ => none

/-- STATE of a tensor engine or attention unit: 0 OFF, 1 SERVING, 2 RESET, 3 OUT_OF_SERVICE. -/
def State.engineState (s : State) (unit : Nat) (out : Bool) : Nat := if out then 3 else if !s.coreOn then 0 else if s.inReset unit then 2 else 1

/-- STATE of a cue core: 0 OFF, 1 SERVING, 2 ANVIL, 3 HALTED, 4 RESET, 5 OUT_OF_SERVICE. -/
def State.cueState (s : State) (c : Nat) : Nat :=
  if s.coreOos c then 5 else if !s.coreOn then 0 else if s.inReset (unitOfCore c) then 4
  else if s.bitF .CUE_DBG_CTRL_HALTED c then 3 else if c = 0 ∧ s.anvil then 2 else 1

/-- Operations of an engine in a phase. -/
def State.opsIn (s : State) (on : UnitId) (p : OpPhase) : Nat := countWhere s.work.ops (fun (kv : Nat × Op) => kv.2.on == on && kv.2.phase == p)

/-- The mask of a tensor engine's codebook slots that satisfy a test. -/
def State.cbMask (s : State) (t : Nat) (p : CbSlot → Bool) : Nat :=
  maskOf ((List.range 8).filter (fun n => match s.work.cb.find (8 * t + n) with | some c => p c | none => false))

/-- Tensor-engine and cue-core fields (chapters 05, 07). -/
def State.viewUnit (s : State) (f : Fld) (i : Nat) : Option Nat :=
  match f with
  | .TEN_STATE_STATE => some (s.engineState (unitOfTe i) (s.teOos i))
  | .TEN_STATE_SUSPENDED => some (min 1 (s.opsIn (.te i) .suspended))
  | .TEN_STATE_GRANTS => some (s.teGrants i)
  | .TEN_STATE_INBOUND => some (s.opsIn (.te i) .waiting)
  | .TEN_CB_VALID => some (s.cbMask i (fun _ => true))
  | .TEN_CB_HELD => some (s.cbMask i (fun c => !c.heldBy.isEmpty))
  | .TEN_ATT_STATE_STATE => some (s.engineState (unitOfAtt i) (s.attOos i))
  | .TEN_ATT_STATE_SUSPENDED => some (min 1 (s.opsIn (.att i) .suspended))
  | .TEN_ATT_STATE_PENDING => some (s.opsIn (.att i) .waiting)
  | .CUE_STATE_STATE => some (s.cueState i)
  | .CUE_STATE_RECORDS => some (s.records i)
  | .CUE_STATE_WINDOW_KIB => some (s.windowUse i / 1024)
  | .CUE_PC => some (if s.bitF .CUE_DBG_CTRL_HALTED i then (s.core i).ctx.pc.toNat / 4 else s.getF .CUE_PC i)
  | _ => none

/-- The value a read of a field gives: its stored value, or what the state it follows from says, as far as its bits hold it. -/
def State.view (s : State) (d : FldDesc) (i : Nat) : Nat :=
  if d.acc = Acc.wo then 0
  else
    let v := (s.viewBlk d.fld i).getD ((s.viewEdge d.fld i).getD ((s.viewWork d.fld i).getD ((s.viewMem d.fld i).getD
      ((s.viewUnit d.fld i).getD (s.getF d.fld i)))))
    min v (2 ^ d.width - 1)

/-- The value a read of a register gives: its fields at their bits, reserved bits zero (R14). CUE_DBG_DATA reads the selected
item while its core is halted, and zero otherwise (R146). -/
def State.readReg (s : State) (r : RegDesc) (i : Nat) : Nat × State :=
  if r.base = 0xc00038 then
    (if s.bitF .CUE_DBG_CTRL_HALTED i then ((s.dbgRead i).1.toNat, (s.dbgRead i).2) else (0, s))
  else ((r.fields.map (fun d => s.view d i * 2 ^ d.lsb)).foldl (· + ·) 0, s)

/-! ### Offsets -/

/-- The unit of a register and the byte within it that an offset names, if it names one. -/
def RegDesc.at (r : RegDesc) (off : Nat) : Option (Nat × Nat) :=
  if off < r.base then none
  else
    let d := off - r.base
    let i := if r.count1 ≤ 1 then 0 else d / r.stride1
    let e := if r.count1 ≤ 1 then d else d % r.stride1
    let j := if r.count2 ≤ 1 then 0 else e / r.stride2
    let b := if r.count2 ≤ 1 then e else e % r.stride2
    if i < r.count1 ∧ j < r.count2 ∧ b < r.bits / 8 then some (i * r.count2 + j, b) else none

/-- The register, its unit and the byte within it at an offset of the management space (R414). -/
def findReg (off : Nat) : List RegDesc → Option (RegDesc × Nat × Nat)
  | [] => none
  | r :: t => match r.at off with
    | some (i, b) => some (r, i, b)
    | none => findReg off t

/-- The register at an offset. -/
def regAt (off : Nat) : Option (RegDesc × Nat × Nat) := findReg off regTable

/-- A byte of the fault log (R381): a slot with no record reads zero. -/
def State.logByte (s : State) (o : Nat) : Byte :=
  match s.faultSlot (o / 64) with
  | some r => r.bytes.getD (o % 64) 0
  | none => 0

/-- `n` bytes of the fault log. -/
def State.readLog (s : State) (o n : Nat) : Nat := natLE ((List.range n).map (fun k => s.logByte (o + k)))

end Sys2Proof.Machine
end

