-- ==== Sys2Proof/Machine/Mgmt.lean ====
section
/-!
DEFINITION. Accesses to the management space and to function BARs (chapters 00, 14 and 18): which fields a write may change, what
a write of each register does, split writes, refusals of a path.
-/

namespace Sys2Proof.Machine

/-! ### Which values a field takes (R13, R423, and the Meaning columns) -/

/-- Whether slices or models hold an LC reservation, while which SRV_PART keeps its values (R224). -/
def State.lcReserved (s : State) : Bool :=
  (List.range 4096).any (fun i => s.getF .SLC_STATE_STATE i == 2 && (List.range 8).any (fun k => s.lcShare i k != 0)) ||
    (List.range 1024).any (fun m => s.getF .SRV_MDL_SHAPE_LC_SHARE m != 0)

/-- Whether a base of a KV pool lies in a window of section `k`: the section-local region, or the LC-local window. -/
def State.kvBaseOk (s : State) (v base : Nat) : Bool :=
  v * 65536 / 2 ^ 48 == s.node && decide (base ≤ v * 65536 % 2 ^ 48 ∧ v * 65536 % 2 ^ 48 < base + 2 ^ 38)

/-- Whether a write of `v` to a field of unit `i`, in a write of the whole register value `w`, takes effect: the field is not
locked, and the value is one that its Meaning allows (chapters 02, 03, 09, 14, 16, 17). TMP_CLEAN.HI, whose Meaning states no range, keeps
its value where LO would not stay below it (DESIGN CHOICE, log entry 107). -/
def State.mayWriteEdge (s : State) (f : Fld) (i v w : Nat) : Option Bool :=
  match f with
  | .BLK_ALLOY_SEL_TARGET => some (s.edge.straps.alloyRole == 1)
  | .BLK_ESC_UNIT_LIMIT | .BLK_ESC_SEC_LIMIT | .BLK_ESC_BLOCK_LIMIT => some (v != 0)
  | .BLK_ESC_UNIT_WINDOW_S | .BLK_ESC_SEC_WINDOW_S | .BLK_ESC_BLOCK_WINDOW_S => some (v != 0)
  | .BLK_IMG_CTRL_LEN => some (decide (v ≤ 16777216))
  | .PRM_MAX_BOUND_MAX_BOUND => some (bits v 30 2 != 3)
  | .PRM_REMOTE_RT_REMOTE_RT => some (bits v 30 2 != 3 && bits v 0 30 != 0)
  | .TMP_LIMIT_LIMIT_W => some (decide (v ≤ 950))
  | .TMP_VID_VRES => some (v != 0)
  | .TMP_THERM_TJ_AHEAD => some (decide (70 ≤ v ∧ v ≤ 105))
  | .TMP_THERM_MS_HOT => some (decide (60 ≤ v ∧ v ≤ 95))
  | .TMP_TLM_STALE_US => some (decide (25 ≤ v ∧ v ≤ 200))
  | .TMP_TLM_AGE_MAX => some (decide (10 ≤ v ∧ v ≤ 200))
  | .TMP_CLEAN_LO => some (decide (v < bits w 8 6))
  | .TMP_CLEAN_HI => some (decide (bits w 0 6 < v ∨ s.getF .TMP_CLEAN_LO 0 < v))
  | .TMP_DUR_BASE => some (!s.bitF .TMP_DUR_SIZE_EN i)
  | .TMP_DUR_SIZE_SIZE => some (!s.bitF .TMP_DUR_SIZE_EN i && v != 0)
  | .TMP_DUR_SIZE_EN => some false
  | .MBX_BIND_SIDE_A | .MBX_BIND_SIDE_B => some (!s.bitF .MBX_LOCK 0)
  | .FLT_DUMP_BASE =>
    some (s.getF .FLT_DUMP_CTRL_STATUS 0 != 4 && v * 2 ^ 21 / 2 ^ 48 == s.node && s.poolRange (v * 2 ^ 21 % 2 ^ 48) 0x10000000)
  | .SLC_CFG_QUAR_MS => some (decide (100 ≤ v ∧ v ≤ 60000))
  | .SLC_DLOG_BASE | .SLC_DLOG_LO | .SLC_DLOG_PAGES | .SLC_DLOG_CTRL_SLICE => some (!s.bitF .SLC_DLOG_CTRL_EN 0)
  | .SLC_DLOG_CTRL_EN => some false
  | .QCX_CFG_KIND => some (i == 0 && s.qState 0 == 0 && decide (v ≤ 1))
  | .QCX_CFG_LOG2_ENTRIES => some (i == 0 && s.qState 0 == 0 && decide (4 ≤ v ∧ v ≤ 16))
  | .QCX_CFG_BE_OK | .QCX_CFG_LC_OK | .QCX_CFG_IN_ORDER | .QCX_SQ_BASE | .QCX_CQ_BASE | .QCX_TIMEOUT => some (i == 0 && s.qState 0 == 0)
  | _ => none

/-- The same for the fields of chapters 06, 08, 10, 11, 12, 05 and 15. -/
def State.mayWriteCore (s : State) (f : Fld) (i v w : Nat) : Option Bool :=
  match f with
  | .CST_STORE_BASE | .CST_STORE_SIZE_SIZE_MIB => some (s.getF .CST_STORE_USED_USED_KIB 0 == 0)
  | .SRV_CTRL_LC_CAP => some (decide (1 ≤ v ∧ v ≤ 56))
  | .SRV_CTRL_TURN_US => some (decide (100 ≤ v ∧ v ≤ 10000))
  | .SRV_LOAD_RES_SHARE => some (decide (1 ≤ v ∧ v ≤ 64))
  | .SRV_PART_LC_PC => some (!s.lcReserved && !s.bitF .MEM_MAP_LOCK 0 && decide (2 * v ≤ s.chans))
  | .SRV_PART_LC_HTCH | .SRV_PART_LC_CWAYS => some (!s.lcReserved && decide (v ≤ 8))
  | .SRV_HOT_AREA_MIB => some (v % 2 == 0 && decide (v ≤ if i = 0 then 4080 else 4096) &&
      !s.serve.models.any (fun (kv : Nat × ModelX) => kv.2.frames.any (fun f => f.1 == i)))
  | .SRV_KVPOOL_BASE => some ((s.kvUsed false i).isEmpty && s.kvBaseOk v (localBase i))
  | .SRV_KVPOOL_SIZE_PAGES => some (s.kvUsed false i).isEmpty
  | .SRV_KVLC_BASE => some ((s.kvUsed true i).isEmpty && s.kvBaseOk v (lcBase i))
  | .SRV_KVLC_SIZE_PAGES => some (s.kvUsed true i).isEmpty
  | .SRV_MDL_SRC_BASE => some (!s.modelValid i)
  | .SRV_MDL_SIZE_PAGES => some (!s.modelValid i && decide (1 ≤ v ∧ v ≤ 16384))
  | .SRV_MDL_KV_LAYERS => some (!s.modelValid i && v != 0)
  | .SRV_MDL_KV_KV_TOK => some (!s.modelValid i && decide (1 ≤ v ∧ v ≤ 512))
  | .SRV_MDL_SHAPE_LC_SHARE => some (!s.modelValid i && decide (v ≤ s.getF .SRV_CTRL_LC_CAP 0))
  | .SRV_MDL_SHAPE_PREFILL_CAP => some (!s.modelValid i && decide (1 ≤ v ∧ v ≤ 32768))
  | .MEM_MAP_LOCAL_GIB | .MEM_SPARE_RESV_MIB => some (!s.bitF .MEM_MAP_LOCK 0)
  | .MEM_SCRUB_PERIOD_H => some (decide (1 ≤ v ∧ v ≤ 168))
  | .MEM_HDM_BASE => some (!s.bitF .MEM_HDM_CTRL_EN i && decide (v * 2 ^ 28 < 0x080000000000))
  | .MEM_HDM_CTRL_EN => some false
  | .MEM_XCTX_CFG_PORT => some (decide (v ≤ 7))
  | .COH_CTRL_SNP_LIMIT_US => some (decide (10 ≤ v ∧ v ≤ 10000))
  | .COH_CTRL_STAKE_LIFE_US => some (decide (4 ≤ v))
  | .COH_RECALL_RECALL_MS => some (decide (1 ≤ v ∧ v ≤ 10000))
  | .COH_DIR_SEL_WAY => some (decide (v ≤ 271))
  | .FIL_NODE_NODE | .FIL_LEVEL_BASE | .FIL_LEVEL_MASK => some (!s.bitF .FIL_NODE_LOCK 0)
  | .FIL_BE_BE_NODE => some (!s.bitF .FIL_NODE_LOCK 0)
  | .FIL_CTRL_PT_QUANTUM => some (v != 0)
  | .FIL_UMETER_RATE_PIR => some (decide (bits w 0 16 ≤ v))
  | .FIL_UMETER_PBS => some (decide (s.getF .FIL_UMETER_CBS 0 ≤ v))
  | .FIL_PORT_CTRL_ENABLE => some false
  | .FIL_MON_BASE => some (!s.bitF .FIL_MON_CTRL_EN 0)
  | .CUE_DBG_SEL_SPACE => some (decide (v ≤ 4))
  | .SEC_ANCHOR_DIGEST => some (!s.bitF .SEC_CFG_LOCK 0)
  | _ => none

/-- Whether a write of `v` to a field takes effect; a field whose Meaning says nothing of it takes every value. -/
def State.mayWrite (s : State) (f : Fld) (i v w : Nat) : Bool :=
  (s.mayWriteEdge f i v w).getD ((s.mayWriteCore f i v w).getD true)

/-- A value of a field without the reserved bits inside it: FIL_ROUTEi reserves bits 57:24 (Table 12-1, R14). -/
def Fld.listed (f : Fld) (v : Nat) : Nat := if f = .FIL_ROUTE_ENTRY then v / 2 ^ 58 * 2 ^ 58 + v % 2 ^ 24 else v

/-- Write the RW, RL and W1C fields of a register (Table 0-5): those that may not take the value keep theirs (R423). -/
def State.setFields (s : State) (r : RegDesc) (i w : Nat) : State :=
  s.each r.fields (fun s d =>
    let v := d.fld.listed (bits w d.lsb d.width)
    match d.acc with
    | .rw | .rl => if s.mayWrite d.fld i v w then s.setF d.fld i v else s
    | .w1c => s.setF d.fld i (s.getF d.fld i - (s.getF d.fld i &&& v))
    | _ => s)

/-! ### What a write does beside -/

/-- The state that a command of its own leaves, where a register write does the same. -/
def State.after (s : State) (f : State → Result) : State :=
  match f s with
  | .next t => t
  | _ => s

/-- BLK_CTRL: FENCE, WARM and READMIT (R392, R393). -/
def State.writeBlkCtrl (s : State) (w : Nat) : State :=
  let s := if w.testBit 28 then s.warmTrigger 3 0 else if w.testBit 31 then s.warmTrigger 2 0 else s
  if w.testBit 29 then s.readmit else s

/-- TMP_DURn_SIZE: EN set checks and enables the region; cleared, it is ignored while the region has dirty pages (R241). -/
def State.writeDurSize (s : State) (n w : Nat) : State :=
  if w.testBit 63 then s.durEnable n
  else if s.temper.dur.any (fun (kv : Nat × DurPage) => s.durRegion (kv.1 * 4096) == some n) then s
  else s.setF .TMP_DUR_SIZE_EN n 0

/-- The settings of a queue vector's moderator: THRESH 0 is ignored (CIC_VMOD). -/
def State.writeVmod (s : State) (q w : Nat) : State :=
  let old := s.vmod q
  let t := bits w 16 8
  { s with mbx := { s.mbx with vmod := s.mbx.vmod.put q ⟨if t = 0 then old.thresh else t, bits w 0 10⟩ } }

/-- Whether a slice is BUILDING or FROZEN: then its SLC_HOST and SLC_NODE can be written. -/
def State.slcOpen (s : State) (slice : Nat) : Bool := s.slcState slice == 1 || s.slcState slice == 3

/-- SLC_HOSTs: the TDI of the function bound before goes to ERROR (Table 15-4). -/
def State.writeSlcHost (s : State) (slice w : Nat) : State :=
  if s.slcOpen slice then
    (((s.tdiEvent slice).setF .SLC_HOST_BOUND slice (bits w 31 1)).setF .SLC_HOST_PORT slice (bits w 28 3)).setF .SLC_HOST_VF slice (bits w 0 9)
  else s

/-- SLC_NODEs. -/
def State.writeSlcNode (s : State) (slice w : Nat) : State :=
  if s.slcOpen slice then (s.setF .SLC_NODE_RKEY slice (bits w 16 13)).setF .SLC_NODE_NODE slice (bits w 0 16) else s

/-- MEM_XCTX_ROOTs: ignored while a recovery scrub still walks the slice's tables (R396); a locked TDI of the slice goes to ERROR
(Table 15-4); EN cleared drops what is cached about the slice, and a change of ROOT changes its context (R257). -/
def State.writeRoot (s : State) (slice w : Nat) : State :=
  if s.slices.recScrub.contains slice then s
  else
    let moved := s.getF .MEM_XCTX_ROOT_ROOT slice != bits w 12 52 || w % 2 == 0
    let s := ((s.tdiEvent slice).setF .MEM_XCTX_ROOT_ROOT slice (bits w 12 52)).setF .MEM_XCTX_ROOT_EN slice (w % 2)
    let s := if w % 2 = 0 then s.tlbDrop (fun t => t.slice == slice) 0 (2 ^ 36) else s
    if moved then s.contextChanged slice else s

/-- FIL_PORTp_CTRL: ENC_REQ and FENCE are written; a set FENCE fences a live port; ENABLE trains or stops it; REKEY (Table 12-6). -/
def State.writePortCtrl (s : State) (p w : Nat) : State :=
  let s := if w.testBit 30 then s.fencePort p 1 else s
  let s := if w.testBit 31 then s.enablePort p else s.disablePort p
  if w.testBit 28 then s.rekey p else s

/-- CUE_DBG_CTRLc: HALT_REQ, STEP and RESUME (R146). -/
def State.writeDbgCtrl (s : State) (c w : Nat) : State :=
  let s := if w.testBit 31 then s.after (execCueHaltReq c) else s
  let s := if w.testBit 29 then s.after (execCueStep c .expired) else s
  if w.testBit 28 then s.after (execCueResume c) else s

/-- BLK_ALLOY_SEL: a change of TARGET, on an alloy's primary, discards split accesses that it crosses (R421). -/
def State.writeAlloySel (s : State) (w : Nat) : State :=
  if s.mayWrite .BLK_ALLOY_SEL_TARGET 0 (w % 2) w ∧ s.getF .BLK_ALLOY_SEL_TARGET 0 ≠ w % 2 then
    { s.setF .BLK_ALLOY_SEL_TARGET 0 (w % 2) with edge := { s.edge with splitW := [], splitR := [] } }
  else s

/-- A register that is written as a whole by an operation of its own. -/
def State.writeWhole (s : State) (base i w : Nat) : Option State :=
  match base with
  | 0x40 => some (s.writeAlloySel w)
  | 0x48004 => some (s.writeVmod (s.getF .CIC_VMOD_SEL_VECTOR 0) w)
  | 0x80020 => some (s.writeSlcHost i w)
  | 0x80024 => some (s.writeSlcNode i w)
  | 0x701000 => some (s.writeModelCtrl i w)
  | 0x810000 => some (s.writeRoot i w)
  | 0xa40000 => some (s.writeMeter i 0 w)
  | 0xa40004 => some (s.writeMeter i 1 w)
  | 0xa40008 => some (s.writeMeter i 2 w)
  | 0xa4000c => some (s.writeMeter i 3 w)
  | 0xc00038 => some (s.after (execCueDbgDataWrite i (BitVec.ofNat 64 w)))
  | _ => none

/-- What a write of a register's W1S and WO fields, and of the RW fields that act, does once its other fields are written. -/
def State.actOn (s : State) (base i w : Nat) : State :=
  match base with
  | 0x10004 => s.writeBlkCtrl w
  | 0x10090 => if w.testBit 31 then s.imageGo else s
  | 0x10098 => s.imagePush w
  | 0x200c0 => if w.testBit 0 then s.after execPrmCountClr else s
  | 0x30108 => s.writeDurSize i w
  | 0x40010 => s.after (execCicSet (i / 4) (i % 4) (BitVec.ofNat 32 w))
  | 0x50200 => if w.testBit 31 then s.setF .MBX_LOCK 0 1 else s
  | 0x80028 => if w.testBit 31 then (s.tdiEvent i).sliceReset i else s
  | 0xc0010 => if w.testBit 31 then s.dlogOn else s.setF .SLC_DLOG_CTRL_EN 0 0
  | 0xc0040 => if w.testBit 31 then s.moverGo else s
  | 0x100000 => if i = 0 ∧ w.testBit 0 then s.after execQcxActivate else s
  | 0x7000c4 => s.after (execSrvAcctClr (w.testBit 31) (bits w 0 12))
  | 0x800004 => if w.testBit 31 then s.mapLock else s
  | 0x800020 => if w.testBit 31 then s.invGo else s
  | 0x810008 => s.contextChanged i
  | 0x800608 => if w.testBit 31 then s.hdmEnable i else s.setF .MEM_HDM_CTRL_EN i 0
  | 0x90000c => s.after (execCohDeadWrite (BitVec.ofNat 32 w))
  | 0xa00000 => if w.testBit 31 then s.setF .FIL_NODE_LOCK 0 1 else s
  | 0xa01000 => s.writePortCtrl i w
  | 0xa02000 => if w.testBit 31 then s.setF .FIL_MON_VIOL_FIRST 0 0 else s
  | 0xa02020 => if w.testBit 31 then s.injectGo else s
  | 0xb08004 => if w.testBit 0 then s.after execTenClr else s
  | 0xc00004 => s.writeDbgCtrl i w
  | 0xc00050 => if w.testBit 0 then s.after (execCueClr i) else s
  | 0xd00000 => if w.testBit 31 then s.setF .SEC_CFG_LOCK 0 1 else s
  | 0xd00040 => if w.testBit 31 then s.linkStart else s
  | 0xd00050 => if w.testBit 31 then s.pairStart i else s
  | _ => s

/-- A write of a register of unit `i` with its whole value (R417: one event). -/
def State.writeReg (s : State) (r : RegDesc) (i w : Nat) : State :=
  match s.writeWhole r.base i w with
  | some s => s
  | none => (s.setFields r i w).actOn r.base i w

/-- What the low half of a 64-bit register is taken as in a lone high write: RW and RL fields keep their values, the others are
zero (R416). -/
def State.lowKept (s : State) (r : RegDesc) (i : Nat) : Nat :=
  if r.base = 0xc00038 then (s.dbgRead i).1.toNat % 2 ^ 32
  else ((r.fields.map (fun d => if d.acc = .rw ∨ d.acc = .rl then s.getF d.fld i * 2 ^ d.lsb else 0)).foldl (· + ·) 0) % 2 ^ 32

/-! ### Mailbox windows (R357, R359) -/

/-- A word of a channel direction with one half, or the whole, replaced. -/
def MbxDir.put (d : MbxDir) (o size v : Nat) : MbxDir :=
  let i := o / 8 % 8
  let old := (d.words.toList.getD i 0).toNat
  let w := if size = 8 then v else if o % 8 = 0 then old / 2 ^ 32 * 2 ^ 32 + v % 2 ^ 32 else old % 2 ^ 32 + v % 2 ^ 32 * 2 ^ 32
  { d with words := d.words.setIfInBounds i (BitVec.ofNat 64 w) }

/-- A refused access to a channel, recorded (R359). -/
def State.mbxRefuse (s : State) (p : Party) (ch k : Nat) : State := (s.mbxErr ch k).emit (.mbxRefused p ch k)

/-- A write at an offset of a channel's window: a TX word while FULL is clear, or TX_LEN; RO offsets ignore it. -/
def State.mbxWrite (s : State) (p : Party) (ch o size v : Nat) : State :=
  match s.mbxGate ch o p with
  | .inr k => s.mbxRefuse p ch k
  | .inl b =>
    let d := s.mbxDir ch b
    if o < 0x40 then (if d.full then s.mbxErr ch 3 else s.setMbxDir ch b (d.put o size v))
    else if o = 0x40 then s.mbxPost ch b (v % 16)
    else s

/-- STATUS of a channel for side `b`. -/
def State.mbxStatus (s : State) (ch : Nat) (b : Bool) : Nat :=
  let tx := s.mbxDir ch b
  let rx := s.mbxDir ch (!b)
  b2n tx.full * 2 ^ 31 + b2n rx.full * 2 ^ 30 + b2n (s.farOff ch b) * 2 ^ 29 + rx.len * 2 ^ 16 + tx.len

/-- A read at an offset of a channel's window: STATUS stays readable while the far side is off; the read that covers the high
half of the last word takes the message. -/
def State.mbxRead (s : State) (p : Party) (ch o size : Nat) : Nat × State :=
  match s.mbxGate ch o p with
  | .inr k => (0, s.mbxRefuse p ch k)
  | .inl b =>
    if o = 0x48 then (s.mbxStatus ch b, s)
    else if o < 0x80 ∨ 0xC0 ≤ o then (0, s)
    else
      let d := s.mbxDir ch (!b)
      let i := (o - 0x80) / 8
      let w := (d.words.toList.getD i 0).toNat
      let v := if size = 8 then w else if o % 8 = 0 then w % 2 ^ 32 else w / 2 ^ 32
      (v, if (size = 8 ∨ o % 8 = 4) ∧ i + 1 = d.len ∧ d.full then s.mbxTake ch b else s)

/-! ### The management space (R414–R418) -/

/-- Number of a source, for its held half of a split access. -/
def pathKey : Path → Nat
  | .hostPf d => d
  | .hostVf d v => 16 + d * 512 + v
  | .pfBar45 d => 8192 + d
  | .vfBar23 d v => 8208 + d * 512 + v
  | .fil p n => 16384 + p * 65536 + n
  | .i3c => 15

/-- Whether an offset lies in the manager's channel window. -/
def mbxWindow (off : Nat) : Bool := decide (0x51000 ≤ off ∧ off < 0x55000)
/-- Whether an offset lies in the fault log. -/
def logWindow (off : Nat) : Bool := decide (0x70000 ≤ off ∧ off < 0x80000)
/-- Whether an offset lies in the ranges that are served during recovery and FENCED (Table 16-7). -/
def recoveryRange (off : Nat) : Bool := decide (off < 0x100 ∨ 0x10000 ≤ off ∧ off < 0x100A4 ∨ 0x60000 ≤ off ∧ off < 0x80000)
/-- Whether an offset is one that HP0's DVSEC mirrors (R405). -/
def dvsecRange (off : Nat) : Bool := decide (0x10080 ≤ off ∧ off < 0x10084 ∨ 0x10088 ≤ off ∧ off < 0x10094)

/-- Count an ignored access (R415). -/
def State.countAccess (s : State) (off : Nat) : State := (s.bumpF .BLK_ACCESS_COUNT 0).setF .BLK_ACCESS_LAST 0 off

/-- The refusal that an access of `size` bytes to the management space meets: 6 ST_PRIV, 0xE ST_DOMAIN_OFF (R418, R50, R314, Tables 2-11,
16-7). -/
def State.refusal (s : State) (p : Path) (off size : Nat) (write : Bool) : Option Nat :=
  if !s.managerPath p then (if write || decide (0x100A4 < off + size) then some 6 else none)
  else if s.pathShut p && !dvsecRange off then some 6
  else if s.closed && !recoveryRange off then some 0xE
  else none

/-- Whether an access goes to the alloy's secondary, or stands for its identity registers (R421). -/
def State.toSecondary (s : State) (off : Nat) : Bool :=
  s.edge.straps.alloyRole == 1 && s.bitF .BLK_ALLOY_SEL_TARGET 0 && decide (0x10000 ≤ off ∨ 0x100 ≤ off ∧ off < 0x200)

/-- Whether an access's size and alignment act (R415). -/
def sizeOk (p : Path) (off size : Nat) : Bool :=
  (size == 4 && off % 4 == 0) || (size == 8 && off % 8 == 0 && p != .i3c)

/-- The refusal that a manager's access to a channel window meets: 0xE ST_DOMAIN_OFF while the far side is off, 6 ST_PRIV with no side
bound to the manager (R359; DEDUCED, log entry 106). -/
def State.channelRefusal (s : State) (p : Path) (off size : Nat) : Option Nat :=
  if mbxWindow off && sizeOk p off size && !s.toSecondary off then
    match s.mbxGate ((off - 0x51000) / 256) (off % 256) .manager with
    | .inl _ => none
    | .inr 1 => some 0xE
    | .inr _ => some 6
  else none

/-- Hold the low half of a split write. -/
def State.holdLow (s : State) (p : Path) (off v : Nat) : State :=
  { s with edge := { s.edge with splitW := s.edge.splitW.put (pathKey p) ⟨off, v⟩ } }

/-- A 4-byte write at an offset, `held` being the low half held from its source before (R416). -/
def State.write4 (s : State) (p : Path) (held : Option Split) (off v : Nat) : State :=
  if mbxWindow off then s.mbxWrite .manager ((off - 0x51000) / 256) (off % 256) 4 v
  else if logWindow off then s
  else match regAt off with
    | none => s.countAccess off
    | some (r, i, b) =>
      if r.bits ≠ 64 then s.writeReg r i v
      else if b = 0 then s.holdLow p off v
      else match held with
        | some h => s.writeReg r i ((if h.offset + 4 = off then h.value else s.lowKept r i) + v * 2 ^ 32)
        | none => s.writeReg r i (s.lowKept r i + v * 2 ^ 32)

/-- An 8-byte write: one write of a 64-bit register, or two 4-byte ones. -/
def State.write8 (s : State) (p : Path) (off v : Nat) : State :=
  if mbxWindow off then s.mbxWrite .manager ((off - 0x51000) / 256) (off % 256) 8 v
  else match regAt off with
    | some (r, i, 0) => if r.bits = 64 then s.writeReg r i v else (s.writeReg r i (v % 2 ^ 32)).write4 p none (off + 4) (v / 2 ^ 32)
    | _ => (s.write4 p none off (v % 2 ^ 32)).write4 p none (off + 4) (v / 2 ^ 32)

/-- A write to the management space (R415–R418). -/
def State.mgmtWrite (s : State) (p : Path) (off size v : Nat) : State :=
  let held := s.edge.splitW.find (pathKey p)
  let s := { s with edge := { s.edge with splitW := s.edge.splitW.del (pathKey p) } }
  match s.refusal p off size true with
  | some k => s.refusePath p k
  | none =>
    if !sizeOk p off size then s.countAccess off
    else if s.toSecondary off then s.emit (.secondWrite off size v)
    else if size = 8 then s.write8 p off v
    else s.write4 p held off v

/-- A 4-byte read at an offset: the low half of a 64-bit register captures its high half for the source's next read (R416). -/
def State.read4 (s : State) (p : Path) (off : Nat) : Nat × State :=
  if mbxWindow off then s.mbxRead .manager ((off - 0x51000) / 256) (off % 256) 4
  else if logWindow off then (s.readLog (off - 0x70000) 4, s)
  else match regAt off with
    | none => (0, s.countAccess off)
    | some (r, i, b) =>
      if r.bits ≠ 64 then s.readReg r i
      else if b = 0 then
        let (v, s) := s.readReg r i
        (v % 2 ^ 32, { s with edge := { s.edge with splitR := s.edge.splitR.put (pathKey p) ⟨off + 4, v / 2 ^ 32⟩ } })
      else match s.edge.splitR.find (pathKey p) with
        | some h =>
          if h.offset = off then (h.value, { s with edge := { s.edge with splitR := s.edge.splitR.del (pathKey p) } })
          else let (v, s) := s.readReg r i; (v / 2 ^ 32, s)
        | none => let (v, s) := s.readReg r i; (v / 2 ^ 32, s)

/-- A value that the alloy's secondary answers: the block hands the read on (R421). -/
def State.readSecondary (s : State) (off size : Nat) : Nat × State :=
  let (w, s) := (s.emit (.secondRead off size)).freeWord
  (w.toNat % 2 ^ (8 * size), s)

/-- An 8-byte read: one read of a 64-bit register or channel word, or two 4-byte ones. -/
def State.read8 (s : State) (p : Path) (off : Nat) : Nat × State :=
  let halves : Nat × State :=
    let (a, s) := s.read4 p off
    let (b, s) := s.read4 p (off + 4)
    (a + b * 2 ^ 32, s)
  if mbxWindow off then s.mbxRead .manager ((off - 0x51000) / 256) (off % 256) 8
  else match regAt off with
    | some (r, i, 0) => if r.bits = 64 then s.readReg r i else halves
    | _ => halves

/-- A read of 4 or 8 bytes of the management space that its path does not refuse. -/
def State.spaceRead (s : State) (p : Path) (off size : Nat) : Nat × State :=
  if !sizeOk p off size then (0, s.countAccess off)
  else if s.toSecondary off then s.readSecondary off size
  else if size = 4 then s.read4 p off
  else s.read8 p off

/-- A read of 4 or 8 bytes of the management space, or the refusal it meets. -/
def State.mgmtRead (s : State) (p : Path) (off size : Nat) : Sum Nat Nat × State :=
  match s.refusal p off size false with
  | some k => (.inr k, s)
  | none =>
    let (v, t) := s.spaceRead p off size
    (match s.channelRefusal p off size with | some k => .inr k | none => .inl v, t)

/-! ### Function BARs (R358, Table 14-6) -/

/-- The queue in a slot of a slice. -/
def State.queueInSlot (s : State) (slice slot : Nat) : Option Nat := (s.sliceQueues slice).find? (fun q => s.getF .QCX_OWNER_SLOT q == slot)

/-- A 4-byte write of an MSI-X table entry: message address, data, or the mask bit; a message that waited is sent when the mask
clears (R355). -/
def State.msixWrite (s : State) (port : Nat) (vf : Option Nat) (o v : Nat) : State :=
  let e := o / 16
  match o % 16 / 4 with
  | 0 => s.setMsix port vf e (fun x => { x with addr := x.addr / 2 ^ 32 * 2 ^ 32 + v % 2 ^ 32 })
  | 1 => s.setMsix port vf e (fun x => { x with addr := x.addr % 2 ^ 32 + v % 2 ^ 32 * 2 ^ 32 })
  | 2 => s.setMsix port vf e (fun x => { x with data := v % 2 ^ 32 })
  | _ => if v.testBit 0 then s.setMsix port vf e (fun x => { x with masked := true }) else s.unmask port vf e

/-- A 4-byte read of an MSI-X table entry. -/
def State.msixRead (s : State) (port : Nat) (vf : Option Nat) (o : Nat) : Nat :=
  let x := s.mbx.msix.findD (msixKey port vf (o / 16)) MsixVec.fresh
  match o % 16 / 4 with
  | 0 => x.addr % 2 ^ 32
  | 1 => x.addr / 2 ^ 32
  | 2 => x.data
  | _ => b2n x.masked

/-- A 4-byte read of a function's pending-bit array. -/
def State.pbaRead (s : State) (port : Nat) (vf : Option Nat) (o : Nat) : Nat :=
  maskOf ((List.range 32).filter (fun b => (s.mbx.msix.findD (msixKey port vf (8 * o + b)) MsixVec.fresh).pba))

/-- The queue that a CIC_VMOD entry of a virtual function's BAR2/3 acts on: the one in that slot of the function's slice. -/
def State.vmodQueue (s : State) (port vf o : Nat) : Option Nat := (s.sliceOfVf port vf).bind (fun k => s.queueInSlot k ((o - 0x1000) / 4))

/-- CIC_VMOD of a queue, as it reads. -/
def State.vmodRead (s : State) (q : Nat) : Nat := (s.qx q).count % 2 ^ 8 * 2 ^ 24 + (s.vmod q).thresh * 2 ^ 16 + (s.vmod q).delayUs

/-- The party of a channel window in a function's BAR, and the offset in that window (Table 14-6). -/
def barChannel (p : Path) (o : Nat) : Option (Party × Nat) :=
  match p with
  | .pfBar45 d => if 0x20000 ≤ o ∧ o < 0x24000 then some (.hostFn d true 0, o - 0x20000) else none
  | .vfBar23 d vf => if 0x4000 ≤ o ∧ o < 0x8000 then some (.hostFn d false vf, o - 0x4000) else none
  | _ => none

/-- A 4-byte write to a function's BAR outside its channel window. -/
def State.barWrite4 (s : State) (p : Path) (o v : Nat) : State :=
  match p with
  | .pfBar45 d => if o < 0x400 then s.msixWrite d none o v else s
  | .vfBar23 d vf =>
    if o < 0x400 then s.msixWrite d (some vf) o v
    else if 0x1000 ≤ o ∧ o < 0x1100 then (match s.vmodQueue d vf o with | some q => s.writeVmod q v | none => s)
    else s
  | _ => s

/-- A 4-byte read of a function's BAR outside its channel window; what Table 14-6 does not list reads zero. -/
def State.barRead4 (s : State) (p : Path) (o : Nat) : Nat :=
  match p with
  | .pfBar45 d => if o < 0x400 then s.msixRead d none o else if 0x1000 ≤ o ∧ o < 0x1008 then s.pbaRead d none (o - 0x1000) else 0
  | .vfBar23 d vf =>
    if o < 0x400 then s.msixRead d (some vf) o
    else if 0x800 ≤ o ∧ o < 0x808 then s.pbaRead d (some vf) (o - 0x800)
    else if 0x1000 ≤ o ∧ o < 0x1100 then (match s.vmodQueue d vf o with | some q => s.vmodRead q | none => 0)
    else 0
  | _ => 0

/-- A write of 4 or 8 bytes to a function's BAR. -/
def State.barWrite (s : State) (p : Path) (o size v : Nat) : State :=
  match barChannel p o with
  | some (who, c) => s.mbxWrite who (c / 256) (c % 256) size v
  | none => if size = 8 then (s.barWrite4 p o (v % 2 ^ 32)).barWrite4 p (o + 4) (v / 2 ^ 32) else s.barWrite4 p o v

/-- A read of 4 or 8 bytes of a function's BAR. -/
def State.barRead (s : State) (p : Path) (o size : Nat) : Nat × State :=
  match barChannel p o with
  | some (who, c) => s.mbxRead who (c / 256) (c % 256) size
  | none => (s.barRead4 p o + (if size = 8 then s.barRead4 p (o + 4) * 2 ^ 32 else 0), s)

/-! ### Every path -/

/-- A write into the doorbell window at an offset of its pages (R419); queue 0's page goes to the secondary while TARGET is 1. -/
def State.windowWrite (s : State) (p : Path) (off size v : Nat) : State :=
  if p = .i3c ∧ !s.managerPath p then s.refusePath p 6
  else if off / 4096 = 0 ∧ s.managerPath p ∧ s.toSecondary 0x10000 then s.emit (.secondWrite (2 ^ 31 + off) size v)
  else s.pageWrite p (off / 4096) (off % 4096) size v

/-- A write on a path: function BARs for those paths; else the management space, or with offset bit 31 the doorbell window
(R419; for PF0 of a host port bit 31 stands for BAR2/3: DESIGN CHOICE, log entry 71). During cold reset no path is open (Table 2-11). -/
def State.pathWrite (s : State) (p : Path) (off size v : Nat) : State :=
  if !s.edgeUp then s
  else match p with
  | .pfBar45 _ | .vfBar23 _ _ => if s.pathShut p then s.refusePath p 6 else if sizeOk p off size then s.barWrite p off size v else s
  | .hostVf d vf =>
    if s.pathShut p then s.refusePath p 6
    else match (s.sliceOfVf d vf).bind (fun k => s.queueInSlot k (off / 4096)) with
      | some q => s.pageWrite p q (off % 4096) size v
      | none => s
  | _ =>
    if off < 2 ^ 31 then s.mgmtWrite p off size v
    else if off < 2 ^ 31 + 2 ^ 26 then s.windowWrite p (off - 2 ^ 31) size v
    else if s.managerPath p then s.countAccess (off % 2 ^ 26)
    else s.refusePath p 6

/-- A read of the doorbell window at an offset of its pages, or the refusal it meets: queue 0's page only through the management source, and
over Filigree a page only by its queue's own path (R93, R314, Table 18-3). -/
def State.windowRead (s : State) (p : Path) (off size : Nat) : Sum Nat Nat × State :=
  let q := off / 4096
  let shut := match p with
    | .fil _ _ => !s.queuePath q p
    | .i3c => !s.managerPath p
    | _ => q == 0 && !s.managerPath p
  if shut then (.inr 6, s)
  else
    let (v, t) := if q = 0 ∧ s.toSecondary 0x10000 then s.readSecondary (2 ^ 31 + off) size else s.pageRead q (off % 4096) size
    (.inl v, t)

/-- A read of 4 or 8 bytes on a path, or the refusal it meets: the counterpart of `State.pathWrite`. No command of the table reads by a host
path or over MGT; MG_RD and DB_RD read so over Filigree. -/
def State.pathRead (s : State) (p : Path) (off size : Nat) : Sum Nat Nat × State :=
  match p with
  | .pfBar45 _ | .vfBar23 _ _ =>
    if s.pathShut p then (.inr 6, s)
    else if sizeOk p off size then ((.inl (s.barRead p off size).1), (s.barRead p off size).2)
    else (.inl 0, s)
  | .hostVf d vf =>
    if s.pathShut p then (.inr 6, s)
    else match (s.sliceOfVf d vf).bind (fun k => s.queueInSlot k (off / 4096)) with
      | some q => ((.inl (s.pageRead q (off % 4096) size).1), (s.pageRead q (off % 4096) size).2)
      | none => (.inl 0, s)
  | _ =>
    if off < 2 ^ 31 then s.mgmtRead p off size
    else if off < 2 ^ 31 + 2 ^ 26 then s.windowRead p (off - 2 ^ 31) size
    else if s.managerPath p then (.inl 0, s.countAccess (off % 2 ^ 26))
    else (.inr 6, s)

/-- R415: a write of 4 or 8 bytes by the manager, or by a function to its own BARs: it sets the register's fields as their access
types and ranges allow, or is ignored and counted, or refused on its path (R418). -/
def execRegisterWrite (path : Path) (offset size : Nat) (value : Word) (s : State) : Result :=
  .next (s.pathWrite path offset size (value.toNat % 2 ^ (8 * size)))

/-- R416: a 4-byte write of the high half of a 64-bit register at its offset: it completes the low half held from the same source,
or acts alone. -/
def execSplitWriteHigh (path : Path) (offset : Nat) (value : W32) (s : State) : Result :=
  .next (s.pathWrite path offset 4 value.toNat)

end Sys2Proof.Machine
end

