-- ==== Sys2Proof/Machine/Ingress.lean ====
section
/-!
DEFINITION. Messages that arrive on a Filigree port (chapter 12): switching, the checks and meters of the ingress port, delivery,
and the doorbell, management and SPDM messages.
-/

namespace Sys2Proof.Machine

/-! ### Answers of the ingress port (Table 12-7) -/

/-- Send an answer to where a message came from: on the same port to the link partner and while the block or the sender is
unnumbered (R301), else by route. -/
def State.reply (s : State) (p : Nat) (a : Msg) : State :=
  if (s.port p).unnumbered ∨ a.dst = 0xFFFF ∨ a.dst = s.getF .FIL_PORT_STAT_PARTNER p then s.toPort p 0xFFF a else s.send a

/-- Whether an allowance has time left after the incoming link's flight term; none has with UNIT 3 (R65). -/
def State.hasTime (s : State) (p allow : Nat) : Bool := (allowNs allow).any (fun a => decide (s.getF .FIL_PORT_FLIGHT_NS p < a))

/-- The slice whose key slot a message names, bound to a node (R331, SLC_NODE). -/
def State.sliceOfKey (s : State) (key node : Nat) : Option Nat :=
  (List.range 4096).find? (fun i => i != 0 && s.slcState i != 0 && s.getF .SLC_STATE_KEY i == key && s.getF .SLC_NODE_NODE i == node)

/-- The STATUS and REASON that refuse a message's key, if anything does (Table 12-7, R347): a zeroised slot; key 0 without TRUST, a
slot not LIVE or DRAINING or not granted to SRC; for a REQ, a slot of a slice being removed. -/
def State.keyRefusal (s : State) (m : Msg) : Option (Nat × Nat) :=
  if m.key = 0 then (if s.trusted m.srcNode then none else some (8, 2))
  else
    let k := s.keySlot m.key
    if k.zeroised then some (5, 0)
    else if k.state = .free ∨ (s.sliceOfKey m.key m.srcNode).isNone then some (8, 2)
    else if isReq m.kind ∧ k.state = .draining then some (5, 0)
    else none

/-- The meter that an ingress REQ of another node is charged to: that of the slice it names, if the slice is bound to SRC (R319). -/
def State.ingressMeter (s : State) (m : Msg) : Nat :=
  let i := m.slice % 4096
  if i ≠ 0xFFF ∧ i ≠ 0 ∧ s.slcState i ≠ 0 ∧ s.getF .SLC_NODE_NODE i = m.srcNode then i else unboundMeter

/-- The time in ns until a meter's peak bucket holds 128 bytes (R320); without a peak rate it never does, and the longest time stands
for that. -/
def State.redFor (s : State) (meter : Nat) : Nat :=
  let lack : Int := 128 * 1000 - (s.bucketNow meter).tp
  let pir := (s.meterOf meter).2.1
  if pir = 0 then 2 ^ 30 - 1 else ceilDiv lack.toNat pir

/-- A red REQ: NACK_STAKE on the home's behalf, with a ticket of the home to which no entry is assigned before RETRY (R285, R320);
a retry keeps its ticket. -/
def State.nackRed (s : State) (p : Nat) (m : Msg) (meter : Nat) : State :=
  let home := s.homeOf (offOf m)
  let wait := s.redFor meter
  let s := s.bumpF .FIL_PORT_RED_COUNT p
  if m.ticket ≠ 0 ∧ (s.coh.tickets.find (ticketKey home m.ticket)).isSome then
    let later (x : Ticket) : Ticket := if x.assigned.isNone then { x with notBefore := s.now + wait } else x
    { s with coh := { s.coh with tickets := s.coh.tickets.upd (ticketKey home m.ticket) later } }.nackWith m s.now home m.ticket wait
  else
    let (t, s) := s.drawTicket home m.src (s.now + wait)
    s.nackWith m s.now home t wait

/-! ### Delivery -/

/-- A message of the coherence protocol that is taken at this node. -/
def State.deliverMsg (s : State) (m : Msg) : State :=
  match m.kind with
  | .rdShr | .rdOwn | .upg | .rdCur | .wrFull | .wrPart | .cleanLine => s.requestArrives m
  | .snpShr | .snpInv | .snpCur => s.snoopArrives m
  | .wbDirty | .evictClean => s.noticeArrives m
  | .data => s.grantArrives m m.grant
  | .gnt => s.grantArrives m 3
  | .snpData | .rspI | .rspS | .rspEvicting | .rspLost => s.takeAnswer m
  | .cmp => s.cmpArrives m
  | .ack => if s.toHome m then s.homeAck m else s
  | .nackStake => s.nackArrives m
  | .refuse | .expired => s.failArrives m
  | .dead => s.after (execDead m)
  | .homeReset => s.after (execHomeReset m)
  | .recallDone => s.after (execRecallDone m)
  | .rejoin => s.after (execRejoin m)
  | _ => s

/-- A REQ or WB_DIRTY for this node: the checks of Table 12-7 in their order, and the meter for a REQ; while the homes are closed the
edge answers as R296 says. -/
def State.ingress (s : State) (p : Nat) (m : Msg) : State :=
  if s.edgeAnswers || (s.allied && m.srcNode == s.node) then s.deliverMsg m
  else if isReq m.kind && (match s.region (offOf m) with | .hotView _ _ _ | .direct _ _ => true | _ => false) then s.edgeRefuse m 8 2
  else match s.keyRefusal m with
    | some (st, r) => s.edgeRefuse m st r
    | none =>
      if !isReq m.kind then s.deliverMsg m
      else if m.slice % 4096 ≠ 0xFFF ∧ s.bitF .SLC_STATE_FREEZE_DONE (m.slice % 4096) then s.edgeRefuse m 1 1
      else
        let meter := s.ingressMeter m
        let c := s.colour meter 128
        if c = 2 then s.nackRed p m meter
        else (s.charge meter 128).deliverMsg { m with lc := m.lc && c == 0 }

/-! ### Doorbell and management messages (R314) -/

/-- The number that a message's low data bytes give. -/
def dataOf (m : Msg) (n : Nat) : Nat := natLE (fit n m.data)

/-- MG_RSP to a doorbell or management access: data, or a MEANING. -/
def State.mgAnswer (s : State) (p : Nat) (m : Msg) (meaning : Nat) (data : List Byte) : State :=
  s.reply p { s.mkMsg .mgRsp m.srcNode m.addr with txn := m.txn, aux := meaning * 256, data := fit 64 data, src := .node s.node }

/-- DB_WR: a write of the doorbell page at ADDR[25:0]; through a path that is not the queue's it is ignored, and answered ST_PRIV. -/
def State.dbWrite (s : State) (p : Nat) (m : Msg) : State :=
  let off := m.addr % 2 ^ 26
  let path := Path.fil p m.srcNode
  let refused := !s.queuePath (off / 4096) path
  (s.windowWrite path off 4 (dataOf m 4)).mgAnswer p m (if refused then 6 else 0) []

/-- DB_RD: a read of the doorbell window; through a path that is not the queue's it is answered ST_PRIV. -/
def State.dbRead (s : State) (p : Nat) (m : Msg) : State :=
  match s.windowRead (.fil p m.srcNode) (m.addr % 2 ^ 26) 4 with
  | (.inr k, s) => s.mgAnswer p m k []
  | (.inl v, s) => s.mgAnswer p m 0 (bytesLE 4 v)

/-- MG_WR: 8 bytes when MFLAGS[5] is set. -/
def State.mgWrite (s : State) (p : Nat) (m : Msg) : State :=
  let off := m.addr % 2 ^ 26
  let path := Path.fil p m.srcNode
  let n := if m.lc then 8 else 4
  match s.refusal path off n true with
  | some k => s.mgAnswer p m k []
  | none => (s.mgmtWrite path off n (dataOf m n)).mgAnswer p m ((s.channelRefusal path off n).getD 0) []

/-- MG_RD: 8 bytes when MFLAGS[5] is set; off the management source only the identity and block-state ranges. -/
def State.mgRead (s : State) (p : Nat) (m : Msg) : State :=
  match s.mgmtRead (.fil p m.srcNode) (m.addr % 2 ^ 26) (if m.lc then 8 else 4) with
  | (.inr k, s) => s.mgAnswer p m k []
  | (.inl v, s) => s.mgAnswer p m 0 (bytesLE (if m.lc then 8 else 4) v)

/-- R314: DB_WR. -/
def execDbWr (port : Nat) (m : Msg) (s : State) : Result := .next (s.dbWrite port m)

/-- R314: DB_RD. -/
def execDbRd (port : Nat) (m : Msg) (s : State) : Result := .next (s.dbRead port m)

/-- R314: MG_WR. -/
def execMgWr (port : Nat) (m : Msg) (s : State) : Result := .next (s.mgWrite port m)

/-- R314: MG_RD. -/
def execMgRd (port : Nat) (m : Msg) (s : State) : Result := .next (s.mgRead port m)

/-- R306: MG_RSP answers an access that this block would have sent; the block sends none, so it is sunk. -/
def execMgRsp (_port : Nat) (_m : Msg) (s : State) : Result := .next s

/-- R367: SPDM_MSG: a fragment is collected, or aborts its message when it is out of order. -/
def execSpdmMsg (port : Nat) (m : Msg) (s : State) : Result := .next (s.spdmFragment port m)

/-! ### FLIT_MSG -/

/-- The residence of the switch, in ns, that a REQ's allowance must cover (R312, Table 12-9: 5.0 ns guaranteed). -/
def switchNs : Nat := 5

/-- Whether a message is meant for the home of its line. -/
def forHome (k : MsgKind) : Bool :=
  isReq k || (match k with | .wbDirty | .evictClean | .snpData | .rspI | .rspS | .rspEvicting | .rspLost | .ack => true | _ => false)

/-- A message that leaves again: a REQ must cover the switch's residence; without a live port it is unroutable, and refused (R303, R312, R313). -/
def State.switchMsg (s : State) (p : Nat) (m : Msg) : State :=
  match (if isReq m.kind then (allowNs m.allow).map (fun a => decide (switchNs ≤ a - m.late)) else some true) with
  | some true =>
    match s.send? (switchSub p) m with
    | some s => s
    | none => s.edgeRefuse m 8 1
  | _ => s.expireReq m

/-- A message taken locally: by its class. One for the home of a line that the other block of an alloy homes goes on to that block (R298). -/
def State.takeMsg (s : State) (p : Nat) (m : Msg) : State :=
  if s.allied && m.srcNode != s.node && forHome m.kind && m.addr >>> 48 == s.node && s.otherHomes (m.addr % 2 ^ 48) then s.switchMsg p m else
  let m := { m with src := .node m.srcNode }
  match m.kind with
  | .dbWr => s.dbWrite p m
  | .dbRd => s.dbRead p m
  | .mgWr => s.mgWrite p m
  | .mgRd => s.mgRead p m
  | .mgRsp | .signal => s
  | .spdmMsg => s.spdmFragment p m
  | .wbDirty => s.ingress p m
  | k => if isReq k then s.ingress p m else s.deliverMsg m

/-- Where a message goes: local, unroutable, or on. Messages between an unnumbered block or sender and its link partner are local, and a port
trained unnumbered carries none further (R301). -/
def State.routeMsg (s : State) (p : Nat) (m : Msg) : State :=
  if m.dst = 0xFFFF ∧ (s.port p).unnumbered then s.takeMsg p m
  else if (s.port p).unnumbered ∧ m.srcNode = 0xFFFF ∧ m.dst ≠ s.node then s
  else match s.route m.dst true with
    | .here => s.takeMsg p m
    | .unroutable => if m.kind = MsgKind.signal then s.bumpF .CIC_MSTAT_DROPPED 0 else s.edgeRefuse m 8 1
    | .via _ =>
      if m.kind = MsgKind.signal then (match s.send? (switchSub p) m with | some s => s | none => s.bumpF .CIC_MSTAT_DROPPED 0)
      -- a request or a notice of a member of the alloy whose gateway this block is (R298)
      else if s.alloyNodes.contains m.srcNode && !s.inAlloy m.addr && !s.edgeAnswers && (isReq m.kind || msgCls m.kind == 2) then
        s.deliverMsg { m with src := .node m.srcNode }
      else s.switchMsg p m

/-- R308, R312, R313, R319: a MSG flit is checked, credited and acknowledged; its message loses the incoming link's flight term, and is
switched or taken locally; without time left a REQ expires (R65). One of an unassigned type counts as a CRC error (Table 12-2). -/
def execFlitMsg (port : Nat) (flit : Flit) (s : State) : Result :=
  match s.receive port { flit with ftype := if flit.ftype ≤ 2 then 1 else flit.ftype } with
  | (none, s) => .next s
  | (some m, s) =>
    if isReq m.kind && !s.hasTime port m.allow then .next (s.expireReq m)
    else .next (s.routeMsg port { m with late := s.getF .FIL_PORT_FLIGHT_NS port })

end Sys2Proof.Machine
end

