-- ==== Sys2Proof/Machine/Dispatch.lean ====
section
/-!
DEFINITION. The dispatch: each command to its meaning.
-/

namespace Sys2Proof.Machine

/-- The effect of a command on everything but the queue of waiting commands. -/
def exec (i : Instr) (s : State) : Host.Outcome State Fault Refusal :=
  match i with
  | .porstNLow => Sys2Proof.Machine.execPorstNLow s
  | .porstNRise straps build => Sys2Proof.Machine.execPorstNRise straps build s
  | .coreLeavesReset => Sys2Proof.Machine.execCoreLeavesReset s
  | .wrstNLow heldNs => Sys2Proof.Machine.execWrstNLow heldNs s
  | .edgePwrOkFall => Sys2Proof.Machine.execEdgePwrOkFall s
  | .corePwrOkFall => Sys2Proof.Machine.execCorePwrOkFall s
  | .corePwrOkRise => Sys2Proof.Machine.execCorePwrOkRise s
  | .iaModuleDegrade die module => Sys2Proof.Machine.execIaModuleDegrade die module s
  | .iaModuleFail die module => Sys2Proof.Machine.execIaModuleFail die module s
  | .adapterRetryExhausted die module => Sys2Proof.Machine.execAdapterRetryExhausted die module s
  | .iaLinkPowerState die module => Sys2Proof.Machine.execIaLinkPowerState die module s
  | .tlmRecord bytes => Sys2Proof.Machine.execTlmRecord bytes s
  | .tlmStale => Sys2Proof.Machine.execTlmStale s
  | .tlmStaleFault => Sys2Proof.Machine.execTlmStaleFault s
  | .vidAckRise => Sys2Proof.Machine.execVidAckRise s
  | .vidAckFall => Sys2Proof.Machine.execVidAckFall s
  | .vidAckLate => Sys2Proof.Machine.execVidAckLate s
  | .pstCredit credits => Sys2Proof.Machine.execPstCredit credits s
  | .pstPersisted epoch => Sys2Proof.Machine.execPstPersisted epoch s
  | .pstFailed epoch => Sys2Proof.Machine.execPstFailed epoch s
  | .pstEpochSend => Sys2Proof.Machine.execPstEpochSend s
  | .i3cEntdaa address => Sys2Proof.Machine.execI3cEntdaa address s
  | .trefLoss => Sys2Proof.Machine.execTrefLoss s
  | .trefRestored => Sys2Proof.Machine.execTrefRestored s
  | .trefLostTimeout => Sys2Proof.Machine.execTrefLostTimeout s
  | .burnishReading values => Sys2Proof.Machine.execBurnishReading values s
  | .temperWindow temps => Sys2Proof.Machine.execTemperWindow temps s
  | .sqTailWrite path queue value => Sys2Proof.Machine.execSqTailWrite path queue value s
  | .cqHeadWrite path queue value => Sys2Proof.Machine.execCqHeadWrite path queue value s
  | .idleHintWrite path queue value => Sys2Proof.Machine.execIdleHintWrite path queue value s
  | .cancelWrite path queue value => Sys2Proof.Machine.execCancelWrite path queue value s
  | .tailLineSnoop queue reads => Sys2Proof.Machine.execTailLineSnoop queue reads s
  | .descriptorFetch core reads => Sys2Proof.Machine.execDescriptorFetch core reads s
  | .ringAccessFailure queue failure => Sys2Proof.Machine.execRingAccessFailure queue failure s
  | .admission queue reads => Sys2Proof.Machine.execAdmission queue reads s
  | .run item => Sys2Proof.Machine.execRun item s
  | .launch item => Sys2Proof.Machine.execLaunch item s
  | .fence item => Sys2Proof.Machine.execFence item s
  | .nop item => Sys2Proof.Machine.execNop item s
  | .createSlice item reads => Sys2Proof.Machine.execCreateSlice item reads s
  | .resizeSlice item reads => Sys2Proof.Machine.execResizeSlice item reads s
  | .freezeSlice item => Sys2Proof.Machine.execFreezeSlice item s
  | .freezeDrainDone slice => Sys2Proof.Machine.execFreezeDrainDone slice s
  | .saveIngot item reads => Sys2Proof.Machine.execSaveIngot item reads s
  | .restoreIngot item reads check => Sys2Proof.Machine.execRestoreIngot item reads check s
  | .thaw item => Sys2Proof.Machine.execThaw item s
  | .retireSlice item => Sys2Proof.Machine.execRetireSlice item s
  | .retireKeyZeroise slice => Sys2Proof.Machine.execRetireKeyZeroise slice s
  | .createQueue item reads => Sys2Proof.Machine.execCreateQueue item reads s
  | .destroyQueue item => Sys2Proof.Machine.execDestroyQueue item s
  | .queueReleaseDone queue => Sys2Proof.Machine.execQueueReleaseDone queue s
  | .releaseLimitExpiry item => Sys2Proof.Machine.execReleaseLimitExpiry item s
  | .pauseQueue item => Sys2Proof.Machine.execPauseQueue item s
  | .resumeQueue item => Sys2Proof.Machine.execResumeQueue item s
  | .qcxActivate => Sys2Proof.Machine.execQcxActivate s
  | .registerCast item reads => Sys2Proof.Machine.execRegisterCast item reads s
  | .patchCast item reads => Sys2Proof.Machine.execPatchCast item reads s
  | .castVersionSwitch => Sys2Proof.Machine.execCastVersionSwitch s
  | .registerBackend item reads => Sys2Proof.Machine.execRegisterBackend item reads s
  | .pinModel item => Sys2Proof.Machine.execPinModel item s
  | .unpinModel item => Sys2Proof.Machine.execUnpinModel item s
  | .touchstone item => Sys2Proof.Machine.execTouchstone item s
  | .itemTimeout item => Sys2Proof.Machine.execItemTimeout item s
  | .runLimitExpiry item => Sys2Proof.Machine.execRunLimitExpiry item s
  | .itemEnd item => Sys2Proof.Machine.execItemEnd item s
  | .prmCountClr => Sys2Proof.Machine.execPrmCountClr s
  | .add core guard rd ra rb => Sys2Proof.Machine.execAdd core guard rd ra rb s
  | .sub core guard rd ra rb => Sys2Proof.Machine.execSub core guard rd ra rb s
  | .and core guard rd ra rb => Sys2Proof.Machine.execAnd core guard rd ra rb s
  | .or core guard rd ra rb => Sys2Proof.Machine.execOr core guard rd ra rb s
  | .xor core guard rd ra rb => Sys2Proof.Machine.execXor core guard rd ra rb s
  | .andn core guard rd ra rb => Sys2Proof.Machine.execAndn core guard rd ra rb s
  | .shl core guard rd ra rb => Sys2Proof.Machine.execShl core guard rd ra rb s
  | .shr core guard rd ra rb => Sys2Proof.Machine.execShr core guard rd ra rb s
  | .sra core guard rd ra rb => Sys2Proof.Machine.execSra core guard rd ra rb s
  | .mul core guard rd ra rb => Sys2Proof.Machine.execMul core guard rd ra rb s
  | .mulh core guard rd ra rb => Sys2Proof.Machine.execMulh core guard rd ra rb s
  | .mulhu core guard rd ra rb => Sys2Proof.Machine.execMulhu core guard rd ra rb s
  | .min core guard rd ra rb => Sys2Proof.Machine.execMin core guard rd ra rb s
  | .max core guard rd ra rb => Sys2Proof.Machine.execMax core guard rd ra rb s
  | .minu core guard rd ra rb => Sys2Proof.Machine.execMinu core guard rd ra rb s
  | .maxu core guard rd ra rb => Sys2Proof.Machine.execMaxu core guard rd ra rb s
  | .sextB core guard rd ra => Sys2Proof.Machine.execSextB core guard rd ra s
  | .sextH core guard rd ra => Sys2Proof.Machine.execSextH core guard rd ra s
  | .sextW core guard rd ra => Sys2Proof.Machine.execSextW core guard rd ra s
  | .popc core guard rd ra => Sys2Proof.Machine.execPopc core guard rd ra s
  | .clz core guard rd ra => Sys2Proof.Machine.execClz core guard rd ra s
  | .addi core guard rd ra imm => Sys2Proof.Machine.execAddi core guard rd ra imm s
  | .andi core guard rd ra imm => Sys2Proof.Machine.execAndi core guard rd ra imm s
  | .ori core guard rd ra imm => Sys2Proof.Machine.execOri core guard rd ra imm s
  | .xori core guard rd ra imm => Sys2Proof.Machine.execXori core guard rd ra imm s
  | .shli core guard rd ra sh => Sys2Proof.Machine.execShli core guard rd ra sh s
  | .shri core guard rd ra sh => Sys2Proof.Machine.execShri core guard rd ra sh s
  | .srai core guard rd ra sh => Sys2Proof.Machine.execSrai core guard rd ra sh s
  | .lui core guard rd imm => Sys2Proof.Machine.execLui core guard rd imm s
  | .cmpEq core guard pd ra rb => Sys2Proof.Machine.execCmpEq core guard pd ra rb s
  | .cmpNe core guard pd ra rb => Sys2Proof.Machine.execCmpNe core guard pd ra rb s
  | .cmpLt core guard pd ra rb => Sys2Proof.Machine.execCmpLt core guard pd ra rb s
  | .cmpLtu core guard pd ra rb => Sys2Proof.Machine.execCmpLtu core guard pd ra rb s
  | .cmpGe core guard pd ra rb => Sys2Proof.Machine.execCmpGe core guard pd ra rb s
  | .cmpGeu core guard pd ra rb => Sys2Proof.Machine.execCmpGeu core guard pd ra rb s
  | .cmpiEq core guard pd ra imm => Sys2Proof.Machine.execCmpiEq core guard pd ra imm s
  | .cmpiNe core guard pd ra imm => Sys2Proof.Machine.execCmpiNe core guard pd ra imm s
  | .cmpiLt core guard pd ra imm => Sys2Proof.Machine.execCmpiLt core guard pd ra imm s
  | .cmpiLtu core guard pd ra imm => Sys2Proof.Machine.execCmpiLtu core guard pd ra imm s
  | .psetAnd core guard pd pa pb => Sys2Proof.Machine.execPsetAnd core guard pd pa pb s
  | .psetOr core guard pd pa pb => Sys2Proof.Machine.execPsetOr core guard pd pa pb s
  | .psetXor core guard pd pa pb => Sys2Proof.Machine.execPsetXor core guard pd pa pb s
  | .psetAndn core guard pd pa pb => Sys2Proof.Machine.execPsetAndn core guard pd pa pb s
  | .br core guard imm => Sys2Proof.Machine.execBr core guard imm s
  | .call core guard imm => Sys2Proof.Machine.execCall core guard imm s
  | .jr core guard rd ra => Sys2Proof.Machine.execJr core guard rd ra s
  | .ldB core guard rd ra imm answer => Sys2Proof.Machine.execLdB core guard rd ra imm answer s
  | .ldH core guard rd ra imm answer => Sys2Proof.Machine.execLdH core guard rd ra imm answer s
  | .ldW core guard rd ra imm answer => Sys2Proof.Machine.execLdW core guard rd ra imm answer s
  | .ldD core guard rd ra imm answer => Sys2Proof.Machine.execLdD core guard rd ra imm answer s
  | .ldlB core guard rd ra imm => Sys2Proof.Machine.execLdlB core guard rd ra imm s
  | .ldlH core guard rd ra imm => Sys2Proof.Machine.execLdlH core guard rd ra imm s
  | .ldlW core guard rd ra imm => Sys2Proof.Machine.execLdlW core guard rd ra imm s
  | .ldlD core guard rd ra imm => Sys2Proof.Machine.execLdlD core guard rd ra imm s
  | .stB core guard rs ra imm answer => Sys2Proof.Machine.execStB core guard rs ra imm answer s
  | .stH core guard rs ra imm answer => Sys2Proof.Machine.execStH core guard rs ra imm answer s
  | .stW core guard rs ra imm answer => Sys2Proof.Machine.execStW core guard rs ra imm answer s
  | .stD core guard rs ra imm answer => Sys2Proof.Machine.execStD core guard rs ra imm answer s
  | .stlB core guard rs ra imm => Sys2Proof.Machine.execStlB core guard rs ra imm s
  | .stlH core guard rs ra imm => Sys2Proof.Machine.execStlH core guard rs ra imm s
  | .stlW core guard rs ra imm => Sys2Proof.Machine.execStlW core guard rs ra imm s
  | .stlD core guard rs ra imm => Sys2Proof.Machine.execStlD core guard rs ra imm s
  | .amoAdd core guard rd ra rb aq rl d answer => Sys2Proof.Machine.execAmoAdd core guard rd ra rb aq rl d answer s
  | .amoSwap core guard rd ra rb aq rl d answer => Sys2Proof.Machine.execAmoSwap core guard rd ra rb aq rl d answer s
  | .amoCas core guard rd ra rb aq rl d answer => Sys2Proof.Machine.execAmoCas core guard rd ra rb aq rl d answer s
  | .amoMin core guard rd ra rb aq rl d answer => Sys2Proof.Machine.execAmoMin core guard rd ra rb aq rl d answer s
  | .amoMax core guard rd ra rb aq rl d answer => Sys2Proof.Machine.execAmoMax core guard rd ra rb aq rl d answer s
  | .amoMinu core guard rd ra rb aq rl d answer => Sys2Proof.Machine.execAmoMinu core guard rd ra rb aq rl d answer s
  | .amoMaxu core guard rd ra rb aq rl d answer => Sys2Proof.Machine.execAmoMaxu core guard rd ra rb aq rl d answer s
  | .cueFence core guard mask => Sys2Proof.Machine.execCueFence core guard mask s
  | .cwr core guard rd cw => Sys2Proof.Machine.execCwr core guard rd cw s
  | .cww core guard cw ra => Sys2Proof.Machine.execCww core guard cw ra s
  | .waite core guard rd any mask => Sys2Proof.Machine.execWaite core guard rd any mask s
  | .yield core guard => Sys2Proof.Machine.execYield core guard s
  | .budget core guard rd ra => Sys2Proof.Machine.execBudget core guard rd ra s
  | .signalCore core guard ra src => Sys2Proof.Machine.execSignalCore core guard ra src s
  | .signalQueue core guard => Sys2Proof.Machine.execSignalQueue core guard s
  | .enq core guard rd ra qid => Sys2Proof.Machine.execEnq core guard rd ra qid s
  | .tissue core guard hd ra te => Sys2Proof.Machine.execTissue core guard hd ra te s
  | .missue core guard hd ra rb rc srcWin dstWin me zero => Sys2Proof.Machine.execMissue core guard hd ra rb rc srcWin dstWin me zero s
  | .done core guard ra => Sys2Proof.Machine.execDone core guard ra s
  | .endSrc core guard src => Sys2Proof.Machine.execEndSrc core guard src s
  | .trap core guard code => Sys2Proof.Machine.execTrap core guard code s
  | .mbxSend core guard rd ra rb n => Sys2Proof.Machine.execMbxSend core guard rd ra rb n s
  | .mbxRecv core guard rd ra rb => Sys2Proof.Machine.execMbxRecv core guard rd ra rb s
  | .eret core guard => Sys2Proof.Machine.execEret core guard s
  | .interruptEntry core => Sys2Proof.Machine.execInterruptEntry core s
  | .stretchExpiry core => Sys2Proof.Machine.execStretchExpiry core s
  | .cueHaltReq core => Sys2Proof.Machine.execCueHaltReq core s
  | .cueHalted core => Sys2Proof.Machine.execCueHalted core s
  | .cueStep core answer => Sys2Proof.Machine.execCueStep core answer s
  | .cueResume core => Sys2Proof.Machine.execCueResume core s
  | .cueBreakpoint core => Sys2Proof.Machine.execCueBreakpoint core s
  | .cueDbgDataWrite core value => Sys2Proof.Machine.execCueDbgDataWrite core value s
  | .cueClr core => Sys2Proof.Machine.execCueClr core s
  | .castNodeStart item reads => Sys2Proof.Machine.execCastNodeStart item reads s
  | .notifyLineWrite backend launch => Sys2Proof.Machine.execNotifyLineWrite backend launch s
  | .backendWboundExpiry backend token => Sys2Proof.Machine.execBackendWboundExpiry backend token s
  | .todMatmul op => Sys2Proof.Machine.execTodMatmul op s
  | .todVectorAdd op => Sys2Proof.Machine.execTodVectorAdd op s
  | .todVectorMul op => Sys2Proof.Machine.execTodVectorMul op s
  | .todVectorMax op => Sys2Proof.Machine.execTodVectorMax op s
  | .todVectorMin op => Sys2Proof.Machine.execTodVectorMin op s
  | .todVectorFma op => Sys2Proof.Machine.execTodVectorFma op s
  | .todVectorExp op => Sys2Proof.Machine.execTodVectorExp op s
  | .todVectorSilu op => Sys2Proof.Machine.execTodVectorSilu op s
  | .todVectorGelu op => Sys2Proof.Machine.execTodVectorGelu op s
  | .todVectorRsqrt op => Sys2Proof.Machine.execTodVectorRsqrt op s
  | .todVectorConvert op => Sys2Proof.Machine.execTodVectorConvert op s
  | .todReduceSum op => Sys2Proof.Machine.execTodReduceSum op s
  | .todReduceMax op => Sys2Proof.Machine.execTodReduceMax op s
  | .todReduceSumsq op => Sys2Proof.Machine.execTodReduceSumsq op s
  | .todNormRms op => Sys2Proof.Machine.execTodNormRms op s
  | .todNormLayer op => Sys2Proof.Machine.execTodNormLayer op s
  | .todCbLoad op => Sys2Proof.Machine.execTodCbLoad op s
  | .todAttend op => Sys2Proof.Machine.execTodAttend op s
  | .engineUnitEnd unit => Sys2Proof.Machine.execEngineUnitEnd unit s
  | .engineOpComplete op => Sys2Proof.Machine.execEngineOpComplete op s
  | .engineHangExpiry unit => Sys2Proof.Machine.execEngineHangExpiry unit s
  | .moveHangExpiry engine => Sys2Proof.Machine.execMoveHangExpiry engine s
  | .moveOpComplete op answer => Sys2Proof.Machine.execMoveOpComplete op answer s
  | .engineRemoteRefusal op answer => Sys2Proof.Machine.execEngineRemoteRefusal op answer s
  | .tenClr => Sys2Proof.Machine.execTenClr s
  | .modelLoadStart => Sys2Proof.Machine.execModelLoadStart s
  | .modelLoadComplete => Sys2Proof.Machine.execModelLoadComplete s
  | .modelLoadPoison page => Sys2Proof.Machine.execModelLoadPoison page s
  | .stepStart model => Sys2Proof.Machine.execStepStart model s
  | .stepEnd model outcome => Sys2Proof.Machine.execStepEnd model outcome s
  | .srvAcctClr all slice => Sys2Proof.Machine.execSrvAcctClr all slice s
  | .srvMdlValidWrite model value => Sys2Proof.Machine.execSrvMdlValidWrite model value s
  | .tmpDurEnable region => Sys2Proof.Machine.execTmpDurEnable region s
  | .memHdmEnable die => Sys2Proof.Machine.execMemHdmEnable die s
  | .memMapLock => Sys2Proof.Machine.execMemMapLock s
  | .tlbInvalidate => Sys2Proof.Machine.execTlbInvalidate s
  | .tlbInvalidateDone => Sys2Proof.Machine.execTlbInvalidateDone s
  | .atsInvalidation port vf page pages => Sys2Proof.Machine.execAtsInvalidation port vf page pages s
  | .patrolScrub offset found => Sys2Proof.Machine.execPatrolScrub offset found s
  | .trnDone stack ok stat => Sys2Proof.Machine.execTrnDone stack ok stat s
  | .stackTrainTimeout stack => Sys2Proof.Machine.execStackTrainTimeout stack s
  | .spareMoveComplete stack row => Sys2Proof.Machine.execSpareMoveComplete stack row s
  | .rdShr m => Sys2Proof.Machine.execRdShr m s
  | .rdOwn m => Sys2Proof.Machine.execRdOwn m s
  | .upgMsg m => Sys2Proof.Machine.execUpgMsg m s
  | .rdCur m => Sys2Proof.Machine.execRdCur m s
  | .wrFull m => Sys2Proof.Machine.execWrFull m s
  | .wrPart m => Sys2Proof.Machine.execWrPart m s
  | .cleanLine m => Sys2Proof.Machine.execCleanLine m s
  | .snpShr m => Sys2Proof.Machine.execSnpShr m s
  | .snpInv m => Sys2Proof.Machine.execSnpInv m s
  | .snpCur m => Sys2Proof.Machine.execSnpCur m s
  | .wbDirty m => Sys2Proof.Machine.execWbDirty m s
  | .evictClean m => Sys2Proof.Machine.execEvictClean m s
  | .dataMsg m => Sys2Proof.Machine.execDataMsg m s
  | .snpData m => Sys2Proof.Machine.execSnpData m s
  | .rspI m => Sys2Proof.Machine.execRspI m s
  | .rspS m => Sys2Proof.Machine.execRspS m s
  | .rspEvicting m => Sys2Proof.Machine.execRspEvicting m s
  | .rspLost m => Sys2Proof.Machine.execRspLost m s
  | .gntMsg m => Sys2Proof.Machine.execGntMsg m s
  | .cmpMsg m => Sys2Proof.Machine.execCmpMsg m s
  | .ackMsg m => Sys2Proof.Machine.execAckMsg m s
  | .nackStake m => Sys2Proof.Machine.execNackStake m s
  | .stakeRetry line => Sys2Proof.Machine.execStakeRetry line s
  | .stakeLapse home ticket => Sys2Proof.Machine.execStakeLapse home ticket s
  | .refuse m => Sys2Proof.Machine.execRefuse m s
  | .expired m => Sys2Proof.Machine.execExpired m s
  | .dead m => Sys2Proof.Machine.execDead m s
  | .homeReset m => Sys2Proof.Machine.execHomeReset m s
  | .recallDone m => Sys2Proof.Machine.execRecallDone m s
  | .rejoin m => Sys2Proof.Machine.execRejoin m s
  | .snoopTimeout txn => Sys2Proof.Machine.execSnoopTimeout txn s
  | .lineEviction holder line => Sys2Proof.Machine.execLineEviction holder line s
  | .hostLinkDown port => Sys2Proof.Machine.execHostLinkDown port s
  | .cohDeadWrite value => Sys2Proof.Machine.execCohDeadWrite value s
  | .recallWindowClose => Sys2Proof.Machine.execRecallWindowClose s
  | .edgeCoreAnswer m => Sys2Proof.Machine.execEdgeCoreAnswer m s
  | .flitMsg port flit => Sys2Proof.Machine.execFlitMsg port flit s
  | .flitIdle port flit => Sys2Proof.Machine.execFlitIdle port flit s
  | .flitTrain port flit => Sys2Proof.Machine.execFlitTrain port flit s
  | .linkAckTimer port => Sys2Proof.Machine.execLinkAckTimer port s
  | .egressFlitSend port => Sys2Proof.Machine.execEgressFlitSend port s
  | .dbWr port m => Sys2Proof.Machine.execDbWr port m s
  | .dbRd port m => Sys2Proof.Machine.execDbRd port m s
  | .mgWr port m => Sys2Proof.Machine.execMgWr port m s
  | .mgRd port m => Sys2Proof.Machine.execMgRd port m s
  | .mgRsp port m => Sys2Proof.Machine.execMgRsp port m s
  | .filSignal port m => Sys2Proof.Machine.execFilSignal port m s
  | .spdmMsg port m => Sys2Proof.Machine.execSpdmMsg port m s
  | .portEnable port => Sys2Proof.Machine.execPortEnable port s
  | .portDisable port => Sys2Proof.Machine.execPortDisable port s
  | .portFence port cause => Sys2Proof.Machine.execPortFence port cause s
  | .portTrainingDone port trips major minor partner => Sys2Proof.Machine.execPortTrainingDone port trips major minor partner s
  | .portTrainingFail port => Sys2Proof.Machine.execPortTrainingFail port s
  | .portTrainingRetry port => Sys2Proof.Machine.execPortTrainingRetry port s
  | .portRekey port => Sys2Proof.Machine.execPortRekey port s
  | .filNodeLock => Sys2Proof.Machine.execFilNodeLock s
  | .filSlcMeterWrite slice register value => Sys2Proof.Machine.execFilSlcMeterWrite slice register value s
  | .faultInject => Sys2Proof.Machine.execFaultInject s
  | .slcReset slice => Sys2Proof.Machine.execSlcReset slice s
  | .functionLevelReset port vf => Sys2Proof.Machine.execFunctionLevelReset port vf s
  | .sliceResetDone slice => Sys2Proof.Machine.execSliceResetDone slice s
  | .keyQuarantineExpiry slot => Sys2Proof.Machine.execKeyQuarantineExpiry slot s
  | .scrubComplete slice => Sys2Proof.Machine.execScrubComplete slice s
  | .dirtyLogEnable => Sys2Proof.Machine.execDirtyLogEnable s
  | .dirtyLogWalkDone => Sys2Proof.Machine.execDirtyLogWalkDone s
  | .pageMoverGo => Sys2Proof.Machine.execPageMoverGo s
  | .pageMoverDone answer => Sys2Proof.Machine.execPageMoverDone answer s
  | .cicSet core word value => Sys2Proof.Machine.execCicSet core word value s
  | .cicPendClear core word value => Sys2Proof.Machine.execCicPendClear core word value s
  | .moderatorTimerExpiry queue => Sys2Proof.Machine.execModeratorTimerExpiry queue s
  | .msixUnmask port pf vf entry => Sys2Proof.Machine.execMsixUnmask port pf vf entry s
  | .cicMcauseClear value => Sys2Proof.Machine.execCicMcauseClear value s
  | .mbxTxLen party channel value => Sys2Proof.Machine.execMbxTxLen party channel value s
  | .mbxRxLastRead party channel => Sys2Proof.Machine.execMbxRxLastRead party channel s
  | .mbxLock => Sys2Proof.Machine.execMbxLock s
  | .mbxDomainReturn channel => Sys2Proof.Machine.execMbxDomainReturn channel s
  | .getVersion port => Sys2Proof.Machine.execGetVersion port s
  | .getCapabilities port => Sys2Proof.Machine.execGetCapabilities port s
  | .negotiateAlgorithms port offered => Sys2Proof.Machine.execNegotiateAlgorithms port offered s
  | .getDigests port => Sys2Proof.Machine.execGetDigests port s
  | .getCertificate port offset length => Sys2Proof.Machine.execGetCertificate port offset length s
  | .challenge port nonce => Sys2Proof.Machine.execChallenge port nonce s
  | .getMeasurements port nonce => Sys2Proof.Machine.execGetMeasurements port nonce s
  | .keyExchange port check partner => Sys2Proof.Machine.execKeyExchange port check partner s
  | .finish port session check => Sys2Proof.Machine.execFinish port session check s
  | .keyUpdate port session => Sys2Proof.Machine.execKeyUpdate port session s
  | .heartbeat port session => Sys2Proof.Machine.execHeartbeat port session s
  | .heartbeatLapse session => Sys2Proof.Machine.execHeartbeatLapse session s
  | .endSession port session => Sys2Proof.Machine.execEndSession port session s
  | .chunkSend port index last bytes => Sys2Proof.Machine.execChunkSend port index last bytes s
  | .chunkGet port index => Sys2Proof.Machine.execChunkGet port index s
  | .spdmUnsupported port code => Sys2Proof.Machine.execSpdmUnsupported port code s
  | .ideKmQuery port => Sys2Proof.Machine.execIdeKmQuery port s
  | .ideKmKeyProg port stream keySet => Sys2Proof.Machine.execIdeKmKeyProg port stream keySet s
  | .ideKmKSetGo port stream keySet => Sys2Proof.Machine.execIdeKmKSetGo port stream keySet s
  | .ideKmKSetStop port stream keySet => Sys2Proof.Machine.execIdeKmKSetStop port stream keySet s
  | .getTdispVersion port vf => Sys2Proof.Machine.execGetTdispVersion port vf s
  | .getTdispCapabilities port vf => Sys2Proof.Machine.execGetTdispCapabilities port vf s
  | .lockInterfaceRequest port vf => Sys2Proof.Machine.execLockInterfaceRequest port vf s
  | .getDeviceInterfaceReport port vf => Sys2Proof.Machine.execGetDeviceInterfaceReport port vf s
  | .getDeviceInterfaceState port vf => Sys2Proof.Machine.execGetDeviceInterfaceState port vf s
  | .startInterfaceRequest port vf => Sys2Proof.Machine.execStartInterfaceRequest port vf s
  | .stopInterfaceRequest port vf => Sys2Proof.Machine.execStopInterfaceRequest port vf s
  | .linkSessionStart => Sys2Proof.Machine.execLinkSessionStart s
  | .migrationPairingStart pairing => Sys2Proof.Machine.execMigrationPairingStart pairing s
  | .secCfgLock => Sys2Proof.Machine.execSecCfgLock s
  | .teReset unit => Sys2Proof.Machine.execTeReset unit s
  | .cueReset core => Sys2Proof.Machine.execCueReset core s
  | .moveReset engine => Sys2Proof.Machine.execMoveReset engine s
  | .unitResetDone unit check => Sys2Proof.Machine.execUnitResetDone unit check s
  | .unitResetTimeout unit => Sys2Proof.Machine.execUnitResetTimeout unit s
  | .sectionReset sec => Sys2Proof.Machine.execSectionReset sec s
  | .sectionResetTimeout sec => Sys2Proof.Machine.execSectionResetTimeout sec s
  | .warmResetTrigger cause => Sys2Proof.Machine.execWarmResetTrigger cause s
  | .blkCtrlWarm => Sys2Proof.Machine.execBlkCtrlWarm s
  | .blkCtrlFence => Sys2Proof.Machine.execBlkCtrlFence s
  | .blkCtrlReadmit => Sys2Proof.Machine.execBlkCtrlReadmit s
  | .dumpUnitTimeout => Sys2Proof.Machine.execDumpUnitTimeout s
  | .dumpTimeout => Sys2Proof.Machine.execDumpTimeout s
  | .recoveryScrub slice => Sys2Proof.Machine.execRecoveryScrub slice s
  | .startStageBegin stage => Sys2Proof.Machine.execStartStageBegin stage s
  | .startStageComplete stage => Sys2Proof.Machine.execStartStageComplete stage s
  | .startStageFail stage code => Sys2Proof.Machine.execStartStageFail stage code s
  | .startStageRetry stage => Sys2Proof.Machine.execStartStageRetry stage s
  | .imageGo => Sys2Proof.Machine.execImageGo s
  | .imageDataPush value => Sys2Proof.Machine.execImageDataPush value s
  | .imageFetchComplete image signatureOk => Sys2Proof.Machine.execImageFetchComplete image signatureOk s
  | .touchstoneBorrow item unit => Sys2Proof.Machine.execTouchstoneBorrow item unit s
  | .touchstoneTestDone item unit check => Sys2Proof.Machine.execTouchstoneTestDone item unit check s
  | .touchstoneDeadline item => Sys2Proof.Machine.execTouchstoneDeadline item s
  | .registerWrite path offset size value => Sys2Proof.Machine.execRegisterWrite path offset size value s
  | .splitWriteHigh path offset value => Sys2Proof.Machine.execSplitWriteHigh path offset value s
  | .iaModuleTrained die module half => Sys2Proof.Machine.execIaModuleTrained die module half s
  | .hostLinkUp port => Sys2Proof.Machine.execHostLinkUp port s
  | .sectionResetDone sec => Sys2Proof.Machine.execSectionResetDone sec s
  | .directoryWalkDone home => Sys2Proof.Machine.execDirectoryWalkDone home s
  | .hopAllowanceExpiry port m => Sys2Proof.Machine.execHopAllowanceExpiry port m s

end Sys2Proof.Machine
end

