-- ==== Sys2Proof/Machine/Tick.lean ====
section
/-!
DEFINITION. What passes when no command waits: one nanosecond of the TREF count (R8, R51), the contexts that idle cores
take up, what a Quench does once the items that it ended are gone, and the seed list that waited for a telemetry record.
-/

namespace Sys2Proof.Machine

/-- One nanosecond passes (DESIGN CHOICE, log entry 2: the table has no row for a tick, nor for the resumption of a parked context):
completions that left the block land, lines that writes wait for are taken from holders outside, lines that the block watches are read again where they were written, each idle core runs the
context that R218 chooses, a Quench goes on, a clean epoch that is due opens, transactions that waited for coverage end, a seed list
whose wait is over starts, HEARTBEATs that are due go out, and move engines move on. -/
def tick (s : State) : State :=
  (((({ s with now := s.now + 1 }).landAll.tendTakes.tendTails.tendBackends).each (List.range 64) State.dispatch).quenchGoOn.cleanStart.homes.seedStart.sendBeats).each
    (List.range 32) State.moveOn

end Sys2Proof.Machine
end

