-- ==== Sys2Proof/WellFormed.lean ====
section
/-!
DEFINITION. Well-formed commands: every operand lies in the range that the spec gives it. What is out of range names no
unit of the block; the meanings leave the state alone there or act as the rule they follow says.
-/

namespace Sys2Proof

/-! ### Units (Tables 1-1 to 1-3, R401) -/

/-- One of the 64 cue cores. -/
def coreInRange (c : Nat) : Bool := decide (c < 64)
/-- One of the 8 sections. -/
def sectionInRange (k : Nat) : Bool := decide (k < 8)
/-- One of the 8 section homes. -/
def homeInRange (k : Nat) : Bool := decide (k < 8)
/-- One of the 32 move engines. -/
def engineInRange (m : Nat) : Bool := decide (m < 32)
/-- A tensor engine, 0–47, or an attention unit, 48–55. -/
def tensorUnitInRange (u : Nat) : Bool := decide (u < 56)
/-- A unit of FLT_RSTu below a section. -/
def unitInRange (u : Nat) : Bool := decide (u < 152)
/-- A unit that Touchstone borrows: a unit of FLT_RSTu, or the spine as 160. -/
def touchUnitInRange (u : Nat) : Bool := decide (u ≤ 160)
/-- One of at most 20 stacks (R20). -/
def stackInRange (n : Nat) : Bool := decide (n < 20)
/-- One of at most 8 I/O dies. -/
def dieInRange (d : Nat) : Bool := decide (d < 8)
/-- One of the 4 UCIe modules of a die (R35). -/
def moduleInRange (m : Nat) : Bool := decide (m < 4)
/-- A Filigree port. -/
def filPortInRange (p : Nat) : Bool := decide (p < 64)
/-- A host port. -/
def hostPortInRange (d : Nat) : Bool := decide (d < 8)
/-- A virtual function of a host port. -/
def vfInRange (v : Nat) : Bool := decide (v < 512)
/-- A line of 64 bytes of a 64-bit address. -/
def lineInRange (l : Nat) : Bool := decide (l < 2 ^ 58)

/-! ### Numbered objects -/

/-- One of the 16,384 queues (R87). -/
def queueInRange (q : Nat) : Bool := decide (q < 16384)
/-- One of the 4,096 slices. -/
def sliceInRange (s : Nat) : Bool := decide (s < 4096)
/-- One of the 1,024 model slots. -/
def modelInRange (m : Nat) : Bool := decide (m < 1024)
/-- One of the 64 backends (R165). -/
def backendInRange (b : Nat) : Bool := decide (b < 64)
/-- One of the 64 mailbox channels (R356). -/
def channelInRange (c : Nat) : Bool := decide (c < 64)
/-- One of the 64 durable regions (R241). -/
def regionInRange (r : Nat) : Bool := decide (r < 64)
/-- One of the 4,352 key slots. -/
def slotInRange (k : Nat) : Bool := decide (k < 4352)
/-- One of the 4 migration pairings. -/
def pairingInRange (p : Nat) : Bool := decide (p < 4)
/-- A word of a core's pending sources (R350). -/
def wordInRange (w : Nat) : Bool := decide (w < 4)
/-- A register of a slice's meter (R319). -/
def meterRegisterInRange (r : Nat) : Bool := decide (r < 4)
/-- A start stage (R402). -/
def stageInRange (n : Nat) : Bool := decide (1 ≤ n ∧ n ≤ 7)
/-- A vector of a function's MSI-X table. -/
def vectorInRange (v : Nat) : Bool := decide (v < 64)
/-- A stream of IDE_KM (R373). -/
def streamInRange (n : Nat) : Bool := decide (n < 32)
/-- A key set of a stream. -/
def keySetInRange (k : Nat) : Bool := decide (k < 2)
/-- A cause of FIL_PORTp_STAT. -/
def fenceCauseInRange (c : Nat) : Bool := decide (1 ≤ c ∧ c ≤ 5)
/-- A cause of BLK_CAUSE. -/
def warmCauseInRange (c : Nat) : Bool := decide (1 ≤ c ∧ c ≤ 6)
/-- Credits that a persist-channel packet grants. -/
def creditsInRange (n : Nat) : Bool := decide (n < 2 ^ 32)
/-- An offset of the 64 MiB window (R415). -/
def offsetInRange (o : Nat) : Bool := decide (o < 0x4000000)
/-- The size of a register access: 4 or 8 bytes (R416). -/
def sizeInRange (n : Nat) : Bool := decide (n = 4 ∨ n = 8)
/-- A node number. -/
def nodeInRange (n : Nat) : Bool := decide (n < 65536)

/-! ### Structures -/

/-- A member that exists. -/
def Who.wellFormed : Who → Bool
  | .core c => coreInRange c
  | .gateway k => decide (k ≤ 8)
  | .host d => hostPortInRange d
  | .node n => nodeInRange n
  | .fabric => true
  | .uncached k => decide (k ≤ 8)

/-- A message whose fields have the widths of Table 12-3. -/
def Msg.wellFormed (m : Msg) : Bool :=
  m.src.wellFormed && nodeInRange m.srcNode && nodeInRange m.dst && decide (m.addr < 2 ^ 64) && decide (m.key < 2 ^ 13) &&
  decide (m.allow < 2 ^ 32) && m.late == 0 && decide (m.txn < 2 ^ 16) && (sliceInRange m.slice || m.slice == 0xFFFF) && decide (m.ticket < 2 ^ 32) &&
  decide (m.aux < 2 ^ 32) && decide (m.mask < 2 ^ 64) && decide (m.data.length ≤ 64) && decide (m.grant < 4)

/-- A flit whose fields have the widths of Table 12-2. -/
def Flit.wellFormed (f : Flit) : Bool :=
  decide (f.ftype < 256) && decide (f.seq < 65536) && decide (f.ack < 65536) && decide (f.crdClass < 8) && decide (f.crdCount < 8192) &&
  f.msg.all Msg.wellFormed

/-- A path of Table 18-3 whose port, function and node exist. -/
def Path.wellFormed : Path → Bool
  | .pfBar45 p => hostPortInRange p
  | .vfBar23 p v => hostPortInRange p && vfInRange v
  | .hostPf p => hostPortInRange p
  | .hostVf p v => hostPortInRange p && vfInRange v
  | .fil p n => filPortInRange p && nodeInRange n
  | .i3c => true

/-- A mailbox party that exists. -/
def Party.wellFormed : Party → Bool
  | .steward c => coreInRange c
  | .guest c s => coreInRange c && sliceInRange s
  | .hostFn p _ v => hostPortInRange p && vfInRange v
  | .manager => true

/-- A port at which SPDM messages arrive. -/
def SpdmPort.wellFormed : SpdmPort → Bool
  | .host d => hostPortInRange d
  | .link p => filPortInRange p
  | .peer n => nodeInRange n

/-- Straps of the widths of Table 2-12. -/
def Straps.wellFormed (x : Straps) : Bool :=
  decide (x.mgtSrc < 4) && filPortInRange x.mgtFp && decide (x.i3cSa < 128) && decide (x.alloyRole < 4)

/-- Build parameters that R20, R24 and R28 allow: 4 to 20 stacks of at most 64 GiB, 1 to 8 I/O dies. -/
def Build.wellFormed (b : Build) : Bool :=
  decide (4 ≤ b.stks ∧ b.stks ≤ 20) && decide (1 ≤ b.dies ∧ b.dies ≤ 8) && decide (b.stackGib ≤ 64) && decide (b.stepping < 256) &&
  decide (b.uid < 2 ^ 64)

/-! ### Commands -/

/-- Every operand of the command is in range. -/
def Instr.wellFormed : Instr → Bool
  | .porstNLow => true
  | .porstNRise straps build => straps.wellFormed && build.wellFormed
  | .coreLeavesReset => true
  | .wrstNLow _ => true
  | .edgePwrOkFall => true
  | .corePwrOkFall => true
  | .corePwrOkRise => true
  | .iaModuleDegrade die module => dieInRange die && moduleInRange module
  | .iaModuleFail die module => dieInRange die && moduleInRange module
  | .adapterRetryExhausted die module => dieInRange die && moduleInRange module
  | .iaLinkPowerState die module => dieInRange die && moduleInRange module
  | .tlmRecord _ => true
  | .tlmStale => true
  | .tlmStaleFault => true
  | .vidAckRise => true
  | .vidAckFall => true
  | .vidAckLate => true
  | .pstCredit credits => creditsInRange credits
  | .pstPersisted _ => true
  | .pstFailed _ => true
  | .pstEpochSend => true
  | .i3cEntdaa _ => true
  | .trefLoss => true
  | .trefRestored => true
  | .trefLostTimeout => true
  | .burnishReading _ => true
  | .temperWindow _ => true
  | .sqTailWrite path queue _ => path.wellFormed && queueInRange queue
  | .cqHeadWrite path queue _ => path.wellFormed && queueInRange queue
  | .idleHintWrite path queue _ => path.wellFormed && queueInRange queue
  | .cancelWrite path queue _ => path.wellFormed && queueInRange queue
  | .tailLineSnoop queue _ => queueInRange queue
  | .descriptorFetch core _ => coreInRange core
  | .ringAccessFailure queue _ => queueInRange queue
  | .admission queue _ => queueInRange queue
  | .run _ => true
  | .launch _ => true
  | .fence _ => true
  | .nop _ => true
  | .createSlice _ _ => true
  | .resizeSlice _ _ => true
  | .freezeSlice _ => true
  | .freezeDrainDone slice => sliceInRange slice
  | .saveIngot _ _ => true
  | .restoreIngot _ _ _ => true
  | .thaw _ => true
  | .retireSlice _ => true
  | .retireKeyZeroise slice => sliceInRange slice
  | .createQueue _ _ => true
  | .destroyQueue _ => true
  | .queueReleaseDone queue => queueInRange queue
  | .releaseLimitExpiry _ => true
  | .pauseQueue _ => true
  | .resumeQueue _ => true
  | .qcxActivate => true
  | .registerCast _ _ => true
  | .patchCast _ _ => true
  | .castVersionSwitch => true
  | .registerBackend _ _ => true
  | .pinModel _ => true
  | .unpinModel _ => true
  | .touchstone _ => true
  | .itemTimeout _ => true
  | .runLimitExpiry _ => true
  | .itemEnd _ => true
  | .prmCountClr => true
  | .add core _ _ _ _ => coreInRange core
  | .sub core _ _ _ _ => coreInRange core
  | .and core _ _ _ _ => coreInRange core
  | .or core _ _ _ _ => coreInRange core
  | .xor core _ _ _ _ => coreInRange core
  | .andn core _ _ _ _ => coreInRange core
  | .shl core _ _ _ _ => coreInRange core
  | .shr core _ _ _ _ => coreInRange core
  | .sra core _ _ _ _ => coreInRange core
  | .mul core _ _ _ _ => coreInRange core
  | .mulh core _ _ _ _ => coreInRange core
  | .mulhu core _ _ _ _ => coreInRange core
  | .min core _ _ _ _ => coreInRange core
  | .max core _ _ _ _ => coreInRange core
  | .minu core _ _ _ _ => coreInRange core
  | .maxu core _ _ _ _ => coreInRange core
  | .sextB core _ _ _ => coreInRange core
  | .sextH core _ _ _ => coreInRange core
  | .sextW core _ _ _ => coreInRange core
  | .popc core _ _ _ => coreInRange core
  | .clz core _ _ _ => coreInRange core
  | .addi core _ _ _ _ => coreInRange core
  | .andi core _ _ _ _ => coreInRange core
  | .ori core _ _ _ _ => coreInRange core
  | .xori core _ _ _ _ => coreInRange core
  | .shli core _ _ _ _ => coreInRange core
  | .shri core _ _ _ _ => coreInRange core
  | .srai core _ _ _ _ => coreInRange core
  | .lui core _ _ _ => coreInRange core
  | .cmpEq core _ _ _ _ => coreInRange core
  | .cmpNe core _ _ _ _ => coreInRange core
  | .cmpLt core _ _ _ _ => coreInRange core
  | .cmpLtu core _ _ _ _ => coreInRange core
  | .cmpGe core _ _ _ _ => coreInRange core
  | .cmpGeu core _ _ _ _ => coreInRange core
  | .cmpiEq core _ _ _ _ => coreInRange core
  | .cmpiNe core _ _ _ _ => coreInRange core
  | .cmpiLt core _ _ _ _ => coreInRange core
  | .cmpiLtu core _ _ _ _ => coreInRange core
  | .psetAnd core _ _ _ _ => coreInRange core
  | .psetOr core _ _ _ _ => coreInRange core
  | .psetXor core _ _ _ _ => coreInRange core
  | .psetAndn core _ _ _ _ => coreInRange core
  | .br core _ _ => coreInRange core
  | .call core _ _ => coreInRange core
  | .jr core _ _ _ => coreInRange core
  | .ldB core _ _ _ _ _ => coreInRange core
  | .ldH core _ _ _ _ _ => coreInRange core
  | .ldW core _ _ _ _ _ => coreInRange core
  | .ldD core _ _ _ _ _ => coreInRange core
  | .ldlB core _ _ _ _ => coreInRange core
  | .ldlH core _ _ _ _ => coreInRange core
  | .ldlW core _ _ _ _ => coreInRange core
  | .ldlD core _ _ _ _ => coreInRange core
  | .stB core _ _ _ _ _ => coreInRange core
  | .stH core _ _ _ _ _ => coreInRange core
  | .stW core _ _ _ _ _ => coreInRange core
  | .stD core _ _ _ _ _ => coreInRange core
  | .stlB core _ _ _ _ => coreInRange core
  | .stlH core _ _ _ _ => coreInRange core
  | .stlW core _ _ _ _ => coreInRange core
  | .stlD core _ _ _ _ => coreInRange core
  | .amoAdd core _ _ _ _ _ _ _ _ => coreInRange core
  | .amoSwap core _ _ _ _ _ _ _ _ => coreInRange core
  | .amoCas core _ _ _ _ _ _ _ _ => coreInRange core
  | .amoMin core _ _ _ _ _ _ _ _ => coreInRange core
  | .amoMax core _ _ _ _ _ _ _ _ => coreInRange core
  | .amoMinu core _ _ _ _ _ _ _ _ => coreInRange core
  | .amoMaxu core _ _ _ _ _ _ _ _ => coreInRange core
  | .cueFence core _ _ => coreInRange core
  | .cwr core _ _ _ => coreInRange core
  | .cww core _ _ _ => coreInRange core
  | .waite core _ _ _ _ => coreInRange core
  | .yield core _ => coreInRange core
  | .budget core _ _ _ => coreInRange core
  | .signalCore core _ _ _ => coreInRange core
  | .signalQueue core _ => coreInRange core
  | .enq core _ _ _ _ => coreInRange core
  | .tissue core _ _ _ _ => coreInRange core
  | .missue core _ _ _ _ _ _ _ _ _ => coreInRange core
  | .done core _ _ => coreInRange core
  | .endSrc core _ _ => coreInRange core
  | .trap core _ _ => coreInRange core
  | .mbxSend core _ _ _ _ _ => coreInRange core
  | .mbxRecv core _ _ _ _ => coreInRange core
  | .eret core _ => coreInRange core
  | .interruptEntry core => coreInRange core
  | .stretchExpiry core => coreInRange core
  | .cueHaltReq core => coreInRange core
  | .cueHalted core => coreInRange core
  | .cueStep core _ => coreInRange core
  | .cueResume core => coreInRange core
  | .cueBreakpoint core => coreInRange core
  | .cueDbgDataWrite core _ => coreInRange core
  | .cueClr core => coreInRange core
  | .castNodeStart _ _ => true
  | .notifyLineWrite backend _ => backendInRange backend
  | .backendWboundExpiry backend _ => backendInRange backend
  | .todMatmul _ => true
  | .todVectorAdd _ => true
  | .todVectorMul _ => true
  | .todVectorMax _ => true
  | .todVectorMin _ => true
  | .todVectorFma _ => true
  | .todVectorExp _ => true
  | .todVectorSilu _ => true
  | .todVectorGelu _ => true
  | .todVectorRsqrt _ => true
  | .todVectorConvert _ => true
  | .todReduceSum _ => true
  | .todReduceMax _ => true
  | .todReduceSumsq _ => true
  | .todNormRms _ => true
  | .todNormLayer _ => true
  | .todCbLoad _ => true
  | .todAttend _ => true
  | .engineUnitEnd unit => unitInRange unit.unit
  | .engineOpComplete _ => true
  | .engineHangExpiry unit => tensorUnitInRange unit
  | .moveHangExpiry engine => engineInRange engine
  | .moveOpComplete _ _ => true
  | .engineRemoteRefusal _ _ => true
  | .tenClr => true
  | .modelLoadStart => true
  | .modelLoadComplete => true
  | .modelLoadPoison _ => true
  | .stepStart model => modelInRange model
  | .stepEnd model _ => modelInRange model
  | .srvAcctClr _ slice => sliceInRange slice
  | .srvMdlValidWrite model _ => modelInRange model
  | .tmpDurEnable region => regionInRange region
  | .memHdmEnable die => dieInRange die
  | .memMapLock => true
  | .tlbInvalidate => true
  | .tlbInvalidateDone => true
  | .atsInvalidation port vf _ _ => hostPortInRange port && vfInRange vf
  | .patrolScrub _ _ => true
  | .trnDone stack _ _ => stackInRange stack
  | .stackTrainTimeout stack => stackInRange stack
  | .spareMoveComplete stack _ => stackInRange stack || decide (32 ≤ stack ∧ stack < 40)
  | .rdShr m => m.wellFormed
  | .rdOwn m => m.wellFormed
  | .upgMsg m => m.wellFormed
  | .rdCur m => m.wellFormed
  | .wrFull m => m.wellFormed
  | .wrPart m => m.wellFormed
  | .cleanLine m => m.wellFormed
  | .snpShr m => m.wellFormed
  | .snpInv m => m.wellFormed
  | .snpCur m => m.wellFormed
  | .wbDirty m => m.wellFormed
  | .evictClean m => m.wellFormed
  | .dataMsg m => m.wellFormed
  | .snpData m => m.wellFormed
  | .rspI m => m.wellFormed
  | .rspS m => m.wellFormed
  | .rspEvicting m => m.wellFormed
  | .rspLost m => m.wellFormed
  | .gntMsg m => m.wellFormed
  | .cmpMsg m => m.wellFormed
  | .ackMsg m => m.wellFormed
  | .nackStake m => m.wellFormed
  | .stakeRetry line => lineInRange line
  | .stakeLapse home _ => homeInRange home
  | .refuse m => m.wellFormed
  | .expired m => m.wellFormed
  | .dead m => m.wellFormed
  | .homeReset m => m.wellFormed
  | .recallDone m => m.wellFormed
  | .rejoin m => m.wellFormed
  | .snoopTimeout _ => true
  | .lineEviction holder line => holder.wellFormed && lineInRange line
  | .hostLinkDown port => hostPortInRange port
  | .cohDeadWrite _ => true
  | .recallWindowClose => true
  | .edgeCoreAnswer m => m.wellFormed
  | .flitMsg port flit => filPortInRange port && flit.wellFormed
  | .flitIdle port flit => filPortInRange port && flit.wellFormed
  | .flitTrain port flit => filPortInRange port && flit.wellFormed
  | .linkAckTimer port => filPortInRange port
  | .egressFlitSend port => filPortInRange port
  | .dbWr port m => filPortInRange port && m.wellFormed
  | .dbRd port m => filPortInRange port && m.wellFormed
  | .mgWr port m => filPortInRange port && m.wellFormed
  | .mgRd port m => filPortInRange port && m.wellFormed
  | .mgRsp port m => filPortInRange port && m.wellFormed
  | .filSignal port m => filPortInRange port && m.wellFormed
  | .spdmMsg port m => filPortInRange port && m.wellFormed
  | .portEnable port => filPortInRange port
  | .portDisable port => filPortInRange port
  | .portFence port cause => filPortInRange port && fenceCauseInRange cause
  | .portTrainingDone port _ _ _ _ => filPortInRange port
  | .portTrainingFail port => filPortInRange port
  | .portTrainingRetry port => filPortInRange port
  | .portRekey port => filPortInRange port
  | .filNodeLock => true
  | .filSlcMeterWrite slice register _ => sliceInRange slice && meterRegisterInRange register
  | .faultInject => true
  | .slcReset slice => sliceInRange slice
  | .functionLevelReset port vf => hostPortInRange port && vfInRange vf
  | .sliceResetDone slice => sliceInRange slice
  | .keyQuarantineExpiry slot => slotInRange slot
  | .scrubComplete slice => sliceInRange slice
  | .dirtyLogEnable => true
  | .dirtyLogWalkDone => true
  | .pageMoverGo => true
  | .pageMoverDone _ => true
  | .cicSet core word _ => coreInRange core && wordInRange word
  | .cicPendClear core word _ => coreInRange core && wordInRange word
  | .moderatorTimerExpiry queue => queueInRange queue
  | .msixUnmask port _ vf entry => hostPortInRange port && vfInRange vf && vectorInRange entry
  | .cicMcauseClear _ => true
  | .mbxTxLen party channel _ => party.wellFormed && channelInRange channel
  | .mbxRxLastRead party channel => party.wellFormed && channelInRange channel
  | .mbxLock => true
  | .mbxDomainReturn channel => channelInRange channel
  | .getVersion port => port.wellFormed
  | .getCapabilities port => port.wellFormed
  | .negotiateAlgorithms port _ => port.wellFormed
  | .getDigests port => port.wellFormed
  | .getCertificate port _ _ => port.wellFormed
  | .challenge port _ => port.wellFormed
  | .getMeasurements port _ => port.wellFormed
  | .keyExchange port _ _ => port.wellFormed
  | .finish port _ _ => port.wellFormed
  | .keyUpdate port _ => port.wellFormed
  | .heartbeat port _ => port.wellFormed
  | .heartbeatLapse _ => true
  | .endSession port _ => port.wellFormed
  | .chunkSend port _ _ _ => port.wellFormed
  | .chunkGet port _ => port.wellFormed
  | .spdmUnsupported port _ => port.wellFormed
  | .ideKmQuery port => hostPortInRange port
  | .ideKmKeyProg port stream keySet => hostPortInRange port && streamInRange stream && keySetInRange keySet
  | .ideKmKSetGo port stream keySet => hostPortInRange port && streamInRange stream && keySetInRange keySet
  | .ideKmKSetStop port stream keySet => hostPortInRange port && streamInRange stream && keySetInRange keySet
  | .getTdispVersion port vf => hostPortInRange port && vfInRange vf
  | .getTdispCapabilities port vf => hostPortInRange port && vfInRange vf
  | .lockInterfaceRequest port vf => hostPortInRange port && vfInRange vf
  | .getDeviceInterfaceReport port vf => hostPortInRange port && vfInRange vf
  | .getDeviceInterfaceState port vf => hostPortInRange port && vfInRange vf
  | .startInterfaceRequest port vf => hostPortInRange port && vfInRange vf
  | .stopInterfaceRequest port vf => hostPortInRange port && vfInRange vf
  | .linkSessionStart => true
  | .migrationPairingStart pairing => pairingInRange pairing
  | .secCfgLock => true
  | .teReset unit => tensorUnitInRange unit
  | .cueReset core => coreInRange core
  | .moveReset engine => engineInRange engine
  | .unitResetDone unit _ => unitInRange unit
  | .unitResetTimeout unit => unitInRange unit
  | .sectionReset sec => sectionInRange sec
  | .sectionResetTimeout sec => sectionInRange sec
  | .warmResetTrigger cause => warmCauseInRange cause
  | .blkCtrlWarm => true
  | .blkCtrlFence => true
  | .blkCtrlReadmit => true
  | .dumpUnitTimeout => true
  | .dumpTimeout => true
  | .recoveryScrub slice => sliceInRange slice
  | .startStageBegin stage => stageInRange stage
  | .startStageComplete stage => stageInRange stage
  | .startStageFail stage _ => stageInRange stage
  | .startStageRetry stage => stageInRange stage
  | .imageGo => true
  | .imageDataPush _ => true
  | .imageFetchComplete _ _ => true
  | .touchstoneBorrow _ unit => touchUnitInRange unit
  | .touchstoneTestDone _ unit _ => touchUnitInRange unit
  | .touchstoneDeadline _ => true
  | .registerWrite path offset size _ => path.wellFormed && offsetInRange offset && sizeInRange size
  | .splitWriteHigh path offset _ => path.wellFormed && offsetInRange offset
  | .iaModuleTrained die module _ => dieInRange die && moduleInRange module
  | .hostLinkUp port => hostPortInRange port
  | .sectionResetDone sec => sectionInRange sec
  | .directoryWalkDone home => homeInRange home
  | .hopAllowanceExpiry port m => port.all filPortInRange && m.wellFormed

end Sys2Proof
end

