-- ==== Sys2Proof/Safety.lean ====
section
/-!
DEFINITION. What the statements speak of: the forms of state that every step keeps, when a Cue instruction executes, and
what an instruction changes when it retires.
-/

namespace Sys2Proof.Machine

/-! ### Canonical state -/

/-- The register store is canonical: places strictly rising, every stored value inside its field and not its reset value, so that
equal registers are equal data and no field passes the width that its register table gives it (R10, R12). -/
def State.regsOk (s : State) : Prop :=
  s.regs.rising = true ∧ ∀ (f : Fld) (i v : Nat), s.regs.find (fkey f i) = some v → v < 2 ^ f.width ∧ v ≠ f.reset

/-- The byte store of the pool is canonical: offsets strictly rising, no zero byte listed. -/
def State.memoryOk (s : State) : Prop := Memory.wf s.mem.cells = true

/-- The form of state that every step keeps. -/
def State.ok (s : State) : Prop := s.regsOk ∧ s.memoryOk

/-! ### Cue instructions -/

/-- Core `c` executes a legal instruction of `len` bytes at its pc, and its guard is true: the core is up and runs, the pc is
aligned, the fetch is allowed (R121–R123, R151). -/
def State.runs (s : State) (c : Nat) (g : Guard) (len : Nat) : Prop :=
  s.executes c = true ∧ (s.ctx c).pc.toNat % 4 = 0 ∧ s.fetchOk c len = true ∧ (s.ctx c).guardOk g = true

/-- `t` is `s` after one instruction of core `c` retired and left the core as `k`: nothing else differs but the core's count of
retired instructions and the pc that CUE_PC reports. -/
def Retired (s t : State) (c : Nat) (k : Core) : Prop :=
  t.core c = k ∧ (∀ d, d ≠ c → t.core d = s.core d) ∧
  t = { s with regs := t.regs, work := { s.work with cores := t.work.cores } } ∧
  t.getF .CUE_RETIRED_COUNT c = (s.getF .CUE_RETIRED_COUNT c + 1) % 2 ^ 32 ∧
  t.getF .CUE_PC c = (s.ctx c).pc.toNat / 4 ∧
  ∀ (f : Fld) (i : Nat), ¬ (i = c ∧ (f = .CUE_RETIRED_COUNT ∨ f = .CUE_PC)) → t.getF f i = s.getF f i

/-- `t` is `s` with core `c` as `k` and the retirement of that core counted: what an instruction leaves of the state `s` that
its memory access left. -/
def Landed (s t : State) (c : Nat) (k : Core) : Prop :=
  t.core c = k ∧ (∀ d, d ≠ c → t.core d = s.core d) ∧
  t = { s with regs := t.regs, work := { s.work with cores := t.work.cores } } ∧
  ∀ (f : Fld) (i : Nat), ¬ (i = c ∧ (f = .CUE_RETIRED_COUNT ∨ f = .CUE_PC)) → t.getF f i = s.getF f i

/-- The core `k` once it has left the yield point at which its context stood (R161), with another context. -/
def Core.onto (k : Core) (x : Ctx) : Core := { k with ctx := x, yielded := false }

/-- The core `k` with its context changed by `f` and its pc moved past an instruction of `len` bytes. -/
def Core.past (k : Core) (len : Nat) (f : Ctx → Ctx) : Core := k.onto { f k.ctx with pc := k.ctx.pc + BitVec.ofNat 64 len }

/-- The core, the guard, the length in bytes and the legality of a Cue instruction (Tables 5-6 to 5-9a); none for a command
that is no Cue instruction. -/
def cueForm : Instr → Option (Nat × Guard × Nat × Bool)
  | .porstNLow => none
  | .porstNRise _ _ => none
  | .coreLeavesReset => none
  | .wrstNLow _ => none
  | .edgePwrOkFall => none
  | .corePwrOkFall => none
  | .corePwrOkRise => none
  | .iaModuleDegrade _ _ => none
  | .iaModuleFail _ _ => none
  | .adapterRetryExhausted _ _ => none
  | .iaLinkPowerState _ _ => none
  | .tlmRecord _ => none
  | .tlmStale => none
  | .tlmStaleFault => none
  | .vidAckRise => none
  | .vidAckFall => none
  | .vidAckLate => none
  | .pstCredit _ => none
  | .pstPersisted _ => none
  | .pstFailed _ => none
  | .pstEpochSend => none
  | .i3cEntdaa _ => none
  | .trefLoss => none
  | .trefRestored => none
  | .trefLostTimeout => none
  | .burnishReading _ => none
  | .temperWindow _ => none
  | .sqTailWrite _ _ _ => none
  | .cqHeadWrite _ _ _ => none
  | .idleHintWrite _ _ _ => none
  | .cancelWrite _ _ _ => none
  | .tailLineSnoop _ _ => none
  | .descriptorFetch _ _ => none
  | .ringAccessFailure _ _ => none
  | .admission _ _ => none
  | .run _ => none
  | .launch _ => none
  | .fence _ => none
  | .nop _ => none
  | .createSlice _ _ => none
  | .resizeSlice _ _ => none
  | .freezeSlice _ => none
  | .freezeDrainDone _ => none
  | .saveIngot _ _ => none
  | .restoreIngot _ _ _ => none
  | .thaw _ => none
  | .retireSlice _ => none
  | .retireKeyZeroise _ => none
  | .createQueue _ _ => none
  | .destroyQueue _ => none
  | .queueReleaseDone _ => none
  | .releaseLimitExpiry _ => none
  | .pauseQueue _ => none
  | .resumeQueue _ => none
  | .qcxActivate => none
  | .registerCast _ _ => none
  | .patchCast _ _ => none
  | .castVersionSwitch => none
  | .registerBackend _ _ => none
  | .pinModel _ => none
  | .unpinModel _ => none
  | .touchstone _ => none
  | .itemTimeout _ => none
  | .runLimitExpiry _ => none
  | .itemEnd _ => none
  | .prmCountClr => none
  | .add core guard _ _ _ => some (core, guard, 4, true)
  | .sub core guard _ _ _ => some (core, guard, 4, true)
  | .and core guard _ _ _ => some (core, guard, 4, true)
  | .or core guard _ _ _ => some (core, guard, 4, true)
  | .xor core guard _ _ _ => some (core, guard, 4, true)
  | .andn core guard _ _ _ => some (core, guard, 4, true)
  | .shl core guard _ _ _ => some (core, guard, 4, true)
  | .shr core guard _ _ _ => some (core, guard, 4, true)
  | .sra core guard _ _ _ => some (core, guard, 4, true)
  | .mul core guard _ _ _ => some (core, guard, 4, true)
  | .mulh core guard _ _ _ => some (core, guard, 4, true)
  | .mulhu core guard _ _ _ => some (core, guard, 4, true)
  | .min core guard _ _ _ => some (core, guard, 4, true)
  | .max core guard _ _ _ => some (core, guard, 4, true)
  | .minu core guard _ _ _ => some (core, guard, 4, true)
  | .maxu core guard _ _ _ => some (core, guard, 4, true)
  | .sextB core guard _ _ => some (core, guard, 4, true)
  | .sextH core guard _ _ => some (core, guard, 4, true)
  | .sextW core guard _ _ => some (core, guard, 4, true)
  | .popc core guard _ _ => some (core, guard, 4, true)
  | .clz core guard _ _ => some (core, guard, 4, true)
  | .addi core guard _ _ _ => some (core, guard, 4, true)
  | .andi core guard _ _ _ => some (core, guard, 4, true)
  | .ori core guard _ _ _ => some (core, guard, 4, true)
  | .xori core guard _ _ _ => some (core, guard, 4, true)
  | .shli core guard _ _ _ => some (core, guard, 4, true)
  | .shri core guard _ _ _ => some (core, guard, 4, true)
  | .srai core guard _ _ _ => some (core, guard, 4, true)
  | .lui core guard _ _ => some (core, guard, 4, true)
  | .cmpEq core guard _ _ _ => some (core, guard, 4, true)
  | .cmpNe core guard _ _ _ => some (core, guard, 4, true)
  | .cmpLt core guard _ _ _ => some (core, guard, 4, true)
  | .cmpLtu core guard _ _ _ => some (core, guard, 4, true)
  | .cmpGe core guard _ _ _ => some (core, guard, 4, true)
  | .cmpGeu core guard _ _ _ => some (core, guard, 4, true)
  | .cmpiEq core guard _ _ _ => some (core, guard, 4, true)
  | .cmpiNe core guard _ _ _ => some (core, guard, 4, true)
  | .cmpiLt core guard _ _ _ => some (core, guard, 4, true)
  | .cmpiLtu core guard _ _ _ => some (core, guard, 4, true)
  | .psetAnd core guard _ _ _ => some (core, guard, 4, true)
  | .psetOr core guard _ _ _ => some (core, guard, 4, true)
  | .psetXor core guard _ _ _ => some (core, guard, 4, true)
  | .psetAndn core guard _ _ _ => some (core, guard, 4, true)
  | .br core guard _ => some (core, guard, 4, true)
  | .call core guard _ => some (core, guard, 4, true)
  | .jr core guard _ _ => some (core, guard, 4, true)
  | .ldB core guard _ _ _ _ => some (core, guard, 4, true)
  | .ldH core guard _ _ _ _ => some (core, guard, 4, true)
  | .ldW core guard _ _ _ _ => some (core, guard, 4, true)
  | .ldD core guard _ _ _ _ => some (core, guard, 4, true)
  | .ldlB core guard _ _ _ => some (core, guard, 4, true)
  | .ldlH core guard _ _ _ => some (core, guard, 4, true)
  | .ldlW core guard _ _ _ => some (core, guard, 4, true)
  | .ldlD core guard _ _ _ => some (core, guard, 4, true)
  | .stB core guard _ _ _ _ => some (core, guard, 4, true)
  | .stH core guard _ _ _ _ => some (core, guard, 4, true)
  | .stW core guard _ _ _ _ => some (core, guard, 4, true)
  | .stD core guard _ _ _ _ => some (core, guard, 4, true)
  | .stlB core guard _ _ _ => some (core, guard, 4, true)
  | .stlH core guard _ _ _ => some (core, guard, 4, true)
  | .stlW core guard _ _ _ => some (core, guard, 4, true)
  | .stlD core guard _ _ _ => some (core, guard, 4, true)
  | .amoAdd core guard _ _ _ _ _ _ _ => some (core, guard, 4, true)
  | .amoSwap core guard _ _ _ _ _ _ _ => some (core, guard, 4, true)
  | .amoCas core guard _ _ _ _ _ _ _ => some (core, guard, 4, true)
  | .amoMin core guard _ _ _ _ _ _ _ => some (core, guard, 4, true)
  | .amoMax core guard _ _ _ _ _ _ _ => some (core, guard, 4, true)
  | .amoMinu core guard _ _ _ _ _ _ _ => some (core, guard, 4, true)
  | .amoMaxu core guard _ _ _ _ _ _ _ => some (core, guard, 4, true)
  | .cueFence core guard _ => some (core, guard, 4, true)
  | .cwr core guard _ cw => some (core, guard, 4, cwListed cw.toNat)
  | .cww core guard cw _ => some (core, guard, 4, cwListed cw.toNat)
  | .waite core guard _ _ _ => some (core, guard, 4, true)
  | .yield core guard => some (core, guard, 4, true)
  | .budget core guard _ _ => some (core, guard, 4, true)
  | .signalCore core guard _ src => some (core, guard, 4, decide (96 ≤ src.toNat))
  | .signalQueue core guard => some (core, guard, 4, true)
  | .enq core guard _ _ _ => some (core, guard, 8, true)
  | .tissue core guard _ _ te => some (core, guard, 8, decide (te.toNat ≤ 47) || te.toNat == 63)
  | .missue core guard _ ra _ _ srcWin _ me zero => some (core, guard, 8, (decide (me.toNat ≤ 31) || me.toNat == 63) && !(zero && (ra != 0 || srcWin)))
  | .done core guard _ => some (core, guard, 4, true)
  | .endSrc core guard _ => some (core, guard, 4, true)
  | .trap core guard _ => some (core, guard, 4, true)
  | .mbxSend core guard _ _ _ _ => some (core, guard, 4, true)
  | .mbxRecv core guard _ _ _ => some (core, guard, 4, true)
  | .eret core guard => some (core, guard, 4, true)
  | .interruptEntry _ => none
  | .stretchExpiry _ => none
  | .cueHaltReq _ => none
  | .cueHalted _ => none
  | .cueStep _ _ => none
  | .cueResume _ => none
  | .cueBreakpoint _ => none
  | .cueDbgDataWrite _ _ => none
  | .cueClr _ => none
  | .castNodeStart _ _ => none
  | .notifyLineWrite _ _ => none
  | .backendWboundExpiry _ _ => none
  | .todMatmul _ => none
  | .todVectorAdd _ => none
  | .todVectorMul _ => none
  | .todVectorMax _ => none
  | .todVectorMin _ => none
  | .todVectorFma _ => none
  | .todVectorExp _ => none
  | .todVectorSilu _ => none
  | .todVectorGelu _ => none
  | .todVectorRsqrt _ => none
  | .todVectorConvert _ => none
  | .todReduceSum _ => none
  | .todReduceMax _ => none
  | .todReduceSumsq _ => none
  | .todNormRms _ => none
  | .todNormLayer _ => none
  | .todCbLoad _ => none
  | .todAttend _ => none
  | .engineUnitEnd _ => none
  | .engineOpComplete _ => none
  | .engineHangExpiry _ => none
  | .moveHangExpiry _ => none
  | .moveOpComplete _ _ => none
  | .engineRemoteRefusal _ _ => none
  | .tenClr => none
  | .modelLoadStart => none
  | .modelLoadComplete => none
  | .modelLoadPoison _ => none
  | .stepStart _ => none
  | .stepEnd _ _ => none
  | .srvAcctClr _ _ => none
  | .srvMdlValidWrite _ _ => none
  | .tmpDurEnable _ => none
  | .memHdmEnable _ => none
  | .memMapLock => none
  | .tlbInvalidate => none
  | .tlbInvalidateDone => none
  | .atsInvalidation _ _ _ _ => none
  | .patrolScrub _ _ => none
  | .trnDone _ _ _ => none
  | .stackTrainTimeout _ => none
  | .spareMoveComplete _ _ => none
  | .rdShr _ => none
  | .rdOwn _ => none
  | .upgMsg _ => none
  | .rdCur _ => none
  | .wrFull _ => none
  | .wrPart _ => none
  | .cleanLine _ => none
  | .snpShr _ => none
  | .snpInv _ => none
  | .snpCur _ => none
  | .wbDirty _ => none
  | .evictClean _ => none
  | .dataMsg _ => none
  | .snpData _ => none
  | .rspI _ => none
  | .rspS _ => none
  | .rspEvicting _ => none
  | .rspLost _ => none
  | .gntMsg _ => none
  | .cmpMsg _ => none
  | .ackMsg _ => none
  | .nackStake _ => none
  | .stakeRetry _ => none
  | .stakeLapse _ _ => none
  | .refuse _ => none
  | .expired _ => none
  | .dead _ => none
  | .homeReset _ => none
  | .recallDone _ => none
  | .rejoin _ => none
  | .snoopTimeout _ => none
  | .lineEviction _ _ => none
  | .hostLinkDown _ => none
  | .cohDeadWrite _ => none
  | .recallWindowClose => none
  | .edgeCoreAnswer _ => none
  | .flitMsg _ _ => none
  | .flitIdle _ _ => none
  | .flitTrain _ _ => none
  | .linkAckTimer _ => none
  | .egressFlitSend _ => none
  | .dbWr _ _ => none
  | .dbRd _ _ => none
  | .mgWr _ _ => none
  | .mgRd _ _ => none
  | .mgRsp _ _ => none
  | .filSignal _ _ => none
  | .spdmMsg _ _ => none
  | .portEnable _ => none
  | .portDisable _ => none
  | .portFence _ _ => none
  | .portTrainingDone _ _ _ _ _ => none
  | .portTrainingFail _ => none
  | .portTrainingRetry _ => none
  | .portRekey _ => none
  | .filNodeLock => none
  | .filSlcMeterWrite _ _ _ => none
  | .faultInject => none
  | .slcReset _ => none
  | .functionLevelReset _ _ => none
  | .sliceResetDone _ => none
  | .keyQuarantineExpiry _ => none
  | .scrubComplete _ => none
  | .dirtyLogEnable => none
  | .dirtyLogWalkDone => none
  | .pageMoverGo => none
  | .pageMoverDone _ => none
  | .cicSet _ _ _ => none
  | .cicPendClear _ _ _ => none
  | .moderatorTimerExpiry _ => none
  | .msixUnmask _ _ _ _ => none
  | .cicMcauseClear _ => none
  | .mbxTxLen _ _ _ => none
  | .mbxRxLastRead _ _ => none
  | .mbxLock => none
  | .mbxDomainReturn _ => none
  | .getVersion _ => none
  | .getCapabilities _ => none
  | .negotiateAlgorithms _ _ => none
  | .getDigests _ => none
  | .getCertificate _ _ _ => none
  | .challenge _ _ => none
  | .getMeasurements _ _ => none
  | .keyExchange _ _ _ => none
  | .finish _ _ _ => none
  | .keyUpdate _ _ => none
  | .heartbeat _ _ => none
  | .heartbeatLapse _ => none
  | .endSession _ _ => none
  | .chunkSend _ _ _ _ => none
  | .chunkGet _ _ => none
  | .spdmUnsupported _ _ => none
  | .ideKmQuery _ => none
  | .ideKmKeyProg _ _ _ => none
  | .ideKmKSetGo _ _ _ => none
  | .ideKmKSetStop _ _ _ => none
  | .getTdispVersion _ _ => none
  | .getTdispCapabilities _ _ => none
  | .lockInterfaceRequest _ _ => none
  | .getDeviceInterfaceReport _ _ => none
  | .getDeviceInterfaceState _ _ => none
  | .startInterfaceRequest _ _ => none
  | .stopInterfaceRequest _ _ => none
  | .linkSessionStart => none
  | .migrationPairingStart _ => none
  | .secCfgLock => none
  | .teReset _ => none
  | .cueReset _ => none
  | .moveReset _ => none
  | .unitResetDone _ _ => none
  | .unitResetTimeout _ => none
  | .sectionReset _ => none
  | .sectionResetTimeout _ => none
  | .warmResetTrigger _ => none
  | .blkCtrlWarm => none
  | .blkCtrlFence => none
  | .blkCtrlReadmit => none
  | .dumpUnitTimeout => none
  | .dumpTimeout => none
  | .recoveryScrub _ => none
  | .startStageBegin _ => none
  | .startStageComplete _ => none
  | .startStageFail _ _ => none
  | .startStageRetry _ => none
  | .imageGo => none
  | .imageDataPush _ => none
  | .imageFetchComplete _ _ => none
  | .touchstoneBorrow _ _ => none
  | .touchstoneTestDone _ _ _ => none
  | .touchstoneDeadline _ => none
  | .registerWrite _ _ _ _ => none
  | .splitWriteHigh _ _ _ => none
  | .iaModuleTrained _ _ _ => none
  | .hostLinkUp _ => none
  | .sectionResetDone _ => none
  | .directoryWalkDone _ => none
  | .hopAllowanceExpiry _ _ => none

end Sys2Proof.Machine
end

