-- ==== Sys2Proof/Certificates/Slice0/Obligations.lean ====
section
/-!
DEFINITION. The statements about the block, one Prop each; proofs are written elsewhere.
-/

open Sys2Proof Sys2Proof.Machine

/-! ### The queue of commands -/

/-- The command at the front of the queue takes its effect on everything but the queue, and the rest of the queue stays
(the step is the model's: log entry 2). -/
def Obligations.StepRunsFrontCommand : Prop :=
  ∀ (s : State) (c : Instr) (rest : List Instr), s.pending = c :: rest → step s = exec c { s with pending := rest }

/-- No command ever stops the block: every fault of the spec is a fault record, after which the block goes on (R381). -/
def Obligations.EveryCommandCompletes : Prop :=
  ∀ (i : Instr) (s : State), ∃ t, exec i s = .next t

/-- The block right after a cold reset is in canonical form. What a cold reset leaves: the core off, nothing waiting, sent or recorded, no memory byte stored, every register field
at the Reset column of its table but for slice 0, which is LIVE on key slot 0 and placed in every section (R328). -/
def Obligations.ResetState : Prop :=
  (State.reset.ok) ∧
  (State.reset.pending = [] ∧ State.reset.out = [] ∧ State.reset.mem.cells = [] ∧ State.reset.recov.faults = [] ∧
  State.reset.coreOn = false ∧
  State.reset.getF .SLC_STATE_STATE 0 = 2 ∧ State.reset.getF .SLC_STATE_KEYST 0 = 1 ∧ State.reset.getF .SLC_PLACE_SECTIONS 0 = 0xFF ∧
  ∀ (f : Fld) (i : Nat), ¬ (i = 0 ∧ (f = .SLC_STATE_STATE ∨ f = .SLC_STATE_KEYST ∨ f = .SLC_PLACE_SECTIONS)) →
    State.reset.getF f i = f.reset)

/-- Every step keeps the canonical form: each register field stays inside its width, and the pool's bytes stay sorted. -/
def Obligations.StepKeepsCanonical : Prop :=
  ∀ s t : State, s.ok → step s = .next t → t.ok

/-! ### Cue instructions (chapter 05) -/

/-- An instruction whose guard is false has no effect but its retirement, long forms included (R122). A core that executes nothing (off, in reset, halted, or without a context that may go on) is left alone by every
instruction, and so is the rest of the block. -/
def Obligations.FalseGuardsAndIdleCores : Prop :=
  (∀ (i : Instr) (s : State) (c : Nat) (g : Guard) (len : Nat), cueForm i = some (c, g, len, true) → s.regs.rising = true →
    s.executes c = true → (s.ctx c).pc.toNat % 4 = 0 → s.fetchOk c len = true → (s.ctx c).guardOk g = false →
    ∃ t, exec i s = .next t ∧ Retired s t c ((s.core c).past len id)) ∧
  (∀ (i : Instr) (s : State) (c : Nat) (g : Guard) (len : Nat) (legal : Bool), cueForm i = some (c, g, len, legal) →
    s.executes c = false → exec i s = .next s)

/-- g0 reads zero and discards writes; any other register reads as written; p0 reads one and discards writes (R113). The ALU group (Table 5-8): rd takes the operation's value of ra and rb, shifts by rb[5:0]; g0 takes nothing; nothing else
of the block changes but the pc and the retirement. The immediate forms (Table 5-7): ADDI sign-extends its immediate, ANDI, ORI and XORI zero-extend it, shifts take a count,
LUI shifts its sign-extended immediate left by 12. -/
def Obligations.RegisterInstructions : Prop :=
  (∀ (x : Ctx) (r q : BitVec 5) (p u : BitVec 3) (v : Word) (b : Bool),
    x.rd 0 = 0 ∧ x.wr 0 v = x ∧ (r ≠ 0 → (x.wr r v).rd r = v) ∧ (q ≠ r → (x.wr r v).rd q = x.rd q) ∧
    x.rdP 0 = true ∧ x.wrP 0 b = x ∧ (p ≠ 0 → (x.wrP p b).rdP p = b) ∧ (u ≠ p → (x.wrP p b).rdP u = x.rdP u)) ∧
  (∀ (s : State) (c : Nat) (g : Guard) (rd ra rb : BitVec 5), s.runs c g 4 → s.regs.rising = true →
    (∀ p ∈ ([(Instr.add, fun a b => a + b), (Instr.sub, fun a b => a - b), (Instr.and, fun a b => a &&& b),
        (Instr.or, fun a b => a ||| b), (Instr.xor, fun a b => a ^^^ b), (Instr.andn, fun a b => a &&& ~~~b),
        (Instr.shl, fun a b => a <<< (b.toNat % 64)), (Instr.shr, fun a b => a >>> (b.toNat % 64)),
        (Instr.sra, fun a b => a.sshiftRight (b.toNat % 64)),
        (Instr.mul, fun a b => BitVec.ofNat 64 (a.toNat * b.toNat)),
        (Instr.mulh, fun a b => BitVec.ofInt 64 (a.toInt * b.toInt / 2 ^ 64)),
        (Instr.mulhu, fun a b => BitVec.ofNat 64 (a.toNat * b.toNat / 2 ^ 64)),
        (Instr.min, fun a b => if a.toInt < b.toInt then a else b), (Instr.max, fun a b => if a.toInt < b.toInt then b else a),
        (Instr.minu, fun a b => if a.toNat < b.toNat then a else b), (Instr.maxu, fun a b => if a.toNat < b.toNat then b else a)] :
        List ((Nat → Guard → BitVec 5 → BitVec 5 → BitVec 5 → Instr) × (Word → Word → Word))),
      ∃ t, exec (p.1 c g rd ra rb) s = .next t ∧
        Retired s t c ((s.core c).past 4 (fun x => x.wr rd (p.2 (x.rd ra) (x.rd rb))))) ∧
    (∀ p ∈ ([(Instr.sextB, fun a => (a.setWidth 8).signExtend 64), (Instr.sextH, fun a => (a.setWidth 16).signExtend 64),
        (Instr.sextW, fun a => (a.setWidth 32).signExtend 64),
        (Instr.popc, fun a => BitVec.ofNat 64 ((List.range 64).filter (fun i => a.getLsbD i)).length),
        (Instr.clz, fun a => BitVec.ofNat 64 (((List.range 64).find? (fun i => a.getLsbD (63 - i))).getD 64))] :
        List ((Nat → Guard → BitVec 5 → BitVec 5 → Instr) × (Word → Word))),
      ∃ t, exec (p.1 c g rd ra) s = .next t ∧ Retired s t c ((s.core c).past 4 (fun x => x.wr rd (p.2 (x.rd ra)))))) ∧
  (∀ (s : State) (c : Nat) (g : Guard) (rd ra : BitVec 5) (imm : BitVec 12) (sh : BitVec 6) (u : BitVec 17), s.runs c g 4 →
    s.regs.rising = true →
    ∀ p ∈ ([(Instr.addi c g rd ra imm, fun a => a + imm.signExtend 64), (Instr.andi c g rd ra imm, fun a => a &&& imm.setWidth 64),
        (Instr.ori c g rd ra imm, fun a => a ||| imm.setWidth 64), (Instr.xori c g rd ra imm, fun a => a ^^^ imm.setWidth 64),
        (Instr.shli c g rd ra sh, fun a => a <<< sh.toNat), (Instr.shri c g rd ra sh, fun a => a >>> sh.toNat),
        (Instr.srai c g rd ra sh, fun a => a.sshiftRight sh.toNat), (Instr.lui c g rd u, fun _ => u.signExtend 64 <<< 12)] :
        List (Instr × (Word → Word))),
      ∃ t, exec p.1 s = .next t ∧ Retired s t c ((s.core c).past 4 (fun x => x.wr rd (p.2 (x.rd ra)))))

/-- CMP, CMPI and PSET write their predicate: LT and GE compare signed, LTU and GEU unsigned, CMPI against its sign-extended
immediate; p0 takes nothing (Table 5-7). BR goes to pc + 4 × its sign-extended immediate, CALL does so too and puts pc + 4 in g31, JR goes to ra as it was and puts
pc + 4 in rd (Table 5-7). -/
def Obligations.PredicatesAndBranches : Prop :=
  (∀ (s : State) (c : Nat) (g : Guard) (pd pa pb : BitVec 3) (ra rb : BitVec 5) (imm : BitVec 12), s.runs c g 4 → s.regs.rising = true →
    ∀ p ∈ ([(Instr.cmpEq c g pd ra rb, fun x => decide (x.rd ra = x.rd rb)), (Instr.cmpNe c g pd ra rb, fun x => decide (x.rd ra ≠ x.rd rb)),
        (Instr.cmpLt c g pd ra rb, fun x => decide ((x.rd ra).toInt < (x.rd rb).toInt)),
        (Instr.cmpLtu c g pd ra rb, fun x => decide ((x.rd ra).toNat < (x.rd rb).toNat)),
        (Instr.cmpGe c g pd ra rb, fun x => decide ((x.rd rb).toInt ≤ (x.rd ra).toInt)),
        (Instr.cmpGeu c g pd ra rb, fun x => decide ((x.rd rb).toNat ≤ (x.rd ra).toNat)),
        (Instr.cmpiEq c g pd ra imm, fun x => decide (x.rd ra = imm.signExtend 64)),
        (Instr.cmpiNe c g pd ra imm, fun x => decide (x.rd ra ≠ imm.signExtend 64)),
        (Instr.cmpiLt c g pd ra imm, fun x => decide ((x.rd ra).toInt < (imm.signExtend 64 : Word).toInt)),
        (Instr.cmpiLtu c g pd ra imm, fun x => decide ((x.rd ra).toNat < (imm.signExtend 64 : Word).toNat)),
        (Instr.psetAnd c g pd pa pb, fun x => x.rdP pa && x.rdP pb), (Instr.psetOr c g pd pa pb, fun x => x.rdP pa || x.rdP pb),
        (Instr.psetXor c g pd pa pb, fun x => x.rdP pa ^^ x.rdP pb), (Instr.psetAndn c g pd pa pb, fun x => x.rdP pa && !x.rdP pb)] :
        List (Instr × (Ctx → Bool))),
      ∃ t, exec p.1 s = .next t ∧ Retired s t c ((s.core c).past 4 (fun x => x.wrP pd (p.2 x)))) ∧
  (∀ (s : State) (c : Nat) (g : Guard) (rd ra : BitVec 5) (imm : BitVec 22), s.runs c g 4 → s.regs.rising = true →
    (∃ t, exec (.br c g imm) s = .next t ∧
      Retired s t c ((s.core c).onto { s.ctx c with pc := (s.ctx c).pc + imm.signExtend 64 * 4 })) ∧
    (∃ t, exec (.call c g imm) s = .next t ∧
      Retired s t c ((s.core c).onto { (s.ctx c).wr 31 ((s.ctx c).pc + 4) with pc := (s.ctx c).pc + imm.signExtend 64 * 4 })) ∧
    (∃ t, exec (.jr c g rd ra) s = .next t ∧
      Retired s t c ((s.core c).onto { (s.ctx c).wr rd ((s.ctx c).pc + 4) with pc := (s.ctx c).rd ra })))

/-- Window loads and stores: an aligned access inside the window reads or writes the local store at cw.ls_base + offset,
little-endian, loads zero-extended; no other byte of the store changes, nor anything else but the pc and the retirement (R116). A window access that is misaligned raises ALIGN, and an aligned one outside the window raises LS_RANGE, each naming the
address (R116, R133). -/
def Obligations.WindowAccesses : Prop :=
  (∀ (s : State) (c : Nat) (g : Guard) (r ra : BitVec 5) (imm : BitVec 12), s.runs c g 4 → s.regs.rising = true →
    ∀ p ∈ ([(Instr.ldlB, Instr.stlB, 1), (Instr.ldlH, Instr.stlH, 2), (Instr.ldlW, Instr.stlW, 4), (Instr.ldlD, Instr.stlD, 8)] :
        List ((Nat → Guard → BitVec 5 → BitVec 5 → BitVec 12 → Instr) × (Nat → Guard → BitVec 5 → BitVec 5 → BitVec 12 → Instr) × Nat)),
      let off := ((s.ctx c).rd ra + imm.signExtend 64).toNat
      let at_ := (s.ctx c).lsBase + off
      off % p.2.2 = 0 → off + p.2.2 ≤ (s.ctx c).lsSize → at_ + p.2.2 ≤ 0x40000 →
      (∃ t, exec (p.1 c g r ra imm) s = .next t ∧
        Retired s t c ((s.core c).past 4 (fun x => x.wr r (BitVec.ofNat 64 (natLE ((s.core c).lsRead at_ p.2.2)))))) ∧
      (∃ t, exec (p.2.1 c g r ra imm) s = .next t ∧
        Retired s t c { (s.core c).past 4 id with store := (t.core c).store } ∧
        (∀ a, a < at_ ∨ at_ + p.2.2 ≤ a → cellGet (t.core c).store a = cellGet (s.core c).store a) ∧
        (Memory.wf (s.core c).store = true → Memory.wf (t.core c).store = true ∧
          ∀ j, j < p.2.2 → cellGet (t.core c).store (at_ + j) = BitVec.ofNat 8 (((s.ctx c).rd r).toNat >>> (8 * j))))) ∧
  (∀ (s : State) (c : Nat) (g : Guard) (r ra : BitVec 5) (imm : BitVec 12), s.runs c g 4 →
    ∀ p ∈ ([(Instr.ldlB, 1), (Instr.ldlH, 2), (Instr.ldlW, 4), (Instr.ldlD, 8), (Instr.stlB, 1), (Instr.stlH, 2), (Instr.stlW, 4),
        (Instr.stlD, 8)] : List ((Nat → Guard → BitVec 5 → BitVec 5 → BitVec 12 → Instr) × Nat)),
      let off := ((s.ctx c).rd ra + imm.signExtend 64).toNat
      (off % p.2 ≠ 0 → exec (p.1 c g r ra imm) s = .next ((s.leavePoint c).raise c ⟨.align, off, 0⟩)) ∧
      (off % p.2 = 0 → (s.ctx c).lsSize < off + p.2 → exec (p.1 c g r ra imm) s = .next ((s.leavePoint c).raise c ⟨.lsRange, off, 0⟩)))

/-- An exception raised at steward privilege outside an exception (and outside a backend's adapter): cw.epc, cw.cause and
cw.badaddr are written, PPRIV takes PRIV, PRIV and EXL are set, IE is cleared, and the pc is cw.tvec; with EXL already set it is
a double fault, which takes a CUE reset of the core (R138). TRAP raises TRAP with its code, END retires the source on top of the priority stack, and ERET returns: PRIV = PPRIV, EXL = 0 and
pc = cw.epc (R123, R139, R143); where it ends the steward's service, the context underneath, or the adapter's entry, has its window again and its
stretch leaves the time of the service out (R116, R128). ERET and END act at steward privilege; at guest privilege both raise PRIV (R118). -/
def Obligations.ExceptionsAndReturns : Prop :=
  (∀ (s : State) (c : Nat) (e : Exc), (s.core c).priv = true → s.inAdapter c = false →
    ((s.core c).exl = false →
      let k := (s.raise c e).core c
      k.epc = (s.ctx c).pc ∧ k.cause = BitVec.ofNat 64 (e.cause.code + e.code * 2 ^ 32) ∧ k.badaddr = BitVec.ofNat 64 e.badaddr ∧
      k.ppriv = true ∧ k.priv = true ∧ k.exl = true ∧ k.ie = false ∧ k.ctx = { s.ctx c with pc := (s.core c).tvec } ∧
      (∀ d, d ≠ c → (s.raise c e).core d = s.core d)) ∧
    ((s.core c).exl = true → e.cause ≠ .psf →
      s.raise c e = ((s.noteExc c e.cause.code).noteExc c 0x22).faultReset (unitOfCore c)
        { FaultRec.ofUnit (unitOfCore c) 0x0005 2 with pc := (s.ctx c).pc.toNat, addr := e.badaddr, aux1 := e.cause.code })) ∧
  (∀ (s : State) (c : Nat) (g : Guard) (code : BitVec 16) (src : BitVec 7), s.runs c g 4 → s.regs.rising = true →
    exec (.trap c g code) s = .next ((s.leavePoint c).raise c ⟨.trap, (s.ctx c).pc.toNat, code.toNat⟩) ∧
    ((s.core c).priv = false →
      exec (.eret c g) s = .next ((s.leavePoint c).raise c ⟨.priv, (s.ctx c).pc.toNat, 0⟩) ∧
      exec (.endSrc c g src) s = .next ((s.leavePoint c).raise c ⟨.priv, (s.ctx c).pc.toNat, 0⟩)) ∧
    ((s.core c).priv = true →
      let back := { s.ctx c with pc := (s.core c).epc }
      let served := (s.core c).ppriv = false ∨ (s.core c).stack = []
      ((s.core c).serviceAt = none ∧ (s.core c).reading = none ∨ ¬served →
        ∃ t, exec (.eret c g) s = .next t ∧ Retired s t c { (s.core c).onto back with priv := (s.core c).ppriv, exl := false }) ∧
      (∀ r, served → (s.core c).reading = some r →
        ∃ t, exec (.eret c g) s = .next t ∧
          Retired s t c { (s.core c).onto { back with lsSize := r.size } with priv := (s.core c).ppriv, exl := false }) ∧
      (∀ at_ i x, served → (s.core c).reading = none → (s.core c).serviceAt = some at_ → (s.core c).item = some i → s.item i = some x →
        x.cause = none →
        ∃ t, exec (.eret c g) s = .next t ∧
          Retired s t c { (s.core c).onto { back with lsSize := x.winSize } with
            priv := (s.core c).ppriv, exl := false, serviceAt := none, stretchAt := (s.core c).stretchAt + (s.now - at_) })) ∧
    (∀ p rest, (s.core c).priv = true → (s.core c).stack = (src.toNat, p) :: rest →
      ∃ t, exec (.endSrc c g src) s = .next t ∧ Retired s t c { (s.core c).past 4 id with stack := rest }))

/-- Global loads of 1, 2, 4 and 8 bytes: an aligned access that obtains its bytes writes them to rd, little-endian and
zero-extended; one that a refusal or an expiry ends writes zero to rd and records REFUSED (bit 0) or EXPIRED (bit 1) in cw.rerr;
one that meets poison or a failed translation raises the exception; a misaligned one raises ALIGN (R133, R134). An access that waits for holders of
its line leaves the pc and keeps its translation, under which it is performed when it is made again (R259). Global stores of 1, 2, 4 and 8 bytes: an aligned store that is performed puts the low bytes of rs, little-endian, at its
address (as `modifyAt` performs it) and only advances; one that a refusal or an expiry ends records it in cw.rerr; a misaligned one
raises ALIGN (R133). -/
def Obligations.GlobalAccesses : Prop :=
  (∀ (s : State) (c : Nat) (g : Guard) (rd ra : BitVec 5) (imm : BitVec 12) (e : Ext), s.runs c g 4 →
    ∀ p ∈ ([(Instr.ldB, 1), (Instr.ldH, 2), (Instr.ldW, 4), (Instr.ldD, 8)] :
        List ((Nat → Guard → BitVec 5 → BitVec 5 → BitVec 12 → Ext → Instr) × Nat)),
      let va := ((s.ctx c).rd ra + imm.signExtend 64).toNat
      let r := (s.leavePoint c).resolveFor c va false
      let got := r.2.loadAt c r.1 va (r.2.sliceKey (s.accessor c).slice) p.2 e
      let u := got.2
      (va % p.2 ≠ 0 → exec (p.1 c g rd ra imm e) s = .next ((s.leavePoint c).raise c ⟨.align, va, 0⟩)) ∧
      (va % p.2 = 0 →
        (∀ b, got.1 = .val b → ∃ t, exec (p.1 c g rd ra imm e) s = .next t ∧
          Landed u t c { u.core c with ctx := { (u.ctx c).wr rd (BitVec.ofNat 64 (natLE b)) with pc := (s.ctx c).pc + 4 } }) ∧
        (∀ x, got.1 = .rerr x → ∃ t, exec (p.1 c g rd ra imm e) s = .next t ∧
          Landed u t c { u.core c with ctx := { (u.ctx c).wr rd 0 with
            rerr := (u.ctx c).rerr ||| (if x then 2 else 1), pc := (s.ctx c).pc + 4 } }) ∧
        (∀ x, got.1 = .exc x → exec (p.1 c g rd ra imm e) s = .next (u.raise c ⟨x, va, 0⟩)) ∧
        (got.1 = .wait → exec (p.1 c g rd ra imm e) s = .next (u.keepAccess c va false r.1)))) ∧
  (∀ (s : State) (c : Nat) (g : Guard) (rs ra : BitVec 5) (imm : BitVec 12) (e : Ext), s.runs c g 4 →
    ∀ p ∈ ([(Instr.stB, 1), (Instr.stH, 2), (Instr.stW, 4), (Instr.stD, 8)] :
        List ((Nat → Guard → BitVec 5 → BitVec 5 → BitVec 12 → Ext → Instr) × Nat)),
      let va := ((s.ctx c).rd ra + imm.signExtend 64).toNat
      let r := (s.leavePoint c).resolveFor c va true
      let put := r.2.modifyAt c r.1 va (r.2.sliceKey (s.accessor c).slice) p.2 false e (fun _ => some (bytesLE p.2 ((s.ctx c).rd rs).toNat))
      let u := put.2
      (va % p.2 ≠ 0 → exec (p.1 c g rs ra imm e) s = .next ((s.leavePoint c).raise c ⟨.align, va, 0⟩)) ∧
      (va % p.2 = 0 →
        (∀ b, put.1 = .done b → ∃ t, exec (p.1 c g rs ra imm e) s = .next t ∧
          Landed u t c { u.core c with ctx := { u.ctx c with pc := (s.ctx c).pc + 4 } }) ∧
        (∀ x, put.1 = .rerr x → ∃ t, exec (p.1 c g rs ra imm e) s = .next t ∧
          Landed u t c { u.core c with ctx := { u.ctx c with
            rerr := (u.ctx c).rerr ||| (if x then 2 else 1), pc := (s.ctx c).pc + 4 } }) ∧
        (put.1 = .wait → exec (p.1 c g rs ra imm e) s = .next (u.keepAccess c va true r.1))))

/-- Atomics on 4 bytes or 8 (D): the access is performed with the new value of its operation (CAS stores rb only when memory holds
the incoming rd; MIN and MAX compare signed, MINU and MAXU unsigned), and rd takes the old value, zero-extended (R137). A store or an atomic of a core to a line that its section holds in M or E, of this node outside the durable regions or of another node: the
line's current contents take exactly the stored bytes in the core's cache, the core holds the line M, and every other line keeps its contents; a
compare that fails leaves the line as it was (R133, R137). -/
def Obligations.AtomicsAndOwnedLines : Prop :=
  (∀ (s : State) (c : Nat) (g : Guard) (rd ra rb : BitVec 5) (aq rl d : Bool) (e : Ext), s.runs c g 4 →
    ∀ p ∈ ([(Instr.amoAdd, fun w old b _ => some ((old + b) % 2 ^ w)), (Instr.amoSwap, fun _ _ b _ => some b),
        (Instr.amoCas, fun _ old b x => if old = x then some b else none),
        (Instr.amoMin, fun w old b _ => some (if (BitVec.ofNat w b).toInt < (BitVec.ofNat w old).toInt then b else old)),
        (Instr.amoMax, fun w old b _ => some (if (BitVec.ofNat w old).toInt < (BitVec.ofNat w b).toInt then b else old)),
        (Instr.amoMinu, fun _ old b _ => some (min old b)), (Instr.amoMaxu, fun _ old b _ => some (max old b))] :
        List ((Nat → Guard → BitVec 5 → BitVec 5 → BitVec 5 → Bool → Bool → Bool → Ext → Instr) × (Nat → Nat → Nat → Nat → Option Nat))),
      let n := if d then 8 else 4
      let va := ((s.ctx c).rd ra).toNat
      let r := (s.leavePoint c).resolveFor c va true
      let put := r.2.modifyAt c r.1 va (r.2.sliceKey (s.accessor c).slice) n true e
        (fun old => (p.2 (8 * n) (natLE old) (((s.ctx c).rd rb).toNat % 2 ^ (8 * n)) (((s.ctx c).rd rd).toNat % 2 ^ (8 * n))).map (bytesLE n))
      let u := put.2
      (va % n ≠ 0 → exec (p.1 c g rd ra rb aq rl d e) s = .next ((s.leavePoint c).raise c ⟨.align, va, 0⟩)) ∧
      (∀ b, va % n = 0 → put.1 = .done b → ∃ t, exec (p.1 c g rd ra rb aq rl d e) s = .next t ∧
        Landed u t c { u.core c with ctx := { (u.ctx c).wr rd (BitVec.ofNat 64 (natLE b)) with pc := (s.ctx c).pc + 4 } })) ∧
  (∀ (s : State) (c addr key n : Nat) (far : Ext) (f : List Byte → Option (List Byte)) (b : List Byte),
    s.holds (s.lid addr) c true = true → addr % 64 + n ≤ 64 → b.length = 64 → s.mem.dirty.find (s.lid addr) = some ⟨b, key, false⟩ →
    let old := (b.drop (addr % 64)).take n
    (f old = none → s.modifyLine c addr key n far f = (.done old, s)) ∧
    ∀ new, new.length = n → f old = some new → (localLid (s.lid addr) = true → s.newDirty (addr % 2 ^ 48) n = []) →
      ∃ t, s.modifyLine c addr key n far f = (.done old, t) ∧ t.l0 (s.lid addr) c = .m ∧
        t.mem.dirty.find (s.lid addr) = some ⟨b.take (addr % 64) ++ new ++ b.drop (addr % 64 + n), key, false⟩ ∧
        (∀ l, l ≠ s.lid addr → t.mem.dirty.find l = s.mem.dirty.find l) ∧ t.mem.cells = s.mem.cells ∧ t.regs = s.regs ∧ t.out = s.out)

/-- Control words (R114, Table 5-2): an index that is not listed raises ILLEGAL; a guest's read of a word marked "—" and a guest's
write of any word but cw.rerr raise PRIV; a read puts the word in rd; a write at steward privilege sets the word, with the bits that
the table holds at zero left zero. FENCE only advances: the model performs a context's accesses in program order, so every order that it asks for holds
(R135). -/
def Obligations.ControlWordsAndFence : Prop :=
  (∀ (s : State) (c : Nat) (g : Guard) (rd ra : BitVec 5) (cw : BitVec 8), s.runs c g 4 → s.regs.rising = true →
    (cwListed cw.toNat = false →
      exec (.cwr c g rd cw) s = .next ((s.leavePoint c).raise c ⟨.illegal, (s.ctx c).pc.toNat, 0⟩) ∧
      exec (.cww c g cw ra) s = .next ((s.leavePoint c).raise c ⟨.illegal, (s.ctx c).pc.toNat, 0⟩)) ∧
    (cwListed cw.toNat = true → (s.core c).priv = false →
      (0x10 ≤ cw.toNat → exec (.cwr c g rd cw) s = .next ((s.leavePoint c).raise c ⟨.priv, (s.ctx c).pc.toNat, 0⟩)) ∧
      (cw ≠ 0x07 → exec (.cww c g cw ra) s = .next ((s.leavePoint c).raise c ⟨.priv, (s.ctx c).pc.toNat, 0⟩))) ∧
    (cwListed cw.toNat = true → (s.core c).priv = true ∨ cw.toNat ≤ 0x0C →
      ∃ t, exec (.cwr c g rd cw) s = .next t ∧ Retired s t c ((s.core c).past 4 (fun x => x.wr rd (s.cwRead c cw.toNat)))) ∧
    (∃ t, exec (.cww c g 0x07 ra) s = .next t ∧
      Retired s t c ((s.core c).past 4 (fun x => { x with rerr := (x.rd ra).toNat % 4 }))) ∧
    ((s.core c).priv = true →
      let v := (s.ctx c).rd ra
      (∃ t, exec (.cww c g 0x00 ra) s = .next t ∧ Retired s t c { (s.core c).past 4 id with
        priv := v.getLsbD 0, exl := v.getLsbD 1, ie := v.getLsbD 2, ppriv := v.getLsbD 3 }) ∧
      (∃ t, exec (.cww c g 0x10 ra) s = .next t ∧ Retired s t c { (s.core c).past 4 id with epc := v }) ∧
      (∃ t, exec (.cww c g 0x12 ra) s = .next t ∧ Retired s t c { (s.core c).past 4 id with badaddr := v }) ∧
      (∃ t, exec (.cww c g 0x13 ra) s = .next t ∧ Retired s t c { (s.core c).past 4 id with tvec := v &&& ~~~63 }) ∧
      (∃ t, exec (.cww c g 0x14 ra) s = .next t ∧ Retired s t c { (s.core c).past 4 id with ivec := v &&& ~~~63 }))) ∧
  (∀ (s : State) (c : Nat) (g : Guard) (mask : BitVec 5), s.runs c g 4 → s.regs.rising = true →
    ∃ t, exec (.cueFence c g mask) s = .next t ∧ Retired s t c ((s.core c).past 4 id))

/-- BUDGET gives what is left of the promise, at least zero, in whole µs at guest privilege; with ra non-zero it lowers
cw.remote_rt to at most ra ns and never raises it (R129). WAITE that need not wait: rd takes the named handles found DONE, those REFUSED and those EXPIRED among them; the reported
handles become FREE and the others keep their state (R126). -/
def Obligations.BudgetAndWaite : Prop :=
  (∀ (s : State) (c i : Nat) (x : Item) (g : Guard) (rd ra : BitVec 5), s.runs c g 4 → s.regs.rising = true →
    (s.core c).item = some i → s.item i = some x →
    let left := x.promise - s.elapsed x
    let a := ((s.ctx c).rd ra).toNat
    ∃ t r, exec (.budget c g rd ra) s = .next t ∧
      Retired s t c ((s.core c).past 4 (fun y =>
        { y with remoteRt := r }.wr rd (BitVec.ofNat 64 (if (s.core c).priv then left else left / 1000 * 1000)))) ∧
      (a = 0 ∨ (allowNs (s.ctx c).remoteRt).getD 0 ≤ a → r = (s.ctx c).remoteRt) ∧
      (a ≠ 0 → a < (allowNs (s.ctx c).remoteRt).getD 0 → r = encodeDown a)) ∧
  (∀ (s : State) (c : Nat) (g : Guard) (rd : BitVec 5) (any : Bool) (mask : BitVec 16), s.runs c g 4 → s.regs.rising = true →
    ((s.ctx c).busy &&& mask.toNat = 0 ∨ (any = true ∧ (s.ctx c).doneMask &&& mask.toNat ≠ 0)) →
    ∃ t, exec (.waite c g rd any mask) s = .next t ∧
      Retired s t c ((s.core c).past 4 (fun x => (x.freeDone mask.toNat).wr rd (x.report mask.toNat))) ∧
      (∀ h, h < 16 → (t.ctx c).rdH h = match (s.ctx c).rdH h with
        | .done o => if mask.getLsbD h then .free else .done o
        | st => st) ∧
      (rd ≠ 0 → ∀ h, h < 16 →
        ((t.ctx c).rd rd).getLsbD h = (mask.getLsbD h && (match (s.ctx c).rdH h with | .done _ => true | _ => false)) ∧
        ((t.ctx c).rd rd).getLsbD (16 + h) = (mask.getLsbD h && (s.ctx c).rdH h == .done .refused) ∧
        ((t.ctx c).rd rd).getLsbD (32 + h) = (mask.getLsbD h && (s.ctx c).rdH h == .done .expired) ∧
        ((t.ctx c).rd rd).getLsbD (48 + h) = false))

/-- YIELD is a yield point of its context with the pc past it, and only retires in code of no context; DONE with no handle BUSY
ends a RUN item ST_OK with RESULT ra and frees its core, hands over the entries of an adapter's from-native entry (R167), and only retires in
other code of no context (R128, R131). SIGNAL: mode CORE, steward only, sets software source 96–127 of the core ra[5:0] pending, and a lower source is ILLEGAL;
mode QUEUE is an event of the owning queue's vector (R130). -/
def Obligations.YieldDoneAndSignals : Prop :=
  (∀ (s : State) (c : Nat) (g : Guard) (ra : BitVec 5), s.runs c g 4 → s.regs.rising = true →
    let u := s.leavePoint c
    (s.inContext c = true → exec (.yield c g) s =
      .next (((u.mapCtx c (fun x => { x with pc := x.pc + 4 })).yieldPoint c).retire c (s.ctx c).pc)) ∧
    (s.inContext c = false → ∃ t, exec (.yield c g) s = .next t ∧ Retired s t c ((s.core c).past 4 id)) ∧
    (s.inContext c = false → s.inAdapter c = false ∨ (s.core c).reading = none →
      ∃ t, exec (.done c g ra) s = .next t ∧ Retired s t c ((s.core c).past 4 id)) ∧
    (∀ i x, s.inContext c = true → (s.core c).reading = none → (s.core c).item = some i → s.item i = some x → x.runner = none →
      (s.ctx c).busy = 0 →
      exec (.done c g ra) s =
        .next ((((u.closeStretch c).finishOk i ((s.ctx c).rd ra)).dispatch c).retire c (s.ctx c).pc)) ∧
    (s.inContext c = true → (s.core c).reading = none → (s.loaded c).isSome = true → (s.ctx c).busy ≠ 0 →
      exec (.done c g ra) s = .next (u.yieldWait c (s.ctx c).busy)) ∧
    (∀ r p, s.inAdapter c = true → (s.core c).reading = some r → (s.ctx c).window 0 (16 * ((s.ctx c).rd ra).toNat) = some p →
      exec (.done c g ra) s = .next ((u.nativeDone c r p ((s.ctx c).rd ra).toNat).retire c (s.ctx c).pc))) ∧
  (∀ (s : State) (c : Nat) (g : Guard) (ra : BitVec 5) (src : BitVec 7), s.runs c g 4 → s.regs.rising = true →
    (src.toNat < 96 → exec (.signalCore c g ra src) s = .next ((s.leavePoint c).raise c ⟨.illegal, (s.ctx c).pc.toNat, 0⟩)) ∧
    (96 ≤ src.toNat → (s.core c).priv = false → exec (.signalCore c g ra src) s = .next ((s.leavePoint c).raise c ⟨.priv, (s.ctx c).pc.toNat, 0⟩)) ∧
    (96 ≤ src.toNat → (s.core c).priv = true →
      let d := ((s.ctx c).rd ra).toNat % 64
      ∃ t, exec (.signalCore c g ra src) s = .next t ∧ t.core c = (s.core c).past 4 id ∧
        t.bitOf .CIC_PEND (d * 4 + src.toNat / 32) (src.toNat % 32) = true ∧
        (∀ i, i ≠ d * 4 + src.toNat / 32 → t.getF .CIC_PEND i = s.getF .CIC_PEND i)) ∧
    (∀ i x, (s.core c).item = some i → s.item i = some x → x.queue < 16384 →
      exec (.signalQueue c g) s = .next ((((s.leavePoint c).queueEvent x.queue).retire c (s.ctx c).pc).mapCtx c (fun y => { y with pc := (s.ctx c).pc + 4 }))))

/-- TISSUE hands the descriptor at its window offset to a granted engine, and MISSUE its move: the handle becomes BUSY with the
operation's number, the operation waits at its unit for the item, and the context goes on (R125). An issue is checked before anything is handed over: a BUSY handle raises HANDLE; an engine outside its range raises ILLEGAL;
one that the item is not granted raises GRANT; a descriptor's offset that is not a multiple of 64 and a move of a length or address that is not a multiple of 64 raises ALIGN (R125). -/
def Obligations.EngineIssue : Prop :=
  (∀ (s : State) (c i : Nat) (x : Item) (g : Guard) (hd : BitVec 4) (ra rb rc : BitVec 5) (srcWin dstWin zero : Bool) (n : Nat),
    s.runs c g 8 → s.regs.rising = true → (s.core c).item = some i → s.item i = some x →
    (∀ o, (s.ctx c).rdH hd.toNat ≠ .busy o) →
    (∀ te : BitVec 6, te.toNat ≤ 47 → (s.cwRead c 0x0B).toNat.testBit te.toNat = true → ((s.ctx c).rd ra).toNat % 64 = 0 →
      ((s.ctx c).rd ra).toNat + 192 ≤ (s.ctx c).lsSize → (s.ctx c).lsBase + ((s.ctx c).rd ra).toNat + 192 ≤ 0x40000 →
      n = todLen ((s.core c).lsRead ((s.ctx c).lsBase + ((s.ctx c).rd ra).toNat) 3) →
      let tod := (s.core c).lsRead ((s.ctx c).lsBase + ((s.ctx c).rd ra).toNat) n
      ∃ t op, exec (.tissue c g hd ra te) s = .next t ∧ t.work.ops.find s.work.nextOp = some op ∧ op.item = i ∧
        op.handle = some hd.toNat ∧ op.on = todUnit tod te.toNat ∧ op.te = te.toNat ∧ op.tod = tod ∧ op.phase = .waiting ∧
        t.work.nextOp = s.work.nextOp + 1 ∧
        t.core c = (s.core c).past 8 (fun y => y.wrH hd.toNat (.busy s.work.nextOp)) ∧ t.mem = s.mem ∧ t.out = s.out) ∧
    (∀ me : BitVec 6, me.toNat ≤ 31 → (s.cwRead c 0x0C).toNat.testBit me.toNat = true → (zero && (ra != 0 || srcWin)) = false →
      let src := ((s.ctx c).rd ra).toNat
      let dst := ((s.ctx c).rd rb).toNat
      let len := ((s.ctx c).rd rc).toNat
      len ≠ 0 → len % 64 = 0 → len ≤ 2 ^ 32 → src % 64 = 0 → dst % 64 = 0 →
      (srcWin = true → src + len ≤ (s.ctx c).lsSize ∧ (s.ctx c).lsBase + src + len ≤ 0x40000) →
      (dstWin = true → dst + len ≤ (s.ctx c).lsSize ∧ (s.ctx c).lsBase + dst + len ≤ 0x40000) →
      ∃ t op, exec (.missue c g hd ra rb rc srcWin dstWin me zero) s = .next t ∧ t.work.ops.find s.work.nextOp = some op ∧
        op.item = i ∧ op.handle = some hd.toNat ∧ op.on = .me me.toNat ∧ op.len = len ∧ op.zero = zero ∧
        op.src = (if srcWin then (s.ctx c).lsBase + src else src) ∧ op.dst = (if dstWin then (s.ctx c).lsBase + dst else dst) ∧
        op.phase = .waiting ∧
        t.core c = (s.core c).past 8 (fun y => y.wrH hd.toNat (.busy s.work.nextOp)) ∧ t.mem = s.mem ∧ t.out = s.out)) ∧
  (∀ (s : State) (c i o : Nat) (x : Item) (g : Guard) (hd : BitVec 4) (ra rb rc : BitVec 5) (te me : BitVec 6), s.runs c g 8 →
    (s.core c).item = some i → s.item i = some x →
    let pc := (s.ctx c).pc.toNat
    (47 < te.toNat → te.toNat ≠ 63 → exec (.tissue c g hd ra te) s = .next ((s.leavePoint c).raise c ⟨.illegal, pc, 0⟩)) ∧
    (31 < me.toNat → me.toNat ≠ 63 → exec (.missue c g hd ra rb rc false false me false) s = .next ((s.leavePoint c).raise c ⟨.illegal, pc, 0⟩)) ∧
    (te.toNat ≤ 47 → (s.ctx c).rdH hd.toNat = .busy o → exec (.tissue c g hd ra te) s = .next ((s.leavePoint c).raise c ⟨.handle, pc, 0⟩)) ∧
    (me.toNat ≤ 31 → (s.ctx c).rdH hd.toNat = .busy o →
      exec (.missue c g hd ra rb rc false false me false) s = .next ((s.leavePoint c).raise c ⟨.handle, pc, 0⟩)) ∧
    ((∀ o, (s.ctx c).rdH hd.toNat ≠ .busy o) →
      (te.toNat ≤ 47 → (s.cwRead c 0x0B).toNat.testBit te.toNat = false → exec (.tissue c g hd ra te) s = .next ((s.leavePoint c).raise c ⟨.grant, pc, 0⟩)) ∧
      (te.toNat ≤ 47 → (s.cwRead c 0x0B).toNat.testBit te.toNat = true → ((s.ctx c).rd ra).toNat % 64 ≠ 0 →
        exec (.tissue c g hd ra te) s = .next ((s.leavePoint c).raise c ⟨.align, ((s.ctx c).rd ra).toNat, 0⟩)) ∧
      (me.toNat ≤ 31 → (s.cwRead c 0x0C).toNat.testBit me.toNat = false →
        exec (.missue c g hd ra rb rc false false me false) s = .next ((s.leavePoint c).raise c ⟨.grant, pc, 0⟩)) ∧
      (me.toNat ≤ 31 → (s.cwRead c 0x0C).toNat.testBit me.toNat = true → ((s.ctx c).rd ra).toNat % 64 = 0 → ((s.ctx c).rd rb).toNat % 64 ≠ 0 →
        exec (.missue c g hd ra rb rc false false me false) s = .next ((s.leavePoint c).raise c ⟨.align, ((s.ctx c).rd rb).toNat, 0⟩))))

/-- ENQ: a full ring gives rd 1 and writes nothing; a ring with room takes the 64 bytes at its tail, the tail moves on by one and rd
is 0, once holders outside the block have given the line up (R281); a queue that is not ACTIVE or PAUSED raises ENQ_DENIED (R127). MBX.SEND to a FULL channel gives rd 1, to an empty one posts
its words and gives rd 0; MBX.RECV of an empty channel gives rd 0, of a FULL one stores its words in the window, clears FULL and gives
their number (R132). -/
def Obligations.EnqAndMailbox : Prop :=
  ∀ (s : State) (c : Nat) (g : Guard) (rd ra rb : BitVec 5) (qid : BitVec 14) (n : BitVec 3),
    (s.runs c g 8 → s.regs.rising = true →
      let off := ((s.ctx c).rd ra).toNat
      let p := (s.ctx c).lsBase + off
      let q := qid.toNat
      off % 64 = 0 → off + 64 ≤ (s.ctx c).lsSize → p + 64 ≤ 0x40000 →
      (s.qState q ≠ 1 → s.qState q ≠ 2 → exec (.enq c g rd ra qid) s = .next ((s.leavePoint c).raise c ⟨.enqDenied, (s.ctx c).pc.toNat, 0⟩)) ∧
      (s.qState q = 1 ∨ s.qState q = 2 → s.getF .QCX_CFG_KIND q = 2 → (s.core c).priv = true →
        let tail := s.getF .QCX_SQ_PTRS_TAIL q
        ((tail + 1) % s.entries q = s.getF .QCX_SQ_PTRS_HEAD q →
          ∃ t, exec (.enq c g rd ra qid) s = .next t ∧ Retired s t c ((s.core c).past 8 (fun x => x.wr rd 1))) ∧
        (∀ h l v, (tail + 1) % s.entries q ≠ s.getF .QCX_SQ_PTRS_HEAD q →
          (s.leavePoint c).heldPages (secOfCore c) ⟨s.qSlice q, none, false⟩ 2 (s.getF .QCX_SQ_BASE q * 4096 + 64 * tail) 64 = (h :: l, v) →
          exec (.enq c g rd ra qid) s = .next (v.takeFrom (h :: l))) ∧
        (∀ v u, (tail + 1) % s.entries q ≠ s.getF .QCX_SQ_PTRS_HEAD q →
          (s.leavePoint c).heldPages (secOfCore c) ⟨s.qSlice q, none, false⟩ 2 (s.getF .QCX_SQ_BASE q * 4096 + 64 * tail) 64 = ([], v) →
          v.writeBytes (secOfCore c) ⟨s.qSlice q, none, false⟩ (s.core c).item (s.getF .QCX_SQ_BASE q * 4096 + 64 * tail)
            ((s.core c).lsRead p 64) = (.done, u) →
          ∃ t, exec (.enq c g rd ra qid) s = .next t ∧
            t = ((u.newTail q ((tail + 1) % s.entries q)).mapCtx c (fun x => x.wr rd 0) |>.retire c (s.ctx c).pc).mapCtx c
              (fun x => { x with pc := (s.ctx c).pc + 8 })))) ∧
    (s.runs c g 4 → s.regs.rising = true →
      let ch := ((s.ctx c).rd ra).toNat % 64
      let off := ((s.ctx c).rd rb).toNat
      let p := (s.ctx c).lsBase + off
      ∀ b, s.mbxAccess ch (s.party c) = .inl b →
        ((s.mbxDir ch b).full = true → ∃ t, exec (.mbxSend c g rd ra rb n) s = .next t ∧ Retired s t c ((s.core c).past 4 (fun x => x.wr rd 1))) ∧
        ((s.mbxDir ch b).full = false → off + 8 * (n.toNat + 1) ≤ (s.ctx c).lsSize → p + 8 * (n.toNat + 1) ≤ 0x40000 →
          ∃ t, exec (.mbxSend c g rd ra rb n) s = .next t ∧ t.core c = (s.core c).past 4 (fun x => x.wr rd 0) ∧
            (t.mbxDir ch b).full = true ∧ (t.mbxDir ch b).len = n.toNat + 1 ∧
            ∀ j, j ≤ n.toNat → (t.mbxDir ch b).words.toList.getD j 0 = BitVec.ofNat 64 (natLE ((s.core c).lsRead (p + 8 * j) 8))) ∧
        ((s.mbxDir ch (!b)).full = false → ∃ t, exec (.mbxRecv c g rd ra rb) s = .next t ∧ Retired s t c ((s.core c).past 4 (fun x => x.wr rd 0))) ∧
        ((s.mbxDir ch (!b)).full = true → off + 8 * (s.mbxDir ch (!b)).len ≤ (s.ctx c).lsSize → p + 8 * (s.mbxDir ch (!b)).len ≤ 0x40000 →
          ∃ t, exec (.mbxRecv c g rd ra rb) s = .next t ∧ (t.mbxDir ch (!b)).full = false ∧
            (t.core c).ctx = { (s.ctx c).wr rd (BitVec.ofNat 64 (s.mbxDir ch (!b)).len) with pc := (s.ctx c).pc + 4 } ∧
            (t.core c).store = cellsPut (s.core c).store p
              (((s.mbxDir ch (!b)).words.toList.take (s.mbxDir ch (!b)).len).flatMap (fun w => bytesLE 8 w.toNat))))

/-- Every Cue instruction's words, as Tables 5-6 to 5-9a lay them out, are read back as that instruction with every operand: a
core that steps over them takes its meaning (R121–R124). The encoding is one-to-one on 32-bit words: the words lie in range, and a first word whose OP is not that of ENQ, TISSUE or MISSUE
is a short form, whose second word is zero (R121). -/
def Obligations.CueWords : Prop :=
  (∀ (i : Instr) (c w0 w1 : Nat) (e : Ext), cueWords i = some (c, w0, w1, e) → cueOf c w0 w1 e = some (exec i)) ∧
  (∀ (i : Instr) (c w0 w1 : Nat) (e : Ext), cueWords i = some (c, w0, w1, e) →
    w0 < 2 ^ 32 ∧ w1 < 2 ^ 32 ∧ (longForm w0 = false → w1 = 0) ∧
    (cueForm i).map (fun x => x.2.2.1) = some (if longForm w0 then 8 else 4))

/-- An interrupt is taken at guest privilege always, at steward privilege with IE set and EXL clear: of the pending, enabled sources
whose priority number is below the top of the stack, one with the lowest priority number, the lowest source number among equals.
Its pending bit clears, it goes on the stack, and the core enters cw.ivec as R138 enters, with CAUSE INT and SOURCE and the firmware's window size
(R116, R140, R351). No interrupt is taken by a halted core, nor at steward privilege with IE clear or EXL set, nor when no eligible source is pending
(R140, R146). -/
def Obligations.Interrupts : Prop :=
  (∀ (s : State) (c i : Nat), s.regs.rising = true → s.coreUp c = true → s.bitF .CUE_DBG_CTRL_HALTED c = false →
    ((s.core c).priv = false ∨ ((s.core c).ie = true ∧ (s.core c).exl = false)) →
    i < 128 → s.pendingOn c i = true → (s.core c).above (s.prioOf c i) = true →
    (∀ j, j < 128 → s.pendingOn c j = true → (s.core c).above (s.prioOf c j) = true →
      s.prioOf c i < s.prioOf c j ∨ (s.prioOf c i = s.prioOf c j ∧ i ≤ j)) →
    ∃ t, exec (.interruptEntry c) s = .next t ∧
      (t.core c).ctx = { s.ctx c with pc := (s.core c).ivec, lsSize := 0x40000 } ∧ (t.core c).epc = (s.ctx c).pc ∧
      (t.core c).ppriv = (s.core c).priv ∧ (t.core c).priv = true ∧ (t.core c).exl = true ∧ (t.core c).ie = false ∧
      (t.core c).cause = BitVec.ofNat 64 (0x20 + i * 2 ^ 16) ∧ (t.core c).stack = (i, s.prioOf c i) :: (s.core c).stack ∧
      t.bitOf .CIC_PEND (c * 4 + i / 32) (i % 32) = false ∧
      (∀ f j, ¬ (f = .CIC_PEND ∧ j = c * 4 + i / 32) → t.getF f j = s.getF f j) ∧ ∀ d, d ≠ c → t.core d = s.core d) ∧
  (∀ (s : State) (c : Nat),
    (s.bitF .CUE_DBG_CTRL_HALTED c = true ∨ ((s.core c).priv = true ∧ ((s.core c).ie = false ∨ (s.core c).exl = true)) ∨
      (∀ i, i < 128 → s.pendingOn c i = true → (s.core c).above (s.prioOf c i) = false)) →
    exec (.interruptEntry c) s = .next s)

/-- Debug of a core (R146): HALT_REQ is set and source DEBUG raised; a core with HALT_REQ and no accepted item halts, RESUME lets a
halted core with EXL set go on, an enabled breakpoint at the pc halts it with TEST_EN, and CUE_CLR clears the three counters. A halt leaves
the items that the core does not hold as they are (that those it holds break once each is R74). While halted, a write of CUE_DBG_DATA changes the selected register, predicate, control word (also one that is RO) or local-store word of that core and nothing else,
and STEP executes the instruction at the pc and leaves the core halted; on a core that is not halted both do nothing (R146). A stretch of a guest context that reaches 10 × 100,000 ns × S_adm raises STRETCH: the exception is counted, one record with REASON 0x0006
is written and the core takes a CUE reset; before that length nothing happens (R128, Table 16-3). -/
def Obligations.DebugControl : Prop :=
  (∀ (s : State) (c : Nat), s.regs.rising = true → c < 64 →
    (∃ t, exec (.cueHaltReq c) s = .next t ∧ t.bitF .CUE_DBG_CTRL_HALT_REQ c = true ∧ t.bitOf .CIC_PEND (c * 4) 5 = true ∧
      t.work = s.work ∧ t.mem = s.mem) ∧
    (s.coreUp c = true → s.bitF .CUE_DBG_CTRL_HALT_REQ c = true → s.bitF .CUE_DBG_CTRL_HALTED c = false →
      s.itemsWhere (fun x => x.contextOn c) = [] →
      exec (.cueHalted c) s = .next (s.haltCore c) ∧ (s.haltCore c).bitF .CUE_DBG_CTRL_HALTED c = true ∧ (s.haltCore c).mem = s.mem ∧
        (s.heldOn c = [] → (s.haltCore c).work = s.work)) ∧
    (∀ i x, s.work.items.find i = some x → i ∉ s.heldOn c → (s.haltCore c).work.items.find i = some x) ∧
    (s.bitF .CUE_DBG_CTRL_HALTED c = true → (s.core c).exl = true →
      ∃ t, exec (.cueResume c) s = .next t ∧ t.bitF .CUE_DBG_CTRL_HALTED c = false ∧ t.bitF .CUE_DBG_CTRL_HALT_REQ c = false ∧
        t.work = s.work) ∧
    (∀ n, n < 4 → s.coreUp c = true → s.edge.straps.testEn = true → s.bitF .CUE_DBG_CTRL_HALTED c = false →
      s.bitOf .CUE_DBG_CTRL_BKPT_EN c n = true → s.getF .CUE_BKPT_ADDR (c * 4 + n) = (s.ctx c).pc.toNat / 4 →
      exec (.cueBreakpoint c) s = .next (s.haltCore c)) ∧
    (∃ t, exec (.cueClr c) s = .next t ∧ t.getF .CUE_STRETCH_MAX_NS c = 0 ∧ t.getF .CUE_OVERRUN_COUNT c = 0 ∧
      t.getF .CUE_RETIRED_COUNT c = 0 ∧ t.work = s.work ∧
      ∀ f i, ¬ (i = c ∧ (f = .CUE_STRETCH_MAX_NS ∨ f = .CUE_OVERRUN_COUNT ∨ f = .CUE_RETIRED_COUNT)) → t.getF f i = s.getF f i)) ∧
  (∀ (s : State) (c : Nat) (v : Word) (e : Ext), s.regs.rising = true →
    (s.bitF .CUE_DBG_CTRL_HALTED c = false → exec (.cueDbgDataWrite c v) s = .next s ∧ exec (.cueStep c e) s = .next s) ∧
    (s.bitF .CUE_DBG_CTRL_HALTED c = true →
      let n := s.getF .CUE_DBG_SEL_INDEX c
      (s.getF .CUE_DBG_SEL_SPACE c = 0 → n < 32 → exec (.cueDbgDataWrite c v) s =
        .next (s.setCore c { s.core c with ctx := (s.ctx c).wr (BitVec.ofNat 5 n) v })) ∧
      (s.getF .CUE_DBG_SEL_SPACE c = 1 → n < 8 → exec (.cueDbgDataWrite c v) s =
        .next (s.setCore c { s.core c with ctx := (s.ctx c).wrP (BitVec.ofNat 3 n) (v.getLsbD 0) })) ∧
      (s.getF .CUE_DBG_SEL_SPACE c = 4 → n < 32768 → exec (.cueDbgDataWrite c v) s =
        .next (s.setCore c { s.core c with store := cellsPut (s.core c).store (8 * n) (bytesLE 8 v.toNat) })) ∧
      (s.getF .CUE_DBG_SEL_SPACE c = 3 → n ∈ [0x01, 0x02, 0x03, 0x04, 0x05, 0x0B, 0x0C, 0x17, 0x18] →
        ∃ t, exec (.cueDbgDataWrite c v) s = .next t ∧ t.cwRead c n = BitVec.ofNat 64 (v.toNat % 2 ^ cwBits n) ∧
          (∀ j, j ≠ n → t.cwRead c j = s.cwRead c j) ∧ (∀ d, d ≠ c → t.core d = s.core d) ∧ t.regs = s.regs ∧ t.mem = s.mem) ∧
      (∀ w0 f t u, s.coreUp c = true → (s.setF .CUE_DBG_CTRL_HALTED c 0).executes c = true → (s.ctx c).pc.toNat % 4 = 0 →
        longForm w0 = false → (∃ b, natLE b = w0 ∧ ((s.setF .CUE_DBG_CTRL_HALTED c 0).leavePoint c).readCode c (s.ctx c).pc.toNat 4 = (.bytes b, u)) →
        cueOf c w0 0 e = some f → f u = .next t →
        exec (.cueStep c e) s = .next (t.setF .CUE_DBG_CTRL_HALTED c 1)))) ∧
  (∀ (s : State) (c i : Nat) (x : Item), (s.core c).item = some i → s.itemNow i = some x → s.item i ≠ none →
    (s.stretchLen c < scale x.sAdm 1000000 → exec (.stretchExpiry c) s = .next s) ∧
    (scale x.sAdm 1000000 ≤ s.stretchLen c → exec (.stretchExpiry c) s = .next ((s.noteExc c 0x18).faultReset (unitOfCore c)
      { s.recordOf x 0x0006 2 3 with core := c, aux0 := s.stretchLen c })))

/-! ### Pins, power and die-to-die modules (chapter 02) -/

/-- PORST_N low, or a fall of EDGE_PWR_OK while PORST_N is high, is a cold reset of the whole block: every register field is back at
its reset value (slice 0's at R328's), no work, record, memory byte or port state is left, and key slot 0 is drawn anew (R364); the time, the commands that wait and the
build stand (R54, Table 2-9; that time and what was sent go on is the model's: log entry 4). PORST_N rising on a powered edge samples the straps and the build, starts STARTING and the training of every module; with the core
powered it then leaves reset in stage 1 (R54, R56, R402), and a telemetry record that the edge kept is taken as a new one (R228). A fall of
CORE_PWR_OK loses the fault log (R381). -/
def Obligations.PowerAndColdReset : Prop :=
  (∀ (s : State) (i : Instr), i = .porstNLow ∨ (i = .edgePwrOkFall ∧ s.edge.pins.porstN = true) →
    ∃ t, exec i s = .next t ∧ t.regs = State.reset.regs ∧ t.mem = State.reset.mem ∧ t.coh = State.reset.coh ∧ t.fil = State.reset.fil ∧
      t.sec = State.reset.sec ∧ t.recov = State.reset.recov ∧ t.serve = State.reset.serve ∧ t.temper = State.reset.temper ∧
      t.work.items = [] ∧ t.work.queues = [] ∧ t.work.cores = [] ∧ t.work.casts = [] ∧ t.work.backends = [] ∧
      t.edge.coreOut = false ∧ t.edge.ia = [] ∧ t.edge.tlm = none ∧ t.edge.pst = ⟨.none, 0, 0, false⟩ ∧
      t.edge.pins.porstN = (decide (i = .edgePwrOkFall)) ∧ t.edge.pins.vidReq = false ∧ t.edge.pins.vidCode = 26 ∧
      t.slices.keys = [(0, ⟨.live, false, s.now, s.slices.drbg + 1⟩)] ∧
      t.edge.build = s.edge.build ∧ t.now = s.now ∧ t.pending = s.pending) ∧
  (∀ (s : State) (x : Straps) (b : Build), s.regs.rising = true →
    (s.edge.pins.porstN = false → x.mgtSrc ≠ 1 → ∃ t, exec (.porstNRise x b) s = .next t ∧ t.edge.pins.porstN = true ∧
      t.edge.straps = x ∧ t.edge.build = b ∧ t.edge.porAt = s.now ∧ t.blkState = 1 ∧
      (∀ d m, d < b.dies → m < 4 → t.edge.ia.find (4 * d + m) = some ⟨.training, .l0⟩) ∧ t.mem = s.mem ∧ t.work = s.work) ∧
    (s.edge.coreOut = false → s.edge.pins.porstN = true → s.edge.pins.corePwrOk = true → s.edge.pins.edgePwrOk = true →
      s.recov.warm = none → s.recov.dump = none →
      ∃ t : State, t.edge.coreOut = true ∧ t.recov.stages = [] ∧ t.recov.image = none ∧
        t.getF .BLK_STAGE_DONE 0 = 0 ∧ t.getF .BLK_IMG_CTRL_VALID 0 = 0 ∧ t.work = s.work ∧ t.mem = s.mem ∧
        exec .coreLeavesReset s = .next (match s.edge.tlm with | some r => t.useTlm t.stackTempsNow r | none => t)) ∧
    (∃ t, exec .corePwrOkFall s = .next t ∧ t.coreOn = false ∧ t.recov.faults = [] ∧ t.regs = s.regs ∧ t.work = s.work ∧ t.mem = s.mem) ∧
    (s.recov.warm = none → s.recov.warmHeld = none →
      ∃ t, exec .corePwrOkRise s = .next t ∧ t.edge.pins.corePwrOk = true ∧ t.regs = s.regs ∧ t.work = s.work ∧ t.mem = s.mem) ∧
    (∀ ns, ns < 1000 → exec (.wrstNLow ns) s = .next s))

/-- A core warm reset is triggered by WRST_N held low for 1 µs (cause 1), BLK_CTRL.WARM (2), BLK_CTRL.FENCE (3) and the causes of
Table 16-5; without one running, and with no flush running or ahead and the core powered, each starts it: the cause and its record stand in
BLK_CAUSE, the block is RECOVERING, not READY, and no item is left (R393–R395). One that meets a running warm reset is absorbed, one without core power is held, and in cold reset none has an effect (R393, Tables
2-10 and 16-5). -/
def Obligations.WarmResets : Prop :=
  (∀ (s : State) (i : Instr) (cause : Nat), s.regsOk → s.edgeUp = true → s.edge.pins.corePwrOk = true → s.flushAhead = false →
    s.recov.warm = none → s.bitF .FLT_DUMP_CTRL_EN 0 = false →
    ((i = .blkCtrlWarm ∧ cause = 2) ∨ (i = .blkCtrlFence ∧ cause = 3) ∨ (i = .warmResetTrigger cause ∧ 1 ≤ cause ∧ cause ≤ 6) ∨
      (∃ ns, 1000 ≤ ns ∧ i = .wrstNLow ns ∧ cause = 1)) →
    ∃ t, exec i s = .next t ∧ t.getF .BLK_CAUSE 0 = cause ∧ t.getF .BLK_STATE_READY 0 = 0 ∧ t.blkState = 4 ∧ t.work.items = [] ∧
      t.work.ops = [] ∧ t.recov.warm.isSome = true) ∧
  (∀ (s : State) (cause : Nat), 1 ≤ cause → cause ≤ 6 →
    (s.edgeUp = false → exec (.warmResetTrigger cause) s = .next s ∧ exec .blkCtrlWarm s = .next s ∧ exec .blkCtrlFence s = .next s ∧
      ∀ ns, exec (.wrstNLow ns) s = .next s) ∧
    (s.recov.warm.isSome = true → cause ≠ 1 → exec (.warmResetTrigger cause) s = .next s) ∧
    (s.edgeUp = true → s.recov.warm = none → s.edge.pins.corePwrOk = false → s.recov.warmHeld = none →
      exec (.warmResetTrigger cause) s = .next { s with recov := { s.recov with warmHeld := some (cause, 0) } }))

/-- Modules of a die (R35, R37, R402): training opens a module at full or half width; a full one falls to half; one that fails, or whose
adapter gives up, is failed; a module that carries no open channel goes to L1, once; an absent module has no event. -/
def Obligations.DieModules : Prop :=
  ∀ (s : State) (d m : Nat) (half : Bool) (x : IaModule), s.edge.ia.rising = true →
    (s.edge.ia.find (d * 4 + m) = none → ∀ i ∈ [Instr.iaModuleTrained d m half, .iaModuleDegrade d m, .iaModuleFail d m,
      .adapterRetryExhausted d m, .iaLinkPowerState d m], exec i s = .next s) ∧
    (s.edge.ia.find (d * 4 + m) = some x →
      (x.state = .training ∨ x.state = .failed → ∃ t, exec (.iaModuleTrained d m half) s = .next t ∧
        t.edge.ia.find (d * 4 + m) = some { x with state := if half then .half else .full } ∧ t.mem = s.mem ∧ t.work = s.work) ∧
      (x.state = .full → ∃ t, exec (.iaModuleDegrade d m) s = .next t ∧ t.edge.ia.find (d * 4 + m) = some { x with state := .half } ∧
        t.mem = s.mem ∧ t.work = s.work ∧ ∀ p, p ∈ modulePorts d m → s.portState p = 2 → t.portState p = 3) ∧
      (∃ t u, exec (.iaModuleFail d m) s = .next t ∧ exec (.adapterRetryExhausted d m) s = .next u ∧ t = u ∧
        t.edge.ia.find (d * 4 + m) = some { x with state := .failed }) ∧
      (x.power = .l0 → s.moduleBusy d m = false → exec (.iaLinkPowerState d m) s =
        .next ((s.setModule d m (fun y => { y with power := .l1 })).emit (.iaPower d m 1))) ∧
      (x.power = .l1 → s.moduleBusy d m = true → exec (.iaLinkPowerState d m) s =
        .next ((s.setModule d m (fun y => { y with power := .l0 })).emit (.iaPower d m 0))))

/-- TREF (R52): a loss writes a record with REASON 0x001C, sets PRM_STATUS.TREF_LOST and notes the time, once; its return clears the flag;
lost for more than 10 s, it is a warm reset of cause 5; ENTDAA gives the sideband its address (R49). The voltage handshake (R45, R46): VID_ACK rising with VID_REQ high puts the requested code in force and lowers VID_REQ; its fall ends
the handshake; one that has not risen 250 µs after VID_REQ is recorded once, naming the code, and VID_REQ stays raised. -/
def Obligations.ClockAndVoltage : Prop :=
  (∀ (s : State) (a : BitVec 7), s.regsOk →
    (s.edge.trefLostAt = none → ∃ t r, exec .trefLoss s = .next t ∧ t.bitF .PRM_STATUS_TREF_LOST 0 = true ∧ t.edge.trefLostAt = some s.now ∧
      r ∈ t.recov.faults ∧ r.reason = 0x1C ∧ r.domain = 11 ∧ r.index = s.nextIndex ∧ t.work = s.work ∧ t.mem = s.mem) ∧
    (∀ l, s.edge.trefLostAt = some l →
      exec .trefLoss s = .next s ∧
      (∃ t, exec .trefRestored s = .next t ∧ t.bitF .PRM_STATUS_TREF_LOST 0 = false ∧ t.edge.trefLostAt = none ∧
        t.edge.trefPast = s.edge.trefPast ++ [(l, s.now)] ∧ t.work = s.work) ∧
      (s.now ≤ l + 10000000000 → exec .trefLostTimeout s = .next s) ∧
      (l + 10000000000 < s.now → exec .trefLostTimeout s = .next (s.warmTrigger 5 0))) ∧
    (s.edgeUp = true → exec (.i3cEntdaa a) s = .next { s with edge := { s.edge with i3cAddr := some a.toNat } }) ∧
    (s.edgeUp = false → exec (.i3cEntdaa a) s = .next s)) ∧
  (∀ s : State, s.regsOk →
    (s.edge.pins.vidReq = true → s.edge.pins.vidAck = false → s.edge.pins.vidCode < 64 →
      ∃ t, exec .vidAckRise s = .next t ∧ t.getF .TMP_STATUS_CODE 0 = s.edge.pins.vidCode ∧ t.edge.pins.vidReq = false ∧
        t.edge.pins.vidAck = true ∧ t.work = s.work) ∧
    (s.edge.pins.vidReq = false → s.edge.pins.vidAck = true →
      ∃ t, exec .vidAckFall s = .next t ∧ t.edge.pins.vidAck = false ∧ t.vidBusy = false ∧ t.regs = s.regs ∧ t.work = s.work) ∧
    (s.edge.pins.vidReq = true → s.edge.pins.vidAck = false → s.edge.vidLate = false → s.edge.vidAt + 250000 ≤ s.now →
      ∃ t r, exec .vidAckLate s = .next t ∧ t.edge.pins.vidReq = true ∧ t.edge.vidLate = true ∧ r ∈ t.recov.faults ∧ r.reason = 0x1B ∧
        r.aux0 = s.edge.pins.vidCode ∧ exec .vidAckLate t = .next t))

/-! ### Temper (chapter 09) -/

/-- Telemetry (R43, R44, R227): a record that fails a check is discarded and counted and changes nothing else; a valid one replaces the
last; a stale spell takes Temper to STALE, with coverage zero and no grants; after 1 ms it is recorded once, naming TLM. -/
def Obligations.TelemetryRecords : Prop :=
  ∀ (s : State) (b : List Byte), s.regsOk → s.edge.pins.porstN = true → s.edge.pins.edgePwrOk = true →
    (s.tlmOk b = false → ∃ t, exec (.tlmRecord b) s = .next t ∧
      t.getF .TMP_TLM_DISCARDS 0 = (s.getF .TMP_TLM_DISCARDS 0 + 1) % 2 ^ Fld.width .TMP_TLM_DISCARDS ∧ t.edge = s.edge ∧ t.temper = s.temper ∧
      t.work = s.work) ∧
    (s.tlmOk b = true → s.coreOn = false → ∃ t r, exec (.tlmRecord b) s = .next t ∧ t.edge.tlm = some r ∧ r.arrived = s.now ∧
      r.seq = (b.getD 1 0).toNat ∧ r.inputLost = (b.getD 2 0).getLsbD 0 ∧ r.pAssured = (b.getD 8 0).toNat + 256 * (b.getD 9 0).toNat ∧
      t.work = s.work ∧ t.regs = s.regs) ∧
    (s.stale = true → s.getF .TMP_STATUS_STATE 0 < 2 → ∃ t, exec .tlmStale s = .next t ∧ t.tmpState = 0 ∧ t.getF .TMP_DUR_COVER_PAGES 0 = 0 ∧
      (∀ k v, t.temper.grants.find k = some v → v < 0) ∧ t.work = s.work) ∧
    (s.stale = false → exec .tlmStale s = .next s ∧ exec .tlmStaleFault s = .next s) ∧
    (∀ a, s.stale = true → s.temper.staleAt = some a → s.temper.staleLogged = false → a + 1000000 ≤ s.now →
      ∃ t r, exec .tlmStaleFault s = .next t ∧ t.temper.staleLogged = true ∧ r ∈ t.recov.faults ∧ r.reason = 0x1A ∧ r.index = s.nextIndex)

/-- A burnish reading (R58–R60): with every monitor good and in range, S of an area is the largest of its monitors; the reading count rises to 64; below 64 readings S_g is 1.75, from the 64th on 1.1 × the largest of the last 64, at most 1.75. A
reading without the core, or with TREF lost, does nothing. A Temper window (R233, R237, R263): without the core it does nothing; a junction at 115 °C or above is a warm reset of cause 6 that the record
names; a cooler one sets TJ_MAX and bars the sections that Table 9-2 bars, and the stacks' own sensors are noted as the window reads them. -/
def Obligations.BurnishAndTemper : Prop :=
  (∀ (s : State) (v : List (List Nat)), s.regsOk → (∀ h ∈ s.temper.history, h.1 ≤ 2560) →
    (s.coreOn = false ∨ s.edge.trefLostAt.isSome = true → exec (.burnishReading v) s = .next s) ∧
    (s.coreOn = true → s.edge.trefLostAt = none → ∃ t, exec (.burnishReading v) s = .next t ∧
      t.getF .PRM_STATUS_READINGS 0 = min 64 (s.getF .PRM_STATUS_READINGS 0 + 1) ∧
      (t.getF .PRM_STATUS_READINGS 0 < 64 → t.getF .PRM_STATUS_S_G 0 = 1792) ∧
      (t.getF .PRM_STATUS_READINGS 0 = 64 → t.getF .PRM_STATUS_S_G 0 = min 1792 ((11 * t.getF .PRM_BURNISH_S_MAX64 0 + 9) / 10)) ∧
      t.getF .PRM_BURNISH_S_LAST 0 ≤ t.getF .PRM_BURNISH_S_MAX64 0 ∧
      (s.temper.badMon = [] →
        (∀ k, k < 9 → (v.getD k []).length = monitorsOf k ∧ ∀ x ∈ v.getD k [], 512 ≤ x ∧ x ≤ 2560) →
        ∀ k, k < 9 → t.getF .PRM_MON_S_AREA k = (v.getD k []).foldl max 0))) ∧
  (∀ (s : State) (w : WindowTemps) (js : List Int), s.regsOk → w.junctions = js →
    (s.coreOn = false → exec (.temperWindow w) s = .next s) ∧
    (s.coreOn = true → (∃ j ∈ js, 115 ≤ j) → s.bitF .TMP_STATUS_THERMAL_HIGH 0 = true →
      ∃ u : State, u.work = s.work ∧ u.edge = s.edge ∧ (w.ownTemps = [] → u.recov = s.recov) ∧
        exec (.temperWindow w) s = .next (u.warmTrigger 6 (js.foldl max (-128)).toNat)) ∧
    (s.coreOn = true → js ≠ [] → (∀ j ∈ js, -128 ≤ j ∧ j < 110) → s.bitF .TMP_STATUS_THERMAL_HIGH 0 = false → s.tmpState = 1 →
      ∃ t, exec (.temperWindow w) s = .next t ∧ t.temper.own = (if w.ownTemps = [] then s.temper.own else w.ownTemps) ∧ t.temper.barredTj = s.barTj js ∧ t.temper.barredMs = s.barMs ∧
        t.getF .TMP_THERM_TJ_MAX 0 = byteOf (js.foldl max (-128))))

/-- The persist channel (R47, R48, R245): credits add up, on an open channel; PERSISTED of the committed clean epoch makes its pages clean; FAILED of one
makes them dirty again; either way the next clean epoch opens if one is due; an answer that names no open epoch changes nothing; a region that breaks R241 sets DUR_ERR and one
that keeps it is enabled. -/
def Obligations.PersistChannel : Prop :=
  ∀ (s : State) (n e r : Nat), s.regsOk → s.temper.dur.rising = true →
    (s.pstUp = false → exec (.pstCredit n) s = .next s) ∧
    (s.pstUp = true → ∃ t, exec (.pstCredit n) s = .next t ∧ t.edge.pst.credit = s.edge.pst.credit + n ∧ t.work = s.work ∧ t.regs = s.regs ∧ t.temper = s.temper) ∧
    (s.pstUp = true → s.edge.pst.epoch = .cleaning → s.edge.pst.committed = true → s.pstEpoch = e →
      (∃ t, exec (.pstPersisted e) s = .next t ∧ t.edge.pst.epoch = (if t.cleanDue then .cleaning else .none) ∧
        (∀ p, s.temper.dur.find p = some (.inflight e) → t.temper.dur.find p = none) ∧
        (∀ p, s.temper.dur.find p = some .dirty → t.temper.dur.find p = some .dirty)) ∧
      (∃ t, exec (.pstFailed e) s = .next t ∧ t.edge.pst.epoch = (if t.cleanDue then .cleaning else .none) ∧
        (∀ p, s.temper.dur.find p = some (.inflight e) → t.temper.dur.find p = some .dirty))) ∧
    (s.pstAnswers e = false → s.edge.pst.epoch ≠ .flushing → exec (.pstPersisted e) s = .next s ∧ exec (.pstFailed e) s = .next s) ∧
    (s.edge.pst.epoch = .none → s.cleanDue = false → s.shedding = true → exec .pstEpochSend s = .next s) ∧
    (s.pstUp = true → s.edge.pst.epoch = .none → s.cleanDue = true → s.shedding = true → s.edge.pst.credit = 0 → s.cleanEnough = false →
      ∃ t, exec .pstEpochSend s = .next t ∧ t.edge.pst.epoch = .cleaning ∧ t.pstEpoch = (s.pstEpoch + 1) % 2 ^ 16 ∧
        t.out = s.out ++ [pstPacket 1 ((s.pstEpoch + 1) % 2 ^ 16) 0 0 0 0 []]) ∧
    (r < 64 → s.bitF .TMP_DUR_SIZE_EN r = false →
      (s.durOk r = true → exec (.tmpDurEnable r) s = .next (s.setF .TMP_DUR_SIZE_EN r 1)) ∧
      (s.durOk r = false → exec (.tmpDurEnable r) s = .next (s.setF .TMP_STATUS_DUR_ERR 0 1)))

/-! ### Queues, descriptors and items (chapters 03, 04) -/

/-- Doorbell-page writes of a queue that is ACTIVE, PAUSED or FROZEN, through its recorded path (R92–R95, R102, R104): SQ_TAIL below the
entries becomes the tail and marks the queue ready (queue 0 with source MGMT of c0, Table 14-1), at or above them it sets LAST_ERR TAIL_RANGE and changes nothing else; CQ_HEAD that
frees written entries frees them, another sets LAST_ERR and is counted as ignored; IDLE_HINT sets PARKED; CANCEL withdraws the oldest open
item of that TAG, and does nothing while CANCEL is disabled, nor, which is the model's reading (log entry 110), where the oldest has ended and its
completion waits its turn. A doorbell-page write through any other path, or on a FREE or TOMBSTONE queue, acts on nothing: it is counted as ignored on that
queue, and the block's other state stands (R92, R93, Table 4-12). -/
def Obligations.Doorbells : Prop :=
  (∀ (s : State) (p : Path) (q : Nat) (v : W32), s.regsOk → s.pathShut p = false → s.closed = false → s.qState q ≠ 0 → s.qState q ≠ 4 →
    s.queuePath q p = true →
    let n := s.entries q
    let w := v.toNat % 2 ^ 16
    (s.getF .QCX_CFG_KIND q < 2 → w < n →
      ∃ t, exec (.sqTailWrite p q v) s = .next t ∧ t.getF .QCX_SQ_PTRS_TAIL q = w ∧
        (∀ f j, ¬ (f = .QCX_SQ_PTRS_TAIL ∧ j = q) → ¬ (q = 0 ∧ f = .CIC_PEND ∧ j = 0) → t.getF f j = s.getF f j) ∧
        (w ≠ s.getF .QCX_SQ_PTRS_HEAD q → (t.qx q).readyAt.isSome = true ∧
          (q = 0 → (s.qx q).readyAt = none → t.bitOf .CIC_PEND 0 4 = true)) ∧ t.mem = s.mem ∧ t.out = s.out) ∧
    (s.getF .QCX_CFG_KIND q < 2 → n ≤ w → exec (.sqTailWrite p q v) s = .next (s.setF .QCX_ERR_LAST_ERR q 4)) ∧
    (2 ≤ s.getF .QCX_CFG_KIND q → exec (.sqTailWrite p q v) s = .next s) ∧
    (let d := (w + n - s.getF .QCX_CQ_PTRS_HEAD q) % n
     (w < n → d ≤ (s.qx q).unfreed → ∃ t, exec (.cqHeadWrite p q v) s = .next t ∧ t.getF .QCX_CQ_PTRS_HEAD q = w ∧
        (t.qx q).unfreed = (s.qx q).unfreed - d ∧ t.mem = s.mem ∧ t.out = s.out) ∧
     (n ≤ w ∨ (s.qx q).unfreed < d → exec (.cqHeadWrite p q v) s =
        .next ((s.setF .QCX_ERR_LAST_ERR q 6).ignoreDoorbell q))) ∧
    (exec (.idleHintWrite p q v) s = .next (s.setF .QCX_STATE_PARKED q (v.toNat % 2))) ∧
    (s.bitF .QCX_STATE_CANCEL_EN q = false → exec (.cancelWrite p q v) s = .next s) ∧
    (∀ i x rest, s.bitF .QCX_STATE_CANCEL_EN q = true →
      s.itemsWhere (fun x => x.queue == q && !x.step && x.desc.tag == v.toNat) = (i, x) :: rest → x.cause = none →
      (s.tagWaits q i v.toNat = false → exec (.cancelWrite p q v) s = .next (s.withdrawItem i causeCancel)) ∧
      (s.tagWaits q i v.toNat = true → exec (.cancelWrite p q v) s = .next s))) ∧
  (∀ (s : State) (p : Path) (q : Nat) (v : W32), s.pathShut p = false → s.closed = false →
    s.qState q = 0 ∨ s.qState q = 4 ∨ s.queuePath q p = false →
    ∀ i ∈ [Instr.sqTailWrite p q v, .cqHeadWrite p q v, .idleHintWrite p q v, .cancelWrite p q v],
      exec i s = .next (s.bumpF .QCX_ERR_DB_IGNORED q))

/-- The tail line of a doorbell-less queue (KIND 3): a write of it makes the block read TAIL again, a value below the entries becomes
the tail, and the block holds the line again; a read that fails to translate, meets poison or is refused pauses the queue with LAST_ERR 3, 7 or
8 (R90, R107, Table 4-12). A failed ring access of an ACTIVE or PAUSED queue pauses it; on a FREE or TOMBSTONE queue nothing happens; on a FROZEN one
only a CQ failure acts, which THAW then finds as PRIOR PAUSED (log entry 77). Fetch (R97, R80, R117, R147, R161): the queue whose turn it is gives its head descriptor, copied with a RUN's bound header; one with LINK clear whose core
has a free context record and window space is kept as pending with a CQ entry reserved, HEAD moves on by one, and the turn passes; without them it
stays in its ring. A core that is down, halted, asked to halt, or without a queue to serve fetches nothing. -/
def Obligations.RingReads : Prop :=
  (∀ (s u : State) (q : Nat) (e : List Ext), s.regs.rising = true → u.regs.rising = true →
    (s.qState q = 1 ∨ s.qState q = 2 → s.getF .QCX_CFG_KIND q = 3 →
      let rd := s.readGuest (s.qSec q) ⟨s.qSlice q, none, false⟩ (s.getF .QCX_TAIL_LINE q * 64) 4 e
      let unheld := u.setQx q { u.qx q with watch := none }
      (∀ b rs, rd = (.bytes b, rs, u) → natLE b < u.entries q →
        (u.newTail q (natLE b)).getF .QCX_SQ_PTRS_TAIL q = natLE b % 2 ^ Fld.width .QCX_SQ_PTRS_TAIL ∧
        exec (.tailLineSnoop q e) s = .next ((u.newTail q (natLE b)).tendTail q)) ∧
      (u.qState q = 1 ∨ u.qState q = 2 →
        (∀ x rs, rd = (.xlate x, rs, u) → exec (.tailLineSnoop q e) s = .next (unheld.pauseOnError q 3)) ∧
        (∀ rs, rd = (.poison, rs, u) → exec (.tailLineSnoop q e) s = .next (unheld.pauseOnError q 7)) ∧
        (∀ k r rs, rd = (.refused k r, rs, u) → exec (.tailLineSnoop q e) s = .next (unheld.pauseOnError q 8)))) ∧
    (∀ p ∈ [(RingFail.sqXlate, 1), (.cqXlate, 2), (.tailXlate, 3), (.poison, 7), (.refused, 8), (.cqRefused, 8)],
      (s.qState q = 1 ∨ s.qState q = 2 →
        ∃ t, exec (.ringAccessFailure q p.1) s = .next t ∧ t.qState q = 2 ∧ t.getF .QCX_ERR_LAST_ERR q = p.2) ∧
      (s.qState q = 3 → (p.1 = .cqXlate ∨ p.1 = .cqRefused →
        ∃ t, exec (.ringAccessFailure q p.1) s = .next t ∧ t.qState q = 3 ∧ t.getF .QCX_STATE_PRIOR q = 2 ∧ t.getF .QCX_ERR_LAST_ERR q = p.2) ∧
        (p.1 ≠ .cqXlate → p.1 ≠ .cqRefused → exec (.ringAccessFailure q p.1) s = .next s)) ∧
      (s.qState q = 0 ∨ s.qState q = 4 → exec (.ringAccessFailure q p.1) s = .next s))) ∧
  (∀ (s u w : State) (c q va : Nat) (d : Desc) (e rs rs' : List Ext) (b : List Byte), s.regs.rising = true → w.regs.rising = true →
    (s.coreUp c = false ∨ s.bitF .CUE_DBG_CTRL_HALT_REQ c = true ∨ s.bitF .CUE_DBG_CTRL_HALTED c = true ∨ s.turn c = none →
      exec (.descriptorFetch c e) s = .next s) ∧
    (s.coreUp c = true → s.bitF .CUE_DBG_CTRL_HALT_REQ c = false → s.bitF .CUE_DBG_CTRL_HALTED c = false →
      s.turn c = some q → (s.qx q).chain = none → (fieldLE b 1 1).testBit 1 = false →
      va = s.getF .QCX_SQ_BASE q * 4096 + 64 * s.getF .QCX_SQ_PTRS_HEAD q →
      s.readGuest (s.qSec q) ⟨s.qSlice q, none, false⟩ va 64 e = (.bytes b, rs, u) →
      u.copyDesc q 0 va b rs = (d, rs', w) → w.work = s.work →
      (w.roomFor q d = false → exec (.descriptorFetch c e) s = .next w) ∧
      (w.roomFor q d = true → w.getF .QCX_SQ_PTRS_HEAD q < w.entries q → w.entries q ≤ 2 ^ 16 →
        ∃ t, exec (.descriptorFetch c e) s = .next t ∧ (t.qx q).fetched = (s.qx q).fetched ++ [d] ∧ d.tag = fieldLE b 4 4 ∧ d.opc = fieldLE b 0 1 ∧
          (t.qx q).reserved = (s.qx q).reserved + 1 ∧ t.getF .QCX_SQ_PTRS_HEAD q = (w.getF .QCX_SQ_PTRS_HEAD q + 1) % w.entries q ∧
          (if s.bitF .QCX_CFG_LC_OK q then (t.core c).rrLast = q ∧ (t.core c).lcTurns = (s.core c).lcTurns
           else (t.core c).rrBe = q ∧ (t.core c).lcTurns = 0) ∧
          t.mem = w.mem ∧ t.out = w.out)))

/-- Admission (R71, R73, R74, R161): the oldest fetched descriptor of an ACTIVE queue of a LIVE slice, on a core that is idle or at a yield point, that
passes its checks and whose promise can be given becomes an open item, accepted now, and leaves the pending list; one that fails a check or gets no
promise leaves it too and completes with the first failure; a queue that is not ACTIVE, a slice that is not LIVE or is resetting, and a core inside a
stretch admit nothing. -/
def Obligations.Admission : Prop :=
  ∀ (s u : State) (q : Nat) (d : Desc) (rest : List Desc) (e : List Ext), (s.qx q).fetched = d :: rest →
    let taken := (u.setQx q { u.qx q with fetched := rest }).accountWait (u.qSlice q) d.fetchedAt
    (s.qState q ≠ 1 ∨ s.getF .SLC_STATE_STATE (s.qSlice q) ≠ 2 ∨ s.bitF .SLC_STATE_RESETTING (s.qSlice q) = true ∨
        s.mayAdmit (s.admitter q) = false →
      exec (.admission q e) s = .next s) ∧
    (s.qState q = 1 → s.getF .SLC_STATE_STATE (s.qSlice q) = 2 → s.bitF .SLC_STATE_RESETTING (s.qSlice q) = false →
      s.mayAdmit (s.admitter q) = true →
      (∀ st r, s.checkDesc q d = (.bad st r, u) → exec (.admission q e) s = .next (taken.refuseDesc q d st r)) ∧
      (∀ h v', s.checkDesc q d = (.ok h, u) →
        (∀ st r, taken.decideAdmit q d h e = (v', .inr (st, r)) → st ≠ 4 → exec (.admission q e) s = .next (v'.refuseDesc q d st r)) ∧
        (∀ v, taken.decideAdmit q d h e = (v', .inl (some v)) →
          exec (.admission q e) s = .next (v.countLc (s.admitter q) d) ∧
          (d.opc = 4 → u.edge.tlm ≠ none → u.edge.trefLostAt = none →
            ∃ x, v.item u.work.nextItem = some x ∧ x.queue = q ∧ x.desc = d ∧ x.acceptAt = u.now ∧ x.cause = none ∧ (v.qx q).fetched = rest)) ∧
        (taken.decideAdmit q d h e = (v', .inl none) → exec (.admission q e) s = .next u)))

/-- Items with contexts (R119, R150): on an idle core, an accepted RUN that R218 chooses there is loaded with its context, at guest privilege,
and runs; a LAUNCH is loaded under the cast runner with no node started; an item that is not open, or has started, is left alone. FENCE completes ST_OK once no open item of its queue is older, and waits until then; NOP completes ST_OK at once (R84). An item that was stopped ends once its handles have released and it runs nowhere: with the completion its cause requires, or with none (R141). Before
that, or with no cause, ITEM_END changes nothing; a member that a slice reset stopped, and the context of a step, end with the step (R215, Table 8-5). -/
def Obligations.ItemStartsAndEnds : Prop :=
  (∀ (s u : State) (i : Nat) (x : Item) (a : Bool),
    (s.item i = none → exec (.run i) s = .next s ∧ exec (.launch i) s = .next s) ∧
    (s.item i = some x → x.cause = none → x.step = false → x.started = false → x.req = none → s.idleCore x.core = true →
      (s.stageSteps x.core).choose x.core = (some (i, a), u) → u.item i = some x → u.serve.chains = [] → u.work.nextItem = s.work.nextItem →
      (∀ j y, (j, y) ∈ u.work.items → y.step = false) →
      (x.desc.opc = 1 → x.runner = none → ∃ t, exec (.run i) s = .next t ∧ (t.core x.core).item = some i ∧ (t.core x.core).ctx = x.ctx ∧
        (t.core x.core).priv = false ∧ (t.core x.core).stretchAt = u.now ∧ ∃ y, t.item i = some y ∧ y.phase = .running ∧ y.started = true) ∧
      (x.desc.opc = 2 → x.runner = none → ∃ t, exec (.launch i) s = .next t ∧ (t.core x.core).item = some i ∧ (t.core x.core).ctx = x.ctx ∧
        (t.core x.core).priv = true ∧ ∃ y, t.item i = some y ∧ y.runner = some ⟨[], [], none, 0⟩ ∧ y.started = true))) ∧
  (∀ (s : State) (i : Nat) (x : Item), s.item i = some x → x.cause = none → x.step = false →
    (x.desc.opc = 3 → s.oldestOf x.queue = some i → exec (.fence i) s = .next (s.finishItem i 0 0 none 0)) ∧
    (x.desc.opc = 3 → s.oldestOf x.queue ≠ some i → exec (.fence i) s = .next s) ∧
    (x.desc.opc = 4 → exec (.nop i) s = .next (s.finishItem i 0 0 none 0)) ∧
    (x.desc.opc ≠ 3 → exec (.fence i) s = .next s) ∧ (x.desc.opc ≠ 4 → exec (.nop i) s = .next s)) ∧
  (∀ (s : State) (i : Nat) (x : Item) (c : EndCause), s.item i = some x →
    (x.cause = none → exec (.itemEnd i) s = .next s) ∧
    (x.cause = some c → s.released i = false ∨ s.isRunning i = true → exec (.itemEnd i) s = .next s) ∧
    (x.cause = some c → s.released i = true → s.isRunning i = false →
      (x.step = true → exec (.itemEnd i) s = .next (if s.stepRuns x then s else s.dropItem i)) ∧
      (x.step = false → s.inRunningStep i = true → c.status = 9 → exec (.itemEnd i) s = .next s) ∧
      (x.step = false → s.inRunningStep i = false ∨ c.status ≠ 9 →
        (c.complete = true → exec (.itemEnd i) s = .next (s.finishItem i c.status c.reason c.faultRef 0)) ∧
        (c.complete = false → exec (.itemEnd i) s = .next ((s.dropItem i).flushOrdered x.queue)))))

/-- The completion write (R74, R98, R101): on an ACTIVE queue that holds no completion, whose CQ lies in host memory,
a completion is written at the CQ tail with the queue's phase, the tail moves on by one, the phase flips on wrap, and the write is under way until it
lands (log entry 57); a FREE or TOMBSTONE queue receives none (R108). -/
def Obligations.CompletionWrite : Prop :=
  ∀ (s u : State) (q : Nat) (h : HostPath) (p : Posting), s.regsOk → u.regs = s.regs → u.work = s.work → u.out = s.out →
    (s.qState q = 0 ∨ s.qState q = 4 → s.writeCompletion q p = s.closeFor p) ∧
    (s.qState q = 1 → (s.qx q).held = [] →
      let tail := s.getF .QCX_CQ_PTRS_TAIL q
      let va := s.getF .QCX_CQ_BASE q * 4096 + 32 * tail
      let bytes := completionBytes p.comp (s.getF .QCX_STATE_CQ_PHASE q)
      tail < s.entries q → s.entries q ≤ 2 ^ 16 → s.getF .QCX_STATE_CQ_PHASE q ≤ 1 →
      s.resolve (s.qSec q) ⟨s.qSlice q, none, false⟩ va true = (.host h, u) →
      let t := s.writeCompletion q p
      t.out = s.out ++ [.hostWrite h va bytes] ∧ bytes.length = 32 ∧
      t.getF .QCX_CQ_PTRS_TAIL q = (tail + 1) % s.entries q ∧
      t.getF .QCX_STATE_CQ_PHASE q = (if tail + 1 = s.entries q then 1 - s.getF .QCX_STATE_CQ_PHASE q else s.getF .QCX_STATE_CQ_PHASE q) ∧
      (t.qx q).unfreed = (s.qx q).unfreed + 1 ∧ (t.qx q).reserved = (s.qx q).reserved - 1 ∧
      (t.qx q).posted = (s.qx q).posted ++ [{ p with port := none }])

/-- Limits of an item: its timeout breaks its promise — PRM_BROKEN counts, unless a halt has broken it before, a record with REASON 0x0007 names it, it ends ST_TIMEOUT, and its
holder is reset (R76); on a TOMBSTONE queue only the record is written, and an end that voids or withdraws the item stands (Table 4-13); the run limit of
a RUN or LAUNCH stops it ST_FAULT, CORE with a record BOUND_OVERRUN (R148); each unit that has not released an item of a destroyed queue or a resetting
slice in time has its domain reset (R109). Before each limit nothing happens. -/
def Obligations.ItemLimits : Prop :=
  ∀ (s : State) (i : Nat) (x : Item), s.itemNow i = some x →
    let u := s.holderOf i x
    let r := { s.recordOf x 0x07 2 (unitDomain u) with aux0 := x.promise, status := 2 }
    let runLimit := x.acceptAt + x.promise - tBlock x.sAdm - tDone x.sAdm
    (s.now < x.acceptAt + x.timeout → exec (.itemTimeout i) s = .next s) ∧
    (x.step = false → x.acceptAt + x.timeout ≤ s.now →
      (s.qState x.queue = 4 → exec (.itemTimeout i) s = .next (s.fault { r with action := 0, status := 0 })) ∧
      (s.qState x.queue ≠ 4 → (x.cause.or x.withdrawn).any EndCause.stands = true → exec (.itemTimeout i) s = .next s) ∧
      (s.qState x.queue ≠ 4 → (x.cause.or x.withdrawn).any EndCause.stands = false →
        exec (.itemTimeout i) s = .next ((if x.broken = true then s else s.incF .PRM_BROKEN_COUNT 0).resetHolder u r
          (fun w ref => ((w.updItem i (fun y => { y with cause := none })).stopItem i ⟨2, 0, true, some ref, none⟩).endStopped i)))) ∧
    (s.now < runLimit ∨ x.cause.isSome = true ∨ (x.desc.opc ≠ 1 ∧ x.desc.opc ≠ 2) → exec (.runLimitExpiry i) s = .next s) ∧
    (x.cause = none → x.desc.opc = 1 ∨ x.desc.opc = 2 → runLimit ≤ s.now →
      exec (.runLimitExpiry i) s = .next ((s.fault { s.recordOf x 0x02 1 3 with aux0 := s.now - x.acceptAt, status := 3, creason := 2 }).stopItem i
        ⟨3, 2, true, some s.nextIndex, none⟩)) ∧
    (∀ t, x.stopAt = some t → s.limited x = false ∨ s.now < t + 10 * scale s.sg 100000 → exec (.releaseLimitExpiry i) s = .next s) ∧
    (∀ t, x.stopAt = some t → s.limited x = true → t + 10 * scale s.sg 100000 ≤ s.now →
      exec (.releaseLimitExpiry i) s = .next ((s.each (s.unreleased i x) (fun v k =>
        v.resetHolder k (v.recordOf x 0x08 2 (unitDomain k)) (fun w _ => w))).endStopped i))

/-- Queue management (R106–R112, R424): DESTROY_QUEUE of a queue in use marks it TOMBSTONE, and of QueueID 0, a FREE or a TOMBSTONE one completes
ST_BAD_DESC, STATE; the last release frees the context and completes the item with the counts; PAUSE_QUEUE pauses; RESUME_QUEUE of an ACTIVE
queue completes and changes nothing; an argument block of the wrong length completes ST_BAD_DESC, ARG. ACTIVATE of queue 0 (R112): a FREE queue 0 whose context keeps the shape and whose rings lie where its KIND requires becomes ACTIVE on c0; a
context that fails sets LAST_ERR CONFIG and stays FREE; on a queue 0 that is not FREE nothing happens. PRM_COUNT_CLR clears the promise counters
(R77). -/
def Obligations.QueueOperations : Prop :=
  (∀ (s : State) (i : Nat) (x : Item) (e : List Ext), s.item i = some x → x.cause = none → x.step = false →
    let q := x.inl % 2 ^ 14
    (x.desc.opc = 0x88 → x.desc.argLen ≠ 64 → exec (.createQueue i e) s = .next (s.finishItem i 7 5 none 0)) ∧
    (∀ r, x.desc.opc = 0x88 → x.desc.argLen = 64 → x.desc.flags.testBit 2 = false → x.resv = some r →
      exec (.createQueue i e) s = .next (s.createQueue i r.block e)) ∧
    (∀ b rs u, x.desc.opc = 0x88 → x.desc.argLen = 64 → x.desc.flags.testBit 2 = false → x.resv = none →
      s.readGuest 0 ⟨0, none, false⟩ x.desc.argPtr 64 e = (.bytes b, rs, u) → exec (.createQueue i e) s = .next (u.createQueue i b rs)) ∧
    (x.desc.opc = 0x89 → (s.qx q).destroyItem ≠ some i → (q = 0 ∨ s.qState q = 0 ∨ s.qState q = 4) →
      exec (.destroyQueue i) s = .next (s.finishItem i 7 8 none 0)) ∧
    (x.desc.opc = 0x89 → (s.qx q).destroyItem ≠ some i → q ≠ 0 → s.qState q ≠ 0 → s.qState q ≠ 4 →
      exec (.destroyQueue i) s = .next (s.tombstone q (some i))) ∧
    (x.desc.opc = 0x8A → q ≠ 0 → s.qState q = 1 ∨ s.qState q = 2 →
      exec (.pauseQueue i) s = .next ((s.setF .QCX_STATE_STATE q 2).finishItem i 0 0 none 0)) ∧
    (x.desc.opc = 0x8A → (q = 0 ∨ (s.qState q ≠ 1 ∧ s.qState q ≠ 2)) → exec (.pauseQueue i) s = .next (s.finishItem i 7 8 none 0)) ∧
    (x.desc.opc = 0x8B → q ≠ 0 → s.qState q = 1 → exec (.resumeQueue i) s = .next (s.finishItem i 0 0 none 0)) ∧
    (x.desc.opc = 0x8B → q ≠ 0 → s.qState q = 2 → (s.qx q).unbound = false → (s.qx q).held = [] →
      exec (.resumeQueue i) s = .next (((((s.setF .QCX_BIND_CORE q (s.getF .QCX_BIND_CORE q)).setF .QCX_STATE_STATE q 1).setF .QCX_ERR_LAST_ERR q 0).setQx q
        { s.qx q with unbound := false, cqFailed := false }).finishItem i 0 0 none 0)) ∧
    (∀ r j, s.qState r = 4 → s.itemsWhere (fun z => z.queue == r && !z.step) = [] → s.tokensOpen r = false → (s.qx r).destroyItem = some j →
      exec (.queueReleaseDone r) s = .next ((s.clearQueue r).finishItem j 0 0 none
        (BitVec.ofNat 64 ((s.qx r).discarded + (s.qx r).cancelled * 2 ^ 32)))) ∧
    (∀ r, s.qState r = 4 → s.itemsWhere (fun z => z.queue == r && !z.step) = [] → s.tokensOpen r = false → (s.qx r).destroyItem = none →
      exec (.queueReleaseDone r) s = .next (s.clearQueue r)) ∧
    (∀ r, s.qState r ≠ 4 → exec (.queueReleaseDone r) s = .next s)) ∧
  (∀ s : State, s.regsOk →
    (s.qState 0 ≠ 0 → exec .qcxActivate s = .next s) ∧
    (s.qState 0 = 0 → (1 < s.getF .QCX_CFG_KIND 0 ∨ s.getF .QCX_CFG_LOG2_ENTRIES 0 < 4) →
      exec .qcxActivate s = .next (s.setF .QCX_ERR_LAST_ERR 0 5)) ∧
    (∀ u, s.qState 0 = 0 → s.getF .QCX_CFG_KIND 0 = 0 → s.edge.straps.mgtSrc = 0 → 4 ≤ s.getF .QCX_CFG_LOG2_ENTRIES 0 →
      s.getF .QCX_CFG_LOG2_ENTRIES 0 ≤ 16 → bits (s.getF .QCX_TIMEOUT 0) 30 2 ≠ 3 → s.bitF .QCX_CFG_LC_OK 0 = true → u.regs = s.regs →
      s.ringsOk 0 0 0 0 (s.getF .QCX_CFG_LOG2_ENTRIES 0) (s.getF .QCX_SQ_BASE 0 * 4096) (s.getF .QCX_CQ_BASE 0 * 4096) 0 = (true, u) →
      ∃ t, exec .qcxActivate s = .next t ∧ t.qState 0 = 1 ∧ t.getF .QCX_BIND_CORE 0 = 0 ∧ t.getF .QCX_STATE_CQ_PHASE 0 = 1 ∧
        t.getF .QCX_SQ_BASE 0 = s.getF .QCX_SQ_BASE 0 ∧ t.getF .QCX_CQ_BASE 0 = s.getF .QCX_CQ_BASE 0) ∧
    (∃ t, exec .prmCountClr s = .next t ∧ t.getF .PRM_BROKEN_COUNT 0 = 0 ∧ (∀ n, n < 8 → t.getF .PRM_REFUSED_COUNT n = 0) ∧
      (∀ n, n < 4 → t.getF .PRM_VOIDED_COUNT n = 0) ∧ t.work = s.work ∧ t.mem = s.mem ∧ t.out = s.out))

/-! ### Casts and backends (chapter 06) -/

/-- Registering and patching (R152–R154): an argument block that breaks Table 6-4, or a CastID in the wrong state, completes ST_BAD_DESC;
a patch of length 0 supersedes the LIVE version; an image whose fields or digest are wrong completes ST_BAD_DESC, ARG, and a good one is
copied to the room that admission reserved and waits for the switch, at which its version, 1 or the next free one, is LIVE at once and the operation
ends with it. Where nothing was reserved and there is no room, ST_BAD_DESC, STATE is the model's choice (log entry 112). -/
def Obligations.CastRegistration : Prop :=
  ∀ (s u w : State) (i : Nat) (x : Item) (e rs rs' : List Ext) (b img : List Byte) (patch : Bool), s.regs.rising = true →
    (s.live i (if patch then 0x91 else 0x90) = some x → s.work.castPend = none →
      let op := if patch then Instr.patchCast i e else .registerCast i e
      let cast := fieldLE b 0 2
      let len := fieldLE b 4 4
      (x.desc.argLen ≠ 32 → exec op s = .next (s.finishItem i 7 5 none 0)) ∧
      (x.desc.argLen = 32 → x.desc.flags.testBit 2 = false →
        (x.resv = none ∧ s.readGuest 0 ⟨0, none, false⟩ x.desc.argPtr 32 e = (.bytes b, rs, u)) ∨
          (x.resv.map (fun r => r.block) = some b ∧ u = s ∧ rs = e) →
        (castArgsOk b patch = false → exec op s = .next (u.finishItem i 7 5 none 0)) ∧
        (castArgsOk b patch = true → u.bitF .CST_CAST_VALID cast ≠ patch → exec op s = .next (u.finishItem i 7 8 none 0)) ∧
        (castArgsOk b patch = true → u.bitF .CST_CAST_VALID cast = patch →
          (patch = true → len ≠ 0 → (∀ k, k < 4 → u.slotState cast k ≠ 0) → exec op s = .next (u.finishItem i 7 8 none 0)) ∧
          (len = 0 → exec op s = .next ((u.supersede cast).finishItem i 0 0 none 0)) ∧
          (len ≠ 0 → (patch = true → ∃ k, k < 4 ∧ u.slotState cast k = 0) →
            (x.takenOr (u.storeTake b len) = none → exec op s = .next (u.finishItem i 7 8 none 0)) ∧
            (∀ r, x.takenOr (u.storeTake b len) = some r → u.readGuest 0 ⟨0, none, false⟩ (fieldLE b 8 8) len rs = (.bytes img, rs', w) →
              (w.storeCopy i r.addr img = none → exec op s = .next (w.holdupOverrun i r.addr)) ∧
              (∀ v, w.storeCopy i r.addr img = some v →
                (castOk img (parseCast img r.addr) img.length = true → digestOk img = true → exec op s = .next
                  { v with work := { v.work with castPend := some ⟨cast, fieldLE b 2 2, patch, i, parseCast img r.addr⟩ } }) ∧
                (castOk img (parseCast img r.addr) img.length = false ∨ digestOk img = false →
                  exec op s = .next ((v.storeFree img.length).finishItem i 7 5 none 0)))))))) ∧
    (s.work.castPend = none → exec .castVersionSwitch s = .next s) ∧
    (∀ p y, s.work.castPend = some p → s.live p.item (if p.patch then 0x91 else 0x90) = some y → s.bitF .CST_CAST_VALID p.cast = p.patch →
      ∃ v : State, v.work.castPend = none ∧
        v.getF .CST_CAST_LIVE_VER p.cast = (if p.patch then s.nextVersion p.cast else 1) ∧ v.work.items = s.work.items ∧
        exec .castVersionSwitch s = .next (v.finishItem p.item 0 0 none (BitVec.ofNat 64 (if p.patch then s.nextVersion p.cast else 1))))

/-- Backends (R165, R167–R170): a registration whose profile, image or bounds fail completes ST_BAD_DESC, ARG; a good one makes the backend
ACTIVE. A write of the notify line of a backend that has an entry is taken; the entry of from-native runs at steward privilege at the
adapter's from-native with g5 = NATIVE_BASE. A report of an unknown token, or of an abandoned operation, is dropped and counted; one of a finished
operation ends its node with the result; a failed one stops its item ST_FAULT, BACKEND; W_BOUND elapsed with no report counts late, and stops the
item ST_FAULT, BACKEND_LATE with a record. The cast runner (R150, R151): on a core that runs its item and no node, the next node whose predecessors ended starts; with none it is a
yield point; before the first node of a step the steward prepares the step, and a step left with no member stops there. A runner whose item
does not run, stops, is in service or runs a node does nothing. -/
def Obligations.BackendsAndNodes : Prop :=
  (∀ (s u w : State) (i n token : Nat) (want : Option Nat) (x : Item) (e rs rs' : List Ext) (b img : List Byte), s.regs.rising = true →
    (s.live i 0x98 = some x → x.desc.argLen = 128 → x.desc.flags.testBit 2 = false →
      (x.resv = none ∧ s.readGuest 0 ⟨0, none, false⟩ x.desc.argPtr 128 e = (.bytes b, rs, u)) ∨
        (x.resv.map (fun r => r.block) = some b ∧ u = s ∧ rs = e) →
      let base := min (fieldLE b 0x28 8) (fieldLE b 0x30 8) - 0x40
      (profileOk b = false → exec (.registerBackend i e) s = .next (u.finishItem i 7 5 none 0)) ∧
      (profileOk b = true → u.readGuest 0 ⟨0, none, false⟩ base (fieldLE b 0x38 4) rs = (.bytes img, rs', w) →
        (entryHdr img base (fieldLE b 0x28 8) = none ∨ entryHdr img base (fieldLE b 0x30 8) = none →
          exec (.registerBackend i e) s = .next (w.finishItem i 7 5 none 0)) ∧
        (∀ t f wb, entryHdr img base (fieldLE b 0x28 8) = some t → entryHdr img base (fieldLE b 0x30 8) = some f →
          allowNs (fieldLE b 8 4) = some wb →
          (wb < t.entryBound + f.entryBound ∨ (allowNs (w.getF .PRM_MAX_BOUND_MAX_BOUND 0)).getD 0 < wb →
            exec (.registerBackend i e) s = .next (w.finishItem i 7 5 none 0)) ∧
          (t.entryBound + f.entryBound ≤ wb → wb ≤ (allowNs (w.getF .PRM_MAX_BOUND_MAX_BOUND 0)).getD 0 →
            w.work.backends.find (fieldLE b 0 1) = none →
            (w.linksOk (w.backendLinks b) = false → exec (.registerBackend i e) s = .next (w.finishItem i 7 8 none 0)) ∧
            (w.linksOk (w.backendLinks b) = true → x.takenOr (w.storeTake b (fieldLE b 0x38 4)) = none →
              exec (.registerBackend i e) s = .next (w.finishItem i 7 8 none 0)) ∧
            (∀ r v, w.linksOk (w.backendLinks b) = true → x.takenOr (w.storeTake b (fieldLE b 0x38 4)) = some r → w.storeCopy i r.addr img = some v →
              exec (.registerBackend i e) s = .next ((v.putBackend b img r.addr 0 (v.backendLinks b) t f).finishItem i 0 0 none 0)))))) ∧
    (s.getF .CST_BK_STATE_STATE n = 0 → exec (.notifyLineWrite n want) s = .next s) ∧
    (s.getF .CST_BK_STATE_STATE n ≠ 0 → exec (.notifyLineWrite n want) s = .next ((s.notified n want).tendNotify n)) ∧
    (∀ (k : Backend) c o p z, s.work.backends.find n = some k → k.notify ≠ 0 → s.nativePlace k want = some (c, o, p, z) →
      let y := (s.readNative n want).core c
      y.ctx.pc = BitVec.ofNat 64 (k.inCopy k.fromNative) ∧ y.ctx.rd 5 = BitVec.ofNat 64 k.nativeBase ∧ y.priv = true ∧ y.ctx.lsBase = p ∧
        y.ctx.lsSize = z ∧ ∃ r, y.reading = some r ∧ r.backend = n ∧ r.ctx = (s.core c).ctx) ∧
    (∀ r : BkReport, (s.work.backends.find n).bind (fun k => k.tokens.find r.token) = none →
      s.takeReport n r = s.incF .CST_BK_DROPPED_COUNT n) ∧
    (∀ (r : BkReport) (k : Backend) (t : Token), s.work.backends.find n = some k → k.tokens.find r.token = some t →
      let v := s.updBackend n (fun k => { k with tokens := k.tokens.del r.token })
      (t.abandoned = true → s.takeReport n r = v.incF .CST_BK_DROPPED_COUNT n) ∧
      (t.abandoned = false → r.ok = true → s.takeReport n r = v.endNode t.item t.node r.result) ∧
      (t.abandoned = false → r.ok = false →
        s.takeReport n r = (v.incF .CST_BK_FAILED_COUNT n).endContext t.item ⟨3, 7, true, none, none⟩)) ∧
    (∀ (k : Backend) (t : Token), s.work.backends.find n = some k → k.tokens.find token = some t →
      let v := s.updBackend n (fun k => { k with tokens := k.tokens.del token })
      (s.now < t.startedAt + s.wBound n → exec (.backendWboundExpiry n token) s = .next s) ∧
      (t.startedAt + s.wBound n ≤ s.now → t.abandoned = true → exec (.backendWboundExpiry n token) s = .next (v.countLate n)) ∧
      (∀ y, t.startedAt + s.wBound n ≤ s.now → t.abandoned = false → v.itemNow t.item = some y →
        exec (.backendWboundExpiry n token) s = .next (((v.fault { v.recordOf y 0x000F 1 9 with
          unit := n, castNode := t.node, aux0 := token, status := 3, creason := 6 }).countLate n).endContext t.item
          ⟨3, 6, true, some v.nextIndex, some 3⟩)))) ∧
  (∀ (s : State) (i : Nat) (x : Item), s.item i = some x →
    ((s.core x.core).item ≠ some i ∨ x.cause.isSome = true ∨ (s.core x.core).serviceAt.isSome = true ∨ x.runner = none →
      ∀ rs, exec (.castNodeStart i rs) s = .next s) ∧
    (∀ r rs, (s.core x.core).item = some i → x.cause = none → (s.core x.core).serviceAt = none → x.runner = some r →
      (r.running.isSome = true → exec (.castNodeStart i rs) s = .next s) ∧
      (r.running = none → r.canStart (s.nodesOf x) = true → s.runningStep x = none ∨ (s.tableOf x).isSome = true →
        exec (.castNodeStart i rs) s = .next (s.startNode i x r)) ∧
      (∀ st m, let w := s.stageStep m x st rs
        r.running = none → r.canStart (s.nodesOf x) = true → s.runningStep x = some st → x.model = some m → st.table = none →
        ((w.runningStep x).any (fun z => z.seats == []) = false → (w.core x.core).item = some i →
          exec (.castNodeStart i rs) s = .next (w.startNode i x r)) ∧
        ((w.runningStep x).any (fun z => z.seats == []) = true → ((w.endContext i ⟨3, 2, true, none, none⟩).core x.core).item ≠ some i →
          exec (.castNodeStart i rs) s = .next (w.endContext i ⟨3, 2, true, none, none⟩))) ∧
      (r.running = none → r.canStart (s.nodesOf x) = false → exec (.castNodeStart i rs) s = .next (s.yieldWait x.core 0))))

/-! ### Serving (chapter 08) -/

/-- Pins and loads (R203, R205, R206): PIN_MODEL of a VALID, RESIDENT, unpinned model pins it and completes, of an invalid or pinned one
completes ST_BAD_DESC, STATE, and so, by the model's choice (log entry 112), does an accepted one that no load can serve; UNPIN_MODEL clears a pin. A load begins at its
time; at its end the model is RESIDENT and the load over; poison ends it with the model evicted. -/
def Obligations.ModelLoads : Prop :=
  ∀ (s : State) (i : Nat) (x : Item), s.regs.rising = true →
    (s.live i 0xA0 = some x → (∀ l, s.serve.load = some l → i ∉ l.pinAfter) →
      let m := x.inl % 2 ^ 10
      (s.modelValid m = false ∨ s.bitF .SRV_MDL_CTRL_PINNED m = true → exec (.pinModel i) s = .next (s.finishItem i 7 8 none 0)) ∧
      (s.modelValid m = true → s.bitF .SRV_MDL_CTRL_PINNED m = false →
        (s.resident m = true → exec (.pinModel i) s = .next ((s.setF .SRV_MDL_CTRL_PINNED m 1).finishItem i 0 0 none 0)) ∧
        (s.resident m = false → s.modelState m ≠ 1 → s.newLoad m none = none → exec (.pinModel i) s = .next (s.finishItem i 7 8 none 0)) ∧
        (∀ w, s.resident m = false → s.modelState m ≠ 1 → s.newLoad m none = some w →
          ∃ t l, exec (.pinModel i) s = .next t ∧ t.serve.load = some l ∧ l.model = m ∧ l.begun = false ∧ l.pinAfter = [i] ∧
            t.bitF .SRV_MDL_CTRL_PINNED m = true ∧ t.getF .SRV_STATUS_LOAD_MODEL 0 = m ∧ t.work.items = s.work.items))) ∧
    (s.live i 0xA1 = some x →
      let m := x.inl % 2 ^ 10
      (s.bitF .SRV_MDL_CTRL_PINNED m = true → exec (.unpinModel i) s = .next ((s.setF .SRV_MDL_CTRL_PINNED m 0).finishItem i 0 0 none 0)) ∧
      (s.bitF .SRV_MDL_CTRL_PINNED m = false → exec (.unpinModel i) s = .next (s.finishItem i 7 8 none 0))) ∧
    (s.serve.load = none → exec .modelLoadStart s = .next s ∧ exec .modelLoadComplete s = .next s ∧ ∀ p, exec (.modelLoadPoison p) s = .next s) ∧
    (∀ l, s.serve.load = some l →
      (s.now < l.startAt → exec .modelLoadStart s = .next s) ∧
      (l.startAt ≤ s.now → exec .modelLoadStart s = .next { s with serve := { s.serve with load := some { l with begun := true } } }) ∧
      (l.begun = false → exec .modelLoadComplete s = .next s) ∧
      (l.begun = true → s.loadNeeds l.model ≠ [] →
        exec .modelLoadComplete s = .next (s.askLines .rdCur loadTag 0 0 (s.loadNeeds l.model))) ∧
      (∀ w, l.begun = true → s.loadNeeds l.model = [] → l.pinAfter = [] → s.copyPages (s.modelSrc l.model % 2 ^ 48) (s.modelX l.model).frames = .ok w →
        exec .modelLoadComplete s = .next (((w.setF .SRV_MDL_CTRL_STATE l.model 2).incF .SRV_MDL_LOADS_COUNT l.model).loadOver)) ∧
      (∀ p, l.begun = true → p < s.modelPages l.model →
        exec (.modelLoadPoison p) s = .next (s.loadPoisoned l (s.modelSrc l.model % 2 ^ 48 + p * 0x200000))))

/-- Steps (R213, R215): a step that its idle core chooses starts there; the running step ends once released: a member that was not withdrawn
completes ST_OK with the RESULT of its entry of the batch table, and the step leaves its chain. SRV_ACCT_CLR clears the counters of Table 8-6 of one slice, or of all, and
nothing else; SRV_MDL_CTRL.VALID is set only for an entry that keeps R226 and cleared only of an ABSENT model with no sequences. -/
def Obligations.StepsAndServingRegisters : Prop :=
  ∀ (s u : State) (m c i : Nat) (x : Item) (v : W32), s.regs.rising = true →
    (s.coreOfModel m = some c →
      (s.idleCore c = false → exec (.stepStart m) s = .next s) ∧
      (∀ a, s.idleCore c = true → (s.stageSteps c).choose c = (some (i, a), u) → u.item i = some x → x.step = true → x.model = some m →
        exec (.stepStart m) s = .next ((u.loadCtx c i a).unstage s.work.nextItem))) ∧
    ((s.chain m).steps.find? (fun k => k.started) = none → ∀ o, exec (.stepEnd m o) s = .next s) ∧
    (∀ st rest k y r, (s.chain m).steps.find? (fun k => k.started) = some st →
      s.itemsWhere (fun y => y.step && y.model == some m) = (i, x) :: rest → x.cause = none → s.released i = true → x.runner = some r →
      r.finished (s.nodesOf x) = true → st.members = [k] → s.isCut k = false →
      (s.outHeld (secOfCore x.core) [k] ≠ [] →
        exec (.stepEnd m .done) s = .next (s.askLines .wrFull stepTag 0 0 (s.outHeld (secOfCore x.core) [k]))) ∧
      let g := s.collectMember (secOfCore x.core) st k
      let d := g.2.dropItem i
      let w := d.setChain m { d.chain m with steps := (d.chain m).steps.filter (fun k => !k.started), last := (d.chain m).last ++ st.members }
      s.outHeld (secOfCore x.core) [k] = [] → w.item k = some y → ∀ z, g.1 = .ok z →
        exec (.stepEnd m .done) s = .next ((((w.memberDone k y z).each st.dropped State.unreserve).closeMarked.freeClosed m).dispatch x.core)) ∧
    (∀ st k y tab o, s.item k = some y → st.table = some tab → st.seats = [⟨k, o⟩] → (s.copyOut (secOfCore c) k y ⟨k, o⟩).1 = none →
      (s.collectMember (secOfCore c) st k).1 = .ok (BitVec.ofNat 64 (fieldLE (s.stageRead (tab + 64 + 0x30) 8) 0 8))) ∧
    (∃ t, exec (.srvAcctClr false m) s = .next t ∧ (∀ f, f ∈ acctFields → t.getF f (m % 4096) = 0) ∧
      t.work.items = s.work.items ∧ t.mem = s.mem ∧
      ∀ f j, ¬ (f ∈ acctFields ∧ j = m % 4096) → t.getF f j = s.getF f j) ∧
    (∃ t, exec (.srvAcctClr true m) s = .next t ∧ (∀ f j, f ∈ acctFields → t.getF f j = 0) ∧ t.work.items = s.work.items ∧
      t.mem = s.mem ∧ ∀ f j, f ∉ acctFields → t.getF f j = s.getF f j) ∧
    ∃ t, exec (.srvMdlValidWrite m v) s = .next t ∧ t.work = s.work ∧
      (s.bitF .SRV_MDL_CTRL_VALID m = true → t.getF .SRV_MDL_CTRL_STEP_CAST m = s.getF .SRV_MDL_CTRL_STEP_CAST m) ∧
      (v.getLsbD 31 = true → s.modelPages m = 0 → t.bitF .SRV_MDL_CTRL_VALID m = s.bitF .SRV_MDL_CTRL_VALID m) ∧
      (v.getLsbD 31 = false → s.modelState m = 0 → s.modelSeqs m = [] → t.bitF .SRV_MDL_CTRL_VALID m = false) ∧
      (v.getLsbD 31 = false → s.modelState m ≠ 0 → t.bitF .SRV_MDL_CTRL_VALID m = s.bitF .SRV_MDL_CTRL_VALID m)

/-! ### Tensor engines and move engines (chapter 07) -/

/-- A tensor or attention operation starts when its unit is up and takes it next: a descriptor that passes Table 7-8 begins to run, with its
codebook in a slot where it uses one; one that fails a check ends its item ST_FAULT, CORE, with a record BAD_TOD of the check, TEN_LAST naming it;
a command of another kind than the descriptor's does nothing. -/
def Obligations.TensorOperations : Prop :=
  ∀ (s : State) (o : Nat) (x : Op), s.work.ops.find o = some x → (∀ m, x.on ≠ .me m) →
    ∀ p ∈ ([(Instr.todMatmul o, 1, none), (.todVectorAdd o, 2, some 0), (.todVectorMul o, 2, some 1), (.todVectorMax o, 2, some 2),
        (.todVectorMin o, 2, some 3), (.todVectorFma o, 2, some 4), (.todVectorExp o, 2, some 5), (.todVectorSilu o, 2, some 6),
        (.todVectorGelu o, 2, some 7), (.todVectorRsqrt o, 2, some 8), (.todVectorConvert o, 2, some 9), (.todReduceSum o, 3, some 0),
        (.todReduceMax o, 3, some 1), (.todReduceSumsq o, 3, some 2), (.todNormRms o, 4, some 0), (.todNormLayer o, 4, some 1),
        (.todCbLoad o, 5, none), (.todAttend o, 6, none)] : List (Instr × Nat × Option Nat)),
      let t := parseTod x.tod
      let y : Op := { x with phase := .running, startedAt := s.now, progressAt := s.now }
      let book := t.kind = 5 ∨ (t.kind = 1 ∧ fmtVq t.fmtW = true)
      (s.unitUp x.on = false ∨ s.nextOn x.on ≠ some o → exec p.1 s = .next s) ∧
      (t.kindOk = true → t.kind ≠ p.2.1 ∨ (∃ e, p.2.2 = some e ∧ t.epi ≠ e) → exec p.1 s = .next s) ∧
      (s.unitUp x.on = true → s.nextOn x.on = some o →
        (t.kind = p.2.1 → (∀ e, p.2.2 = some e → t.epi = e) → todCheck x.tod = 0 →
          (¬ book → exec p.1 s = .next (s.updOp o (fun _ => y))) ∧
          (∀ k new w, book → (s.updOp o (fun _ => y)).cbHold (s.tenAt x) x.te o t = (.ok (k, new), w) →
            exec p.1 s = .next ((w.dropCurs x.on.number).updOp o (fun z => { z with run := { z.run with slot := some k, loaded := new } }))) ∧
          (∀ e w, book → (s.updOp o (fun _ => y)).cbHold (s.tenAt x) x.te o t = (.error e, w) → exec p.1 s = .next (s.stopOrWait w o y e))) ∧
        ((t.kind = p.2.1 ∧ (∀ e, p.2.2 = some e → t.epi = e)) ∨ t.kindOk = false → todCheck x.tod ≠ 0 →
          let v := ((s.setF .TEN_LAST_CHECK x.te (todCheck x.tod)).setF .TEN_LAST_SLICE x.te x.slice).releaseOp o x
          ∀ z, v.itemNow x.item = some z →
            let r := { v.recordOf z 0x0003 1 (unitDomain x.on.number) with
              te := x.te, addr := x.todWin, aux0 := 0, aux1 := todCheck x.tod, status := 3, creason := 2 }
            exec p.1 s = .next ((v.fault (match x.on with | .att k => { r with unit := k } | _ => r)).endContext x.item
              ⟨3, 2, true, some v.nextIndex, none⟩)))

/-- Units and ends (R141, R185, R193–R195, R198, R425): a cancelled operation is released at its unit's end; an uncorrectable error of
the unit's memories stops the item as poison; a BE operation with units left is suspended there for a waiting LC one, once, else the operation goes
on, and it does not end before; a part that needs lines which holders outside the block have waits for them; one that
was refused or has ended writes its result word to the window copy of its descriptor before its handle is DONE. A unit without progress for 1 ms
is recorded as hung and reset. -/
def Obligations.EngineUnits : Prop :=
  ∀ (s : State) (n o : Nat) (k : UnitId) (x : Op) (found : EccRead), s.regs.rising = true → unitOf n = some k →
    ((s.onUnit k).find? (fun y => y.2.active) = none → exec (.engineUnitEnd ⟨n, found⟩) s = .next s) ∧
    ((s.onUnit k).find? (fun y => y.2.active) = some (o, x) →
      (∀ m, k = .me m →
        (x.cancelled = true → exec (.engineUnitEnd ⟨n, found⟩) s = .next (s.releaseOp o x)) ∧
        (x.cancelled = false → x.phase = .finishing → exec (.engineUnitEnd ⟨n, found⟩) s = .next (s.finishOp o x x.outcome 0)) ∧
        (x.cancelled = false → x.phase ≠ .finishing →
          exec (.engineUnitEnd ⟨n, found⟩) s = .next (s.updOp o (fun y => { y with progressAt := s.now })))) ∧
      ((∀ m, k ≠ .me m) →
        (x.cancelled = false → x.phase = .finishing → exec (.engineUnitEnd ⟨n, found⟩) s = .next (s.endTod o x x.outcome)) ∧
        (found = .uncorrectable → (∀ t, k = .te t → s.getF .TEN_ERR_SPARES t ≠ 0) → x.cancelled = false → x.phase ≠ .finishing →
          exec (.engineUnitEnd ⟨n, found⟩) s = .next (((s.engineMemory k found).releaseOp o x).enginePoison x.item)) ∧
        (∀ e w, found ≠ .uncorrectable → x.cancelled = true ∨ x.phase ≠ .finishing → (s.engineMemory k found).runUnit x x.run = (.error e, w) →
          exec (.engineUnitEnd ⟨n, found⟩) s = .next (if x.cancelled = true then w.releaseOp o x else (s.engineMemory k found).stopOrWait w o x e)) ∧
        (∀ r w, found ≠ .uncorrectable → x.cancelled = true ∨ x.phase ≠ .finishing → (s.engineMemory k found).runUnit x x.run = (.ok r, w) →
          let v := w.dropCurs x.on.number
          (x.cancelled = true → exec (.engineUnitEnd ⟨n, found⟩) s = .next (w.releaseOp o x)) ∧
          (x.cancelled = false → x.cls = .lc ∨ (v.onUnit k).any (fun y => y.2.phase == .waiting && y.2.cls == .lc) = false ∨
              r.finished (parseTod x.tod) x.tod = true →
            exec (.engineUnitEnd ⟨n, found⟩) s = .next (v.updOp o (fun y => { y with run := r, progressAt := v.now }))) ∧
          (∀ t, k = .te t → x.cancelled = false → x.cls = .be → (v.onUnit k).any (fun y => y.2.phase == .waiting && y.2.cls == .lc) = true →
            (v.onUnit k).any (fun y => y.2.phase == .suspended) = false → r.finished (parseTod x.tod) x.tod = false →
            exec (.engineUnitEnd ⟨n, found⟩) s = .next ((((v.countBusy x).updOp o (fun y => { y with run := r, phase := .suspended })).incF
              .TEN_PREEMPT_COUNT t).incF .SRV_SLC_PREEMPT_COUNT x.slice))) ∧
        (x.progressAt + 1000000 ≤ s.now → exec (.engineHangExpiry n) s = .next (s.hang n x.progressAt)) ∧
        (s.now < x.progressAt + 1000000 → exec (.engineHangExpiry n) s = .next s))) ∧
    (s.work.ops.find o = some x → x.on = k → (∀ m, k ≠ .me m) →
      (x.active = false → exec (.engineOpComplete o) s = .next s) ∧
      (x.phase = .finishing → x.cancelled = false → exec (.engineOpComplete o) s = .next (s.endTod o x x.outcome)) ∧
      (∀ r w, x.active = true → x.cancelled = true → s.runUnit x x.run = (.ok r, w) → exec (.engineOpComplete o) s = .next (w.releaseOp o x)) ∧
      (x.phase = .running → x.cancelled = false → s.mustSuspend x = true → exec (.engineOpComplete o) s = .next (s.lastUnit o x)) ∧
      (∀ r w, x.phase = .running → x.cancelled = false → s.mustSuspend x = false → s.runRest x maxUnits x.run = (.ok r, w) →
        let v := resultWord (parseTod x.tod) r
        exec (.engineOpComplete o) s =
          .next ((w.writeResult { x with run := r } v).finishOp o { x with run := r } .ok v)) ∧
      (∀ e w, x.phase = .running → x.cancelled = false → s.mustSuspend x = false → s.runRest x maxUnits x.run = (.error e, w) →
        exec (.engineOpComplete o) s = .next (s.stopOrWait w o x e))) ∧
    ∃ t, exec .tenClr s = .next t ∧ t.work.ops = s.work.ops ∧ t.work.items = s.work.items ∧ t.mem = s.mem ∧
      ∀ j, (j < 48 → t.getF .TEN_OPS_COUNT j = 0 ∧ t.getF .TEN_BUSY_US j = 0 ∧ t.getF .TEN_PREEMPT_COUNT j = 0 ∧ t.getF .TEN_CB_LOADS_COUNT j = 0) ∧
        (j < 8 → t.getF .TEN_ATT_PAGES_COUNT j = 0)

/-- Moves (R125, R259, R383, R425): a move goes segment by segment, each within one page of its source and one of its destination. The last
segment ends it; one that an answer refuses, or that stops, stops the operation. A segment that fills with zeros, or lies in the window on both sides,
is moved whatever the answer. An answer that is a refusal or an expiry ends the handle with that outcome; poison and a
failed translation stop the item. An engine that holds work and moves nothing for 1 ms is recorded and reset. -/
def Obligations.Moves : Prop :=
  ∀ (s : State) (o m : Nat) (x : Op) (y : Item) (e : Ext), s.work.ops.find o = some x → x.on = .me m →
    (s.moveNow m ≠ some o ∨ s.unitUp (.me m) = false → exec (.moveOpComplete o e) s = .next s) ∧
    (s.moveNow m = some o → s.unitUp (.me m) = true → x.cancelled = true → exec (.moveOpComplete o e) s = .next (s.releaseOp o x)) ∧
    (s.moveNow m = some o → s.unitUp (.me m) = true → x.cancelled = false → x.phase ≠ .finishing → s.item x.item = some y →
      (x.len ≤ x.moved → exec (.moveOpComplete o e) s = .next (s.finishOp o x .ok 0)) ∧
      (∀ n r w, s.moveSegment x y m (some e) = (.moved n r, w) → x.moved < x.len → x.moved + n = x.len →
        exec (.moveOpComplete o e) s = .next (((w.movedBy o n).dropCurs x.on.number).finishOp o { x with moved := x.len } .ok 0)) ∧
      (∀ f w, s.moveSegment x y m (some e) = (.refused f, w) → x.moved < x.len →
        exec (.moveOpComplete o e) s = .next ((w.movedBy o 0).opRefused o x f)) ∧
      (∀ f w, s.moveSegment x y m (some e) = (.stop f, w) → x.moved < x.len → exec (.moveOpComplete o e) s = .next (s.stopOrWait w o x f))) ∧
    (x.dstWin = true → x.zero = true →
      s.moveSegment x y m (some e) = (.moved x.segment (some e), s.setCore y.core ((s.core y.core).lsWrite (x.dst + x.moved) (List.replicate x.segment 0)))) ∧
    (x.dstWin = true → x.zero = false → x.srcWin = true → s.moveSegment x y m (some e) = (.moved x.segment (some e),
      s.setCore y.core ((s.core y.core).lsWrite (x.dst + x.moved) ((s.core y.core).lsRead (x.src + x.moved) x.segment)))) ∧
    (∀ u, x.dstWin = false → x.zero = true →
      s.writePage ⟨secOfMe m, ⟨x.slice, y.model, false⟩, x.item, unitOfMe m⟩ (x.dst + x.moved) (List.replicate x.segment 0) = (.ok (), u) →
      s.moveSegment x y m (some e) = (.moved x.segment (some e), u)) ∧
    (x.active = true → x.cancelled = false →
      let v := s.updOp o (fun y => if y.active then y else { y with phase := .running, startedAt := s.now })
      (exec (.engineRemoteRefusal o .expired) s = .next (v.updOp o (fun y => { y with phase := .finishing, outcome := .expired }))) ∧
      (∀ st r, st ≠ 4 → st ≠ 8 → st ≠ 5 →
        exec (.engineRemoteRefusal o (.refused st r)) s = .next (v.updOp o (fun y => { y with phase := .finishing, outcome := .refused }))) ∧
      (exec (.engineRemoteRefusal o .poison) s = .next (v.enginePoison x.item)) ∧
      (∀ r, exec (.engineRemoteRefusal o (.refused 8 r)) s = .next (v.engineXlate x.item r))) ∧
    (x.active = false → (s.moveNow m ≠ some o) → exec (.engineRemoteRefusal o e) s = .next s) ∧
    (∀ l, s.onUnit (.me m) = l → l ≠ [] → m < 32 → (l.foldl (fun t k => max t k.2.progressAt) 0 + 1000000 ≤ s.now →
        exec (.moveHangExpiry m) s = .next (s.hang (unitOfMe m) (l.foldl (fun t k => max t k.2.progressAt) 0))) ∧
      (s.now < l.foldl (fun t k => max t k.2.progressAt) 0 + 1000000 → exec (.moveHangExpiry m) s = .next s))

/-! ### Pool memory (chapter 10) -/

/-- The map and invalidation (R250, R251, R257, R258): the lock takes effect on a good map, once; a CXL.mem range is enabled when it is
wholly mapped and clear of durable regions; GO drops the slice's entries in the range and only those, and is ignored while BUSY; DONE clears BUSY
once no translated access of the range waits; an ATS invalidation drops the host entries of the function's slice in its range and only those, and
is answered. -/
def Obligations.MapAndInvalidation : Prop :=
  ∀ (s : State) (d port vf page pages k : Nat), s.regs.rising = true →
    (s.bitF .MEM_MAP_LOCK 0 = true ∨ s.mapOk = false → exec .memMapLock s = .next s) ∧
    (s.bitF .MEM_MAP_LOCK 0 = false → s.mapOk = true → exec .memMapLock s = .next ((s.setF .MEM_MAP_LOCK 0 1).setF .MEM_STATUS_MAPPED 0 1)) ∧
    (d < 8 → s.bitF .MEM_HDM_CTRL_EN d = false →
      (s.hdmClear d = false → exec (.memHdmEnable d) s = .next (s.setF .TMP_STATUS_DUR_ERR 0 1)) ∧
      (s.hdmClear d = true → s.poolRange ((s.hdmRange d).1 % 2 ^ 48) (s.hdmRange d).2 = true →
        exec (.memHdmEnable d) s = .next (s.setF .MEM_HDM_CTRL_EN d 1)) ∧
      (s.hdmClear d = true → s.poolRange ((s.hdmRange d).1 % 2 ^ 48) (s.hdmRange d).2 = false → exec (.memHdmEnable d) s = .next s)) ∧
    (s.bitF .MEM_INV_CTRL_BUSY 0 = true → exec .tlbInvalidate s = .next s) ∧
    (s.bitF .MEM_INV_CTRL_BUSY 0 = true → s.invCrossed = true → exec .tlbInvalidateDone s = .next s) ∧
    (s.bitF .MEM_INV_CTRL_BUSY 0 = true → s.invCrossed = false → ∃ t, exec .tlbInvalidateDone s = .next t ∧ t.bitF .MEM_INV_CTRL_BUSY 0 = false ∧ t.work = s.work ∧ t.mem = s.mem) ∧
    (s.bitF .MEM_INV_CTRL_BUSY 0 = false → exec .tlbInvalidateDone s = .next s) ∧
    (s.bitF .MEM_INV_CTRL_BUSY 0 = false → s.bitF .SLC_HOST_BOUND (s.getF .MEM_INV_CTRL_SLICE 0) = false →
      ∃ t, exec .tlbInvalidate s = .next t ∧ t.bitF .MEM_INV_CTRL_BUSY 0 = true ∧ t.mem.cells = s.mem.cells ∧
        ∀ x ∈ s.mem.tlb, (x ∈ t.mem.tlb ↔ ¬ (x.slice = s.getF .MEM_INV_CTRL_SLICE 0 ∧ (s.bitF .MEM_INV_CTRL_ALL 0 = false →
          s.getF .MEM_INV_VA 0 * 4096 < (x.page + 1) * 2 ^ x.bits ∧
          x.page * 2 ^ x.bits < (s.getF .MEM_INV_VA 0 + s.getF .MEM_INV_CTRL_PAGES 0) * 4096) ∧
          (s.bitF .MEM_INV_CTRL_ALL 0 = true → x.page * 2 ^ x.bits < 2 ^ 48)))) ∧
    (s.sliceOfVf port vf = none → exec (.atsInvalidation port vf page pages) s = .next (s.emit (.atsInvalidated port vf))) ∧
    (s.sliceOfVf port vf = some k → ∃ t, exec (.atsInvalidation port vf page pages) s = .next t ∧ t.regs = s.regs ∧ t.work = s.work ∧
      t.out = s.out ++ [.atsInvalidated port vf] ∧
      t.mem.cells = s.mem.cells ∧ ∀ x ∈ s.mem.tlb, (x ∈ t.mem.tlb ↔ ¬ (x.slice = k ∧ x.host = true ∧ page * 4096 < (x.page + 1) * 2 ^ x.bits ∧
        x.page * 2 ^ x.bits < (page + pages) * 4096)))

/-- Stacks (R262–R266): a patrol read that finds a line clean, or a hole with none to read, does nothing; a corrected one is counted, also
for its row; an uncorrectable one is counted, makes the line poison and starts its row's move, which only an open move commits, that of a stack's row
once the map is locked (log entry 120). A good training step begins the
next, in step 4 with the lanes' repair, whose pseudo-channels with a lost lane become holes; the fifth, the moves of the rows it found failing begun, makes the stack ACTIVE; the third failure or a step's bound makes it FAILED. -/
def Obligations.StackEvents : Prop :=
  ∀ (s : State) (off st row k f lost : Nat) (failing : List Nat) (stat : BitVec 8), s.regs.rising = true →
    (exec (.patrolScrub off .clean) s = .next s) ∧
    (s.holeLost (off / 64 * 64) = true → ∀ found, exec (.patrolScrub off found) s = .next s) ∧
    (s.holeLost (off / 64 * 64) = false → s.region (off / 64 * 64) = .direct k f →
      exec (.patrolScrub off .corrected) s = .next ((s.bumpF .MEM_HT_ERR_CORRECTED k).correctedAt (partUnit k) (f / 4096)) ∧
      exec (.patrolScrub off .uncorrectable) s =
        .next (((s.bumpF .MEM_HT_ERR_UNCORRECTED k).uncorrectableAt (off / 64 * 64)).startMove (partUnit k) (f / 4096))) ∧
    (∀ a b, (∀ k f, s.region (off / 64 * 64) ≠ .direct k f) → s.place (off / 64 * 64) = some (st, a, b) → s.holeLost (off / 64 * 64) = false →
      exec (.patrolScrub off .corrected) s = .next ((s.bumpF .MEM_STK_ERR_CORRECTED st).correctedAt st (rowKey a b)) ∧
      exec (.patrolScrub off .uncorrectable) s =
        .next (((s.bumpF .MEM_STK_ERR_UNCORRECTED st).uncorrectableAt (off / 64 * 64)).startMove st (rowKey a b))) ∧
    ((s.stackX st).moves.contains row = false ∨ (s.mapped = false ∧ st < 32) → exec (.spareMoveComplete st row) s = .next s) ∧
    ((s.stackX st).moves.contains row = true →
      let w := s.updStack st (fun x => { x with moves := x.moves.filter (· != row), rowCe := x.rowCe.del row })
      (s.mapped = true → st < 32 → exec (.spareMoveComplete st row) s = .next (w.commitMove st row)) ∧
      (32 ≤ st → exec (.spareMoveComplete st row) s = .next (w.commitPart (st - 32) row))) ∧
    (s.getF .MEM_STK_STAT_STATE st ≠ 1 → ∀ b, exec (.trnDone st b ⟨stat, lost, failing⟩) s = .next s ∧ exec (.stackTrainTimeout st) s = .next s) ∧
    (s.getF .MEM_STK_STAT_STATE st = 1 →
      (s.getF .MEM_STK_STAT_LAST_STEP st = 5 → exec (.trnDone st true ⟨stat, lost, failing⟩) s =
        .next ((s.each failing (fun s row => s.startMove st row)).setF .MEM_STK_STAT_STATE st 2)) ∧
      (s.getF .MEM_STK_STAT_LAST_STEP st = 4 → exec (.trnDone st true ⟨stat, lost, failing⟩) s =
        .next ((s.each ((List.range s.chans).filter lost.testBit) (fun s ch => s.retireChannel st ch)).trainStep st 5)) ∧
      (s.getF .MEM_STK_STAT_LAST_STEP st < 4 → ∃ t, exec (.trnDone st true ⟨stat, lost, failing⟩) s = .next t ∧
        t.getF .MEM_STK_STAT_LAST_STEP st = s.getF .MEM_STK_STAT_LAST_STEP st + 1 ∧ t.getF .MEM_STK_STAT_STATE st = 1 ∧
        (s.getF .MEM_STK_STAT_LAST_STEP st < 3 → t.out = s.out ++ [.trnReq st (s.getF .MEM_STK_STAT_LAST_STEP st + 1)]) ∧
        (s.getF .MEM_STK_STAT_LAST_STEP st = 3 → ∃ code, t.out = s.out ++ [.lrep st code, .wsp st true]) ∧
        t.work = s.work ∧ t.mem.cells = s.mem.cells) ∧
      ((s.stackX st).fails = 2 → exec (.trnDone st false ⟨stat, lost, failing⟩) s =
        .next (((s.setF .MEM_STK_STAT_TRN_STAT st stat.toNat).updStack st (fun x => { x with fails := 3 })).stackFailed st)) ∧
      ((s.stackX st).stepAt + trainBound s.recov.warm.isSome (s.getF .MEM_STK_STAT_LAST_STEP st) ≤ s.now →
        exec (.stackTrainTimeout st) s = .next (s.stackFailed st)))

/-! ### Coherence (chapter 11) -/

/-- Requests of a node at a home (R66, R243, R254, R284, R294–R296, R298, Table 10-1): while the edge answers for the core they are refused ST_FAULT, CORE_OUT; a
barred node's are refused; an address outside the pool is refused ST_XLATE; without allowance they expire, and with too little are refused
ST_NO_PROMISE, REMOTE; a write of a durable page that is not covered is refused HOLDUP; else they take a tracker entry, or with the general entries full are
NACKed with a ticket. A request of the alloy's other block for a line homed elsewhere is one of the node's own (R298). -/
def Obligations.CoherenceRequests : Prop :=
  ∀ (s : State) (m : Msg) (n : Nat), m.src = .node n →
    ∀ p ∈ ([(Instr.rdShr m, MsgKind.rdShr), (.rdOwn m, .rdOwn), (.upgMsg m, .upg), (.rdCur m, .rdCur), (.wrFull m, .wrFull), (.wrPart m, .wrPart),
        (.cleanLine m, .cleanLine)] : List (Instr × MsgKind)),
      let r := { m with kind := p.2 }
      let home := s.homeOf (offOf m)
      (s.atHome m.addr = false → s.alloyNodes.contains n = true → exec p.1 s = .next (s.fabricRequest r)) ∧
      (s.atHome m.addr = true ∨ s.alloyNodes.contains n = false →
       (s.edgeAnswers = true → exec p.1 s = .next (s.refuseMsg r s.now 3 8)) ∧
      (s.edgeAnswers = false → s.coh.recallAt = none →
        (s.barredAt home (.node n) = true → exec p.1 s = .next (s.refuseMsg r s.now 3 5)) ∧
        (s.barredAt home (.node n) = false →
          (s.region (offOf m) = .none → exec p.1 s = .next (s.refuseMsg r s.now 8 1)) ∧
          (∀ k o, s.region (offOf m) = .direct k o → exec p.1 s = .next (s.refuseMsg r s.now 8 2)) ∧
          (s.region (offOf m) = .global →
            (allowNs m.allow = none → ∃ t, exec p.1 s = .next t ∧ t = (s.bumpF .PRM_REFUSED_REMOTE_EXPIRED 0).tell (.node n)
              { (s.bumpF .PRM_REFUSED_REMOTE_EXPIRED 0).answer r s.now .expired with aux := (s.bumpF .PRM_REFUSED_REMOTE_EXPIRED 0).node }) ∧
            (∀ a, allowNs m.allow = some a →
              (a - m.late < s.completerBound p.2 + s.flightTo n m.addr →
                exec p.1 s = .next ((s.bumpF .PRM_REFUSED_REMOTE_SHORT 0).refuseMsg r s.now 1 5)) ∧
              (s.completerBound p.2 + s.flightTo n m.addr ≤ a - m.late →
                (p.2 = .wrFull ∨ p.2 = .wrPart → s.uncovered (lineOf m) = true → exec p.1 s = .next (s.refuseMsg r s.now 1 4)) ∧
                ((p.2 = .wrFull ∨ p.2 = .wrPart → s.uncovered (lineOf m) = false) → m.ticket = 0 →
                  let v := s.stakesDue home
                  (v.trackerUse home false < 896 → exec p.1 s = .next (v.accept r home false)) ∧
                  (896 ≤ v.trackerUse home false → exec p.1 s = .next (v.nackNew r v.now home)))))))))

/-- What a home grants a host once its snoops are answered (Table 11-6): a shared read of a line that nobody else holds is answered with the line
in E and recorded EXCL; of a held one in S, every holder kept; RD_CUR leaves the holders as they are; an ownership read makes the requester the
one holder. The directory entry names a member that it was given, and not one that left it (R287). Members (R276–R281, Table 11-5): a section gateway whose cores hold nothing of the line answers a snoop, and moves, as the table says; CMP ends
an eviction; a grant that is not poisoned gives a core that waits for it the granted state; an eviction of a line that a core holds sends the
write-back, or the notice, and leaves the line EVICTING. -/
def Obligations.CoherenceGrantsAndMembers : Prop :=
  ((∀ (s u : State) (i : Nat) (t : Txn) (d : Nat) (e : DirEnt) (b : List Byte), t.who = .host d → t.req.src = .host d → d < 8 → t.cur = none →
    t.curPoison = false → s.bitF .SLC_DLOG_CTRL_EN 0 = false → s.ent t.line = some e → e.lost = false → s.loadLine (t.line * 64) t.req.key = (.bytes b, u) →
    let v := s.finishTxn i t
    (t.kind = .rdShr → e.holders.filter (· ≠ t.who) = [] → ¬ (e.sum = 0 ∧ e.names t.who = true) →
      ∃ r e', v.out = s.out ++ [.ring (.host d) r] ∧ r.kind = .data ∧ r.data = b ∧ r.grant = 2 ∧ v.ent t.line = some e' ∧
        e'.ownedBy (.host d) = true ∧ e'.holders = [.host d] ∧ e'.sum = 2) ∧
    (t.kind = .rdShr → e.holders.filter (· ≠ t.who) ≠ [] →
      ∃ r e', v.out = s.out ++ [.ring (.host d) r] ∧ r.kind = .data ∧ r.data = b ∧ r.grant = 1 ∧ v.ent t.line = some e' ∧
        e'.names (.host d) = true ∧ ∀ w, e.names w = true → e'.names w = true) ∧
    (t.kind = .rdCur → e.holders ≠ [] →
      ∃ r, v.out = s.out ++ [.ring (.host d) r] ∧ r.kind = .data ∧ r.data = b ∧ r.grant = 0 ∧ v.ent t.line = some e) ∧
    (t.kind = .rdOwn →
      ∃ r e', v.out = s.out ++ [.ring (.host d) r] ∧ r.kind = .data ∧ r.data = b ∧ r.grant = 2 ∧ v.ent t.line = some e' ∧
        e'.ownedBy (.host d) = true ∧ e'.holders = [.host d])) ∧
  ∀ (e : DirEnt) (k : Nat) (n : Nat),
    (e.add (.gateway k)).names (.gateway k) = true ∧ (e.add (.host k)).names (.host k) = true ∧ (e.add (.node n)).names (.node n) = true ∧
    (e.del (.gateway k)).names (.gateway k) = false ∧ (e.del (.host k)).names (.host k) = false ∧
    (k < 8 → (e.del (.gateway k)).ownedBy (.gateway k) = false)) ∧
  (∀ (s : State) (m : Msg),
    (∀ k, s.coh.l1.rising = true → k < 8 → m.src = .gateway k → (∀ c ∈ coresOfSec k, s.l0 (s.lid m.addr) c = .i) →
      ∀ p ∈ ([(Instr.snpShr m, .m, .snpData, .o), (.snpShr m, .e, .rspS, .s), (.snpShr m, .o, .snpData, .o), (.snpInv m, .m, .snpData, .i),
          (.snpInv m, .o, .snpData, .i), (.snpInv m, .e, .rspI, .i), (.snpCur m, .m, .snpData, .m), (.snpCur m, .o, .snpData, .o),
          (.snpCur m, .e, .rspS, .e), (.snpShr m, .evicting, .rspEvicting, .evicting), (.snpInv m, .evicting, .rspEvicting, .evicting)] :
          List (Instr × LState × MsgKind × LState)),
        s.l1 (s.lid m.addr) k = p.2.1 →
        ∃ t r, exec p.1 s = .next t ∧ t.l1 (s.lid m.addr) k = p.2.2.2 ∧ t.out = s.out ++ [.ring (.gateway k) r] ∧ r.kind = p.2.2.1 ∧ r.txn = m.txn ∧
          t.regs = s.regs ∧ t.work = s.work) ∧
    (∀ c, m.src = .core c →
      (s.l0 (s.lid m.addr) c ≠ .i → m.poison = false → 1 ≤ m.grant → m.grant ≤ 3 →
        (∃ t, exec (.dataMsg m) s = .next t ∧ t.l0 (s.lid m.addr) c = grantState m.grant ∧ t.regs = s.regs ∧ t.work = s.work ∧ t.mem = s.mem) ∧
        (∃ t, exec (.gntMsg m) s = .next t ∧ t.l0 (s.lid m.addr) c = .m ∧ t.regs = s.regs ∧ t.work = s.work ∧ t.mem = s.mem)) ∧
      (s.coh.l0.rising = true → s.l0 (s.lid m.addr) c = .evicting → ∃ t, exec (.cmpMsg m) s = .next t ∧ t.l0 (s.lid m.addr) c = .i ∧
        t.regs = s.regs ∧ t.work = s.work ∧ t.mem = s.mem) ∧
      (s.l0 (s.lid m.addr) c ≠ .evicting → exec (.cmpMsg m) s = .next s)) ∧
    (∀ c line, (s.l0 (s.lid (line * 64)) c = .e ∨ s.l0 (s.lid (line * 64)) c = .s →
        ∃ t r, exec (.lineEviction (.core c) line) s = .next t ∧ t.l0 (s.lid (line * 64)) c = .evicting ∧
          t.out = s.out ++ [.ring (.core c) r] ∧ r.kind = .evictClean ∧ t.regs = s.regs ∧ t.mem = s.mem) ∧
      (s.l0 (s.lid (line * 64)) c = .m →
        ∃ t r, exec (.lineEviction (.core c) line) s = .next t ∧ t.l0 (s.lid (line * 64)) c = .evicting ∧
          t.out = s.out ++ [.ring (.core c) r] ∧ r.kind = .wbDirty ∧ t.regs = s.regs) ∧
      (s.l0 (s.lid (line * 64)) c = .i → exec (.lineEviction (.core c) line) s = .next s)))

/-- Answers, notices and tickets (R279, R280, R283, R284, R289, R292, R294, R295): an answer of a snooped member takes it off the list and changes
the entry by its kind; an acknowledgement ends the read that waits for it; a notice of a member that the entry names stores what it carries and
takes the member out, and one of a member that it does not name is only answered CMP; a refusal or an expiry is told to all who waited; a ticket
is kept until RETRY, and an entry that it was assigned lapses. -/
def Obligations.CoherenceAnswers : Prop :=
  ∀ (s : State) (m : Msg) (d i : Nat) (t : Txn), m.src = .host d →
    (s.barredAt (s.homeOf (offOf m)) (.host d) = false → s.activeTxn (lineOf m) = some (i, t) → .host d ∈ t.snoops →
      let v := s.updTxn i (fun t => { t with snoops := t.snoops.filter (· ≠ .host d) })
      let line := lineOf m
      exec (.rspI m) s = .next ((v.updEnt line (fun e => e.del (.host d))).hpfDel (.host d) line).homes ∧
      exec (.rspLost m) s = .next (v.gone line (.host d) true).homes ∧
      (t.kind = .rdShr → exec (.rspS m) s = .next
        ((v.updEnt line (fun e => if e.ownedBy (.host d) then e.shared else e)).hpfSet (.host d) line false).homes) ∧
      (∀ e, s.ent line = some e →
        (e.ownedBy (.host d) = true → exec (.rspEvicting m) s = .next (v.updTxn i (fun t => { t with awaitWb := true })).homes) ∧
        (e.ownedBy (.host d) = false → exec (.rspEvicting m) s = .next (v.updEnt line (fun e => e.del (.host d))).homes)) ∧
      (m.grant = 0 → exec (.snpData m) s = .next (((v.updTxn i (fun t => { t with
        cur := some (fit64 m.data), curPoison := m.poison, curKey := s.getF .MEM_HDM_CTRL_KEY d })).updEnt line
        (fun e => e.del (.host d))).hpfDel (.host d) line).homes)) ∧
    (s.activeTxn (lineOf m) = none → s.barredAt (s.homeOf (offOf m)) (.host d) = false →
      ∀ x ∈ [Instr.rspI m, .rspS m, .rspEvicting m, .rspLost m, .snpData m, .ackMsg m], exec x s = .next s) ∧
    (s.barredAt (s.homeOf (offOf m)) (.host d) = true → (∀ x ∈ [Instr.rspI m, .rspS m, .rspEvicting m, .rspLost m], exec x s = .next s) ∧
      exec (.snpData m) s = .next { s with coh := { s.coh with discarded := s.coh.discarded + 1 } }) ∧
    (s.activeTxn (lineOf m) = some (i, t) → t.awaitAck = true → t.who = .host d → exec (.ackMsg m) s = .next (s.endTxn i t).homes) ∧
    (s.edgeAnswers = false → s.barredAt (s.homeOf (offOf m)) (.host d) = false → s.coh.recallAt = none →
      let line := lineOf m
      let key := s.getF .MEM_HDM_CTRL_KEY d
      let cmp (k : MsgKind) := s.answer { m with kind := k } s.now .cmp
      (s.ent line = none → (s.hostHolds d line = true → exec (.wbDirty m) s = .next (s.tell (.host d) (cmp .wbDirty))) ∧
        exec (.evictClean m) s = .next (s.tell (.host d) (cmp .evictClean))) ∧
      (∀ e, s.ent line = some e → e.names (.host d) = true → s.activeTxn line = none → m.keep = false →
        exec (.evictClean m) s = .next (((s.setEnt line (e.del (.host d))).hpfDel (.host d) line).tell (.host d) (cmp .evictClean)).homes ∧
        (s.hostHolds d line = true → s.inHole line = false → s.bitF .SLC_DLOG_CTRL_EN 0 = false → exec (.wbDirty m) s =
          .next ((((((s.homeStore line key (fit64 m.data) m.poison).dlog (offOf m) key).setEnt line (e.del (.host d))).hpfDel (.host d) line).tell
            (.host d) (cmp .wbDirty))).homes))) ∧
    (∀ k, let g := { m with src := .gateway k }
      let key := upKey (s.lid m.addr) k
      (s.coh.ups.find key = none → exec (.refuse g) s = .next s ∧ exec (.expired g) s = .next s) ∧
      (∀ u, s.coh.ups.find key = some u → u.waiters = [] →
        exec (.refuse g) s = .next (s.delUp key) ∧ exec (.expired g) s = .next (s.delUp key)) ∧
      (∀ u, s.coh.ups.find key = some u → ∃ w x, exec (.nackStake g) s = .next w ∧ w.coh.ups.find key = some x ∧ x.ticket = m.ticket ∧
        x.retryAt = some (s.now + (if u.ticket = m.ticket then min ((allowNs m.aux).getD 0) (s.getF .COH_CTRL_STAKE_LIFE_US 0 * 500)
          else (allowNs m.aux).getD 0)) ∧ x.waiters = u.waiters ∧ w.regs = s.regs ∧ w.mem = s.mem ∧ w.work = s.work)) ∧
    (∀ line, (∀ kv ∈ s.coh.ups, kv.1 / 16 = s.lid (line * 64) → ∀ at_, kv.2.retryAt = some at_ → s.now < at_) → exec (.stakeRetry line) s = .next s) ∧
    (∀ line k u at_, let key := upKey (s.lid (line * 64)) k
      k < 8 → s.coh.ups = [(key, u)] → u.retryAt = some at_ → at_ ≤ s.now →
      (u.until_ = none → ∃ r, exec (.stakeRetry line) s = .next ((s.emit (.ring (.gateway k) r)).setUp key { u with
          port := none, retryAt := some (s.now + s.getF .COH_CTRL_STAKE_LIFE_US 0 * 500) }) ∧ r.kind = u.kind ∧ r.ticket = u.ticket) ∧
      (∀ e, u.until_ = some e → e ≤ s.now → u.waiters = [] → exec (.stakeRetry line) s = .next (s.delUp key))) ∧
    (∀ home n k a, (s.stakesDue home).coh.tickets.find (ticketKey home n) = some k → k.assigned = some a →
      (s.now < a + s.getF .COH_CTRL_STAKE_LIFE_US 0 * 1000 → exec (.stakeLapse home n) s = .next s) ∧
      (a + s.getF .COH_CTRL_STAKE_LIFE_US 0 * 1000 ≤ s.now → exec (.stakeLapse home n) s = .next (s.freeStakes home
        (fun s => { s with coh := { s.coh with tickets := s.coh.tickets.del (ticketKey home n) } }.incF .COH_HOME_LAPSE_COUNT home))))

/-- Death, rejoining and restart (R282, R293–R297): a DEAD message, a link loss, a COH_DEAD write with GO and a snoop limit declare a member dead;
a second declaration at the homes that barred it changes nothing there; a returning host ends its bar; the recall window closes at its time or
with the last peer's answer; while the homes are closed the edge answers for the core. -/
def Obligations.DeathAndRestart : Prop :=
  ∀ (s : State) (m : Msg) (d n : Nat) (v : W32), s.regs.rising = true →
    (m.src = .host d → exec (.dead m) s = .next (s.declareDead (.host d) allHomes).homes) ∧
    (∀ c, m.src = .core c → exec (.dead m) s = .next (s.deadCore c)) ∧
    (∀ k w, m.src = .node k → (s.declareDead (.node (m.addr >>> 48)) allHomes).homes = w → w.alloyNodes.contains k = false →
      exec (.dead m) s = .next w) ∧
    (∃ t, exec (.hostLinkDown d) s = .next t ∧ d ∉ t.edge.hostUp ∧ ∀ l e, (l, e) ∈ t.coh.hpf → l / 2 ^ 42 ≠ d) ∧
    (s.edge.pins.porstN = false ∨ s.edge.pins.edgePwrOk = false ∨ s.edge.build.dies ≤ d → exec (.hostLinkUp d) s = .next s) ∧
    (s.edge.pins.porstN = true → s.edge.pins.edgePwrOk = true → d < s.edge.build.dies → ∃ t, exec (.hostLinkUp d) s = .next t ∧
      d ∈ t.edge.hostUp ∧ (∀ k, k < 8 → k ∉ s.coh.walks → t.barredAt k (.host d) = false) ∧ t.regs = s.regs ∧ t.mem = s.mem ∧ t.work = s.work) ∧
    (m.src = .host d → ∃ t, exec (.rejoin m) s = .next t ∧ (∀ k, k < 8 → k ∉ s.coh.walks → t.barredAt k (.host d) = false) ∧ t.mem = s.mem) ∧
    (∃ t, exec (.directoryWalkDone d) s = .next t ∧ d ∉ t.coh.walks ∧ (∀ c ∈ s.coh.rejoins, c / 2 ^ 20 = d → c ∉ t.coh.barred) ∧ t.mem = s.mem) ∧
    (v.getLsbD 31 = false → exec (.cohDeadWrite v) s = .next s) ∧
    (v.getLsbD 31 = true → v.getLsbD 30 = false → exec (.cohDeadWrite v) s = .next (s.declareDead (.node (v.toNat % 2 ^ 16)) allHomes).homes) ∧
    (∀ t, s.coh.txns.find n = some t →
      let limit := t.since + s.getF .COH_CTRL_SNP_LIMIT_US 0 * (if t.home = 8 then 500 else 1000)
      let kill (w : Who) := Host.Outcome.next (s.declareDead w [t.home]).homes.alloys
      (t.waiting = true ∨ s.now < limit → exec (.snoopTimeout n) s = .next s) ∧
      (t.waiting = false → limit ≤ s.now →
        (t.snoops = [] → t.awaitWb = false → t.awaitAck = true → exec (.snoopTimeout n) s = kill t.who) ∧
        (∀ w, t.snoops = [w] → t.awaitWb = false → t.awaitAck = false → exec (.snoopTimeout n) s = kill w) ∧
        (∀ e w, t.snoops = [] → t.awaitWb = true → t.awaitAck = false → s.ent t.line = some e → e.ownerWho = some w →
          exec (.snoopTimeout n) s = kill w))) ∧
    (s.coh.recallAt = none → exec .recallWindowClose s = .next s ∧ exec (.recallDone m) s = .next s) ∧
    (∀ a, s.coh.recallAt = some a →
      (s.now < a → exec .recallWindowClose s = .next s) ∧
      (a ≤ s.now → ∃ t, exec .recallWindowClose s = .next t ∧ t.coh.recallAt = none ∧ t.getF .COH_RESTART_LOG_OVERFLOW 0 = 0 ∧ t.mem = s.mem) ∧
      (s.coh.peers = [m.srcNode] → ∃ t, exec (.recallDone m) s = .next t ∧ t.coh.recallAt = none ∧ t.mem = s.mem)) ∧
    (s.coh.l1 = [] → exec (.homeReset m) s = .next ((s.send { s.mkMsg .recallDone m.srcNode (s.node * 2 ^ 48) with src := .node s.node }).send
      { s.mkMsg .rejoin m.srcNode (s.node * 2 ^ 48) with src := .node s.node })) ∧
    (s.edgeAnswers = false → exec (.edgeCoreAnswer m) s = .next s) ∧
    (s.edgeAnswers = true → m.src = .host d → m.kind = .rdShr → ∃ t r, exec (.edgeCoreAnswer m) s = .next t ∧ t.out = s.out ++ [.ring (.host d) r] ∧
      r.kind = .data ∧ r.poison = true ∧ t.mem = s.mem ∧ t.regs = s.regs)

/-! ### Filigree (chapter 12) -/

/-- Ports (R301, R309, R311, R324, R326, Table 12-6): ENABLE of a present DORMANT port trains it; training with its echoes and major version 2 makes
it ACTIVE, or DEGRADED on half a module, with half of the largest round trip as its flight; a failed step waits its backoff and then counts; a
fence of a live port records its cause, and of another does nothing; a disabled port is DORMANT. -/
def Obligations.PortStates : Prop :=
  ∀ (s : State) (p : Nat), s.regs.rising = true →
    (s.edgeUp = false → exec (.portEnable p) s = .next s) ∧
    (s.edgeUp = true → s.portPresent p = true → s.portState p = 0 → s.channelOpen p = false → ∃ t, exec (.portEnable p) s = .next t ∧ t.portState p = 1 ∧
      t.bitF .FIL_PORT_CTRL_ENABLE p = true ∧ t.mem = s.mem ∧ t.work = s.work) ∧
    (s.portState p = 0 → exec (.portDisable p) s = .next (s.setF .FIL_PORT_CTRL_ENABLE p 0)) ∧
    (s.portState p ≠ 0 → exec (.portDisable p) s = .next (((s.setF .FIL_PORT_CTRL_ENABLE p 0).portDown p 0).setF .FIL_PORT_STAT_FENCE_CAUSE p 0)) ∧
    (∀ c, let w := if c = 1 then s.setF .FIL_PORT_CTRL_FENCE p 1 else s
      let v := (w.portDown p 4).setF .FIL_PORT_STAT_FENCE_CAUSE p c
      (w.portLive p = false → exec (.portFence p c) s = .next w) ∧
      (w.portLive p = true → exec (.portFence p c) s =
        .next ((v.fault { FaultRec.blank 0x0014 8 7 with unit := p, aux1 := c }).lostOn p v.nextIndex))) ∧
    (∀ trips minor partner, s.portState p = 1 → (s.port p).retryAt = none → s.channelOpen p = true → trips.length = 16 →
      (∃ t, exec (.portTrainingDone p trips 2 minor partner) s = .next t ∧ t.portState p = (if s.portModule p = .half then 3 else 2) ∧
        t.getF .FIL_PORT_FLIGHT_NS p = min (ceilDiv (trips.foldl max 0) 2) 0xFFFF ∧ (t.port p).egress = (s.port p).egress ∧ t.mem = s.mem) ∧
      (exec (.portTrainingDone p trips 1 minor partner) s = exec (.portTrainingFail p) s)) ∧
    (s.portState p = 1 → (s.port p).retryAt = none → ∃ t, exec (.portTrainingFail p) s = .next t ∧
      (t.port p).retryAt = some (s.now + trainBackoff (s.port p).trainFails) ∧ t.regs = s.regs ∧ t.mem = s.mem) ∧
    (s.portState p ≠ 1 → exec (.portTrainingFail p) s = .next s ∧ exec (.portTrainingRetry p) s = .next s) ∧
    (∀ a, s.portState p = 1 → (s.port p).retryAt = some a → a ≤ s.now → s.channelOpen p = false → ∃ t, exec (.portTrainingRetry p) s = .next t ∧
      (t.port p).retryAt = none ∧ (t.port p).trainFails = (s.port p).trainFails + 1 ∧ t.mem = s.mem ∧ t.out = s.out) ∧
    (s.portLive p = true → s.bitF .FIL_PORT_STAT_ENCRYPTED p = true → ∃ t, exec (.portRekey p) s = .next t ∧ t.bitF .FIL_PORT_CTRL_REKEY p = true ∧
      (t.port p).rekeyNext = true ∧ t.mem = s.mem ∧ t.out = s.out) ∧
    (exec .filNodeLock s = .next (s.setF .FIL_NODE_LOCK 0 1)) ∧
    (∀ (k : Nat) (v : W32), exec (.filSlcMeterWrite k 3 v) s =
      .next (if 1 ≤ v.toNat % 2 ^ 7 then s.setF .FIL_SLC_SHAPE_QUANTUM k (v.toNat % 2 ^ 7) else s)) ∧
    (s.edge.straps.bothEnds = false → s.edge.straps.testEn = false → exec .faultInject s = .next s) ∧
    (s.edge.straps.testEn = true → ∃ t, exec .faultInject s = .next t ∧ t.fil.inject = s.getF .FIL_INJ_COUNT 0 ∧ t.mem = s.mem ∧ t.work = s.work)

/-- The link layer and switching (R65, R304–R308, R312–R314, R317, R354): a flit on a port that is not live is ignored; what a MSG flit delivers loses the
link's flight term, and a request with none left expires; IDLE flits only move the link state; TRAIN flits are echoed while training; an
acknowledgement goes out when due. SIGNAL is forwarded by route, else counted as dropped; doorbell and management messages act as register
accesses and are answered. -/
def Obligations.LinkMessages : Prop :=
  ∀ (s u : State) (p : Nat) (f : Flit) (m : Msg), s.regs.rising = true →
    (s.portLive p = false → exec (.egressFlitSend p) s = .next s ∧ exec (.linkAckTimer p) s = .next s ∧
      (s.portState p ≠ 1 → exec (.flitMsg p f) s = .next s ∧ exec (.flitIdle p f) s = .next s)) ∧
    (∀ x, s.receive p { f with ftype := if f.ftype ≤ 2 then 1 else f.ftype } = (some x, u) →
      (isReq x.kind = true → (∀ a, allowNs x.allow = some a → a ≤ u.getF .FIL_PORT_FLIGHT_NS p) →
        exec (.flitMsg p f) s = .next (u.expireReq x)) ∧
      (isReq x.kind = true → ∀ a, allowNs x.allow = some a → u.getF .FIL_PORT_FLIGHT_NS p < a →
        exec (.flitMsg p f) s = .next (u.routeMsg p { x with late := u.getF .FIL_PORT_FLIGHT_NS p })) ∧
      (isReq x.kind = false → exec (.flitMsg p f) s = .next (u.routeMsg p { x with late := u.getF .FIL_PORT_FLIGHT_NS p }))) ∧
    (s.receive p { f with ftype := if f.ftype ≤ 2 then 1 else f.ftype } = (none, u) → exec (.flitMsg p f) s = .next u) ∧
    (exec (.flitIdle p f) s = .next (s.receive p { f with ftype := 0, msg := none }).2) ∧
    (exec (.egressFlitSend p) s = .next (s.egressSend p)) ∧
    ((s.receive p { f with ftype := 2, msg := none }).2 = u →
      (s.portState p ≠ 1 ∨ f.crcOk = false → exec (.flitTrain p f) s = .next u) ∧
      (s.portState p = 1 → f.crcOk = true → exec (.flitTrain p f) s = .next (u.emitFlit p false ⟨(u.port p).header 2, [], 0, 0, 0⟩))) ∧
    (s.portLive p = true → 32 ≤ (s.port p).unacked → exec (.linkAckTimer p) s = .next (s.sendFlit p none false)) ∧
    (m.dst = s.node → exec (.filSignal p m) s = .next s) ∧
    (m.dst ≠ s.node → s.send? (4096 + p) m = none → exec (.filSignal p m) s = .next (s.bumpF .CIC_MSTAT_DROPPED 0)) ∧
    (m.dst ≠ s.node → s.send? (4096 + p) m = some u → exec (.filSignal p m) s = .next u) ∧
    (exec (.mgRsp p m) s = .next s) ∧
    (exec (.dbWr p m) s = .next ((s.windowWrite (.fil p m.srcNode) (m.addr % 2 ^ 26) 4 (dataOf m 4)).mgAnswer p m
      (if s.queuePath (m.addr % 2 ^ 26 / 4096) (.fil p m.srcNode) then 0 else 6) [])) ∧
    (∀ v, s.windowRead (.fil p m.srcNode) (m.addr % 2 ^ 26) 4 = (.inl v, u) → exec (.dbRd p m) s = .next (u.mgAnswer p m 0 (bytesLE 4 v))) ∧
    (s.queuePath (m.addr % 2 ^ 26 / 4096) (.fil p m.srcNode) = false → exec (.dbRd p m) s = .next (s.mgAnswer p m 6 [])) ∧
    (let n := if m.lc then 8 else 4
      let path := Path.fil p m.srcNode
      let off := m.addr % 2 ^ 26
      (∀ k, s.refusal path off n true = some k → exec (.mgWr p m) s = .next (s.mgAnswer p m k [])) ∧
      (s.refusal path off n true = none → exec (.mgWr p m) s =
        .next ((s.mgmtWrite path off n (dataOf m n)).mgAnswer p m ((s.channelRefusal path off n).getD 0) []))) ∧
    (∀ v, s.mgmtRead (.fil p m.srcNode) (m.addr % 2 ^ 26) 4 = (.inl v, u) → m.lc = false →
      exec (.mgRd p m) s = .next (u.mgAnswer p m 0 (bytesLE 4 v))) ∧
    (∀ k, s.mgmtRead (.fil p m.srcNode) (m.addr % 2 ^ 26) 4 = (.inr k, u) → m.lc = false → exec (.mgRd p m) s = .next (u.mgAnswer p m k [])) ∧
    (exec (.spdmMsg p m) s = .next (s.spdmFragment p m)) ∧
    (∀ e, (s.port p).egress = [e] → { e.msg with late := 0 } = m → isReq m.kind = true → s.allowOut e.msg (s.now - e.since) = none →
      exec (.hopAllowanceExpiry (some p) m) s = .next ((s.dropEgress p e).expireReq { e.msg with late := e.msg.late + (s.now - e.since) })) ∧
    ((s.port p).egress = [] → exec (.hopAllowanceExpiry (some p) m) s = .next s)

/-! ### Interrupts and mailboxes (chapter 14) -/

/-- The interrupt controller (R350, R351, R354, R355): writing 1 to a pending bit clears it and no other; writing 1 to a cause bit clears it; CIC_SET sets
the named sources that software may set, and no other of the core's; a moderator's timer sends one message for the events counted, and an
unmasked vector the one that waited. -/
def Obligations.InterruptRegisters : Prop :=
  ∀ (s : State) (c w q : Nat) (v : W32), s.regsOk → w < 4 →
    (∃ t, exec (.cicPendClear c w v) s = .next t ∧ (∀ b, t.bitOf .CIC_PEND (c * 4 + w) b = (s.bitOf .CIC_PEND (c * 4 + w) b && !v.getLsbD b)) ∧
      (∀ f i, ¬ (f = .CIC_PEND ∧ i = c * 4 + w) → t.getF f i = s.getF f i) ∧ t.work = s.work ∧ t.mem = s.mem ∧ t.out = s.out) ∧
    (∃ t, exec (.cicMcauseClear v) s = .next t ∧ (∀ b, b < 8 → t.bitOf .CIC_MCAUSE_CAUSE 0 b = (s.bitOf .CIC_MCAUSE_CAUSE 0 b && !v.getLsbD (b + 1))) ∧
      t.work = s.work ∧ t.mem = s.mem ∧ t.out = s.out) ∧
    (v = 0 → exec (.cicSet c w v) s = .next s) ∧
    (∀ b, b < 32 → v = BitVec.ofNat 32 (2 ^ b) →
      (cicSettable (32 * w + b) = true → exec (.cicSet c w v) s = .next (s.cicEvent c (32 * w + b))) ∧
      (cicSettable (32 * w + b) = false → exec (.cicSet c w v) s = .next s)) ∧
    ((s.qx q).timer = none → exec (.moderatorTimerExpiry q) s = .next s) ∧
    (∀ a, (s.qx q).timer = some a →
      (s.now < a → exec (.moderatorTimerExpiry q) s = .next s) ∧
      (a ≤ s.now → ∃ t, exec (.moderatorTimerExpiry q) s = .next t ∧ (t.qx q).timer = none ∧ (t.qx q).count = 0 ∧ t.mem = s.mem)) ∧
    (∀ port vf entry, ∃ t x, exec (.msixUnmask port false vf entry) s = .next t ∧
      t.mbx.msix.find (msixKey port (some vf) entry) = some x ∧ x.masked = false ∧ t.work = s.work ∧ t.mem = s.mem)

/-- Mailboxes (R356–R360): TX_LEN from a bound side whose direction is empty posts the message; to a FULL one, or with length 0 or above 8, it is
ignored and counted; the last read hands out the word and clears FULL; a party with no side is refused DENIED, one whose far side is off
DOMAIN_OFF; a returning domain clears both directions; the lock locks. -/
def Obligations.Mailboxes : Prop :=
  ∀ (s : State) (party : Party) (ch : Nat) (b : Bool) (v : W32), s.regs.rising = true →
    (∀ k, s.mbxAccess ch party = .inr k → exec (.mbxTxLen party ch v) s = .next ((s.mbxErr ch k).emit (.mbxRefused party ch k)) ∧
      exec (.mbxRxLastRead party ch) s = .next ((s.mbxErr ch k).emit (.mbxRefused party ch k))) ∧
    (s.sideOf ch party = none → s.mbxAccess ch party = .inr 2) ∧
    (s.sideOf ch party = some b → s.farOff ch b = true → s.mbxAccess ch party = .inr 1) ∧
    (s.mbxAccess ch party = .inl b →
      ((s.mbxDir ch b).full = true ∨ v.toNat % 16 = 0 ∨ 8 < v.toNat % 16 → exec (.mbxTxLen party ch v) s = .next (s.mbxErr ch 3)) ∧
      ((s.mbxDir ch b).full = false → 1 ≤ v.toNat % 16 → v.toNat % 16 ≤ 8 → ∃ t, exec (.mbxTxLen party ch v) s = .next t ∧
        (t.mbxDir ch b).full = true ∧ (t.mbxDir ch b).len = v.toNat % 16 ∧ (t.mbxDir ch b).words = (s.mbxDir ch b).words ∧ t.mem = s.mem) ∧
      ((s.mbxDir ch (!b)).full = true → ∃ t, exec (.mbxRxLastRead party ch) s = .next t ∧ (t.mbxDir ch (!b)).full = false ∧
        t.mem = s.mem ∧ .mbxWord party ch ((s.mbxDir ch (!b)).words.toList.getD ((s.mbxDir ch (!b)).len - 1) 0).toNat ∈ t.out)) ∧
    (exec .mbxLock s = .next (s.setF .MBX_LOCK 0 1)) ∧
    (∃ t, exec (.mbxDomainReturn ch) s = .next t ∧ (t.mbxDir ch false).full = false ∧ (t.mbxDir ch true).full = false ∧
      t.work = s.work ∧ t.mem = s.mem ∧ t.out = s.out)

/-! ### Slices (chapter 13) -/

/-- CREATE_SLICE and RESIZE_SLICE (R72, R329–R331, R333, R335) complete: a block of another length or one that breaks Table 13-3 completes
ST_BAD_DESC, ARG; a SliceID that is 0 or not EMPTY completes STATE; else the slice takes what the commit reserved, or what is there now (log entry 112),
and is BUILDING with a LIVE key slot, and RESULT names the slot and the first frame. RESIZE_SLICE completes STATE in a full configuration and for a
slice that is neither BUILDING nor LIVE, and else writes the new shares, floor and quotas. -/
def Obligations.SliceCreation : Prop :=
  ∀ (s u : State) (i : Nat) (x : Item) (e rs : List Ext) (b : List Byte),
    (s.live i 0x80 = some x → x.desc.argLen ≠ 64 → exec (.createSlice i e) s = .next (s.finishItem i 7 5 none 0)) ∧
    (s.live i 0x81 = some x → s.isFull = true → exec (.resizeSlice i e) s = .next (s.finishItem i 7 8 none 0)) ∧
    (s.live i 0x81 = some x → s.isFull = false → x.desc.argLen ≠ 64 → exec (.resizeSlice i e) s = .next (s.finishItem i 7 5 none 0)) ∧
    (x.desc.argLen = 64 → x.desc.flags.testBit 2 = false →
      (x.resv = none ∧ s.readGuest 0 ⟨0, none, false⟩ x.desc.argPtr 64 e = (.bytes b, rs, u)) ∨ (x.resv.map (fun r => r.block) = some b ∧ u = s) →
      let n := NewSlice.parse b
      (s.live i 0x80 = some x →
        (u.sliceBlockOk b = false → exec (.createSlice i e) s = .next (u.finishItem i 7 5 none 0)) ∧
        (u.sliceBlockOk b = true → n.id = 0 ∨ u.slcState n.id ≠ 0 → exec (.createSlice i e) s = .next (u.finishItem i 7 8 none 0)) ∧
        (u.sliceBlockOk b = true → n.id ≠ 0 → u.slcState n.id = 0 → u.slices.recScrub.contains n.id = false →
          (n.host.testBit 15 = true → u.vfTaken (bits n.host 12 3) (bits n.host 0 9) n.id = false) → u.nodeTaken n.node n.id = false →
          (u.oldestSlot = none ∨ x.takenOr (u.createTake b) = none → exec (.createSlice i e) s = .next (u.finishItem i 7 8 none 0)) ∧
          (∀ k r, u.regs.rising = true → u.oldestSlot = some k → x.takenOr (u.createTake b) = some r → r.first < 2 ^ Fld.width .SLC_HOT_FIRST →
            ∃ v : State, exec (.createSlice i e) s = .next (v.finishItem i 0 0 none (BitVec.ofNat 64 (k + r.first * 2 ^ 16))) ∧
              v.slcState n.id = 1 ∧ v.sliceKey n.id = k ∧ (v.keySlot k).state = .live ∧ v.getF .SLC_PLACE_SECTIONS n.id = n.secs ∧
              v.getF .SLC_PLACE_BE_FLOOR n.id = n.floor ∧ v.getF .SLC_HOT_FIRST n.id = r.first ∧ v.mem = u.mem ∧ v.work.items = u.work.items))) ∧
      (s.live i 0x81 = some x → s.isFull = false → u.isFull = false →
        (u.sliceBlockOk b = false → exec (.resizeSlice i e) s = .next (u.finishItem i 7 5 none 0)) ∧
        (u.sliceBlockOk b = true → u.slcState n.id ≠ 1 ∧ u.slcState n.id ≠ 2 → exec (.resizeSlice i e) s = .next (u.finishItem i 7 8 none 0)) ∧
        (u.sliceBlockOk b = true → n.id ≠ 0 → u.slcState n.id = 1 ∨ u.slcState n.id = 2 → u.sameBlock n = true →
          (u.sliceQueues n.id).length ≤ n.queues → u.kvMib n.id 0 ≤ n.mib →
          (∀ r, x.takenOr (u.resizeTake b) = some r →
            exec (.resizeSlice i e) s = .next (((u.tdiEvent n.id).setQuotas n).finishItem i 0 0 none 0)) ∧
          (x.takenOr (u.resizeTake b) = none → exec (.resizeSlice i e) s = .next (u.finishItem i 7 8 none 0)))))

/-- Freezing, thawing and slice reset (R329, R337, R338, R343): FREEZE_SLICE of a LIVE slice makes it FROZEN and completes, with FREEZE_DONE, once
its open items are gone; THAW of a BUILDING slice, or a FROZEN one with FREEZE_DONE, makes it LIVE with each FROZEN queue back at PRIOR; any other
state completes ST_BAD_DESC, STATE. A slice reset, by SLC_CTRL.RESET or a function-level reset, drops the slice's codebook slots and TLB
entries; once its holders have released, RESETTING clears and fetch resumes. -/
def Obligations.SliceFreezeAndReset : Prop :=
  ∀ (s : State) (i slice port vf : Nat) (x : Item), s.regs.rising = true →
    (s.live i 0x82 = some x → slice = x.inl % 4096 → (s.sliceX slice).freezeItem ≠ some i →
      (slice = 0 ∨ s.slcState slice ≠ 2 → exec (.freezeSlice i) s = .next (s.finishItem i 7 8 none 0)) ∧
      (slice ≠ 0 → s.slcState slice = 2 → ∃ t, exec (.freezeSlice i) s = .next t ∧ t.slcState slice = 3 ∧
        t.bitF .SLC_STATE_FREEZE_DONE slice = false ∧ (t.sliceX slice).freezeItem = some i)) ∧
    (∀ j, (s.sliceX slice).freezeItem = some j →
      (s.slcState slice = 3 → s.openItems slice = [] → s.bitF .SLC_STATE_RESETTING slice = false →
        exec (.freezeDrainDone slice) s = .next (((s.setF .SLC_STATE_FREEZE_DONE slice 1).setSliceX slice
          { s.sliceX slice with freezeItem := none }).finishItem j 0 0 none 0)) ∧
      (s.openItems slice ≠ [] → exec (.freezeDrainDone slice) s = .next s)) ∧
    ((s.sliceX slice).freezeItem = none → exec (.freezeDrainDone slice) s = .next s) ∧
    (s.live i 0x85 = some x → slice = x.inl % 4096 →
      (slice = 0 ∨ (s.slcState slice ≠ 1 ∧ ¬ (s.slcState slice = 3 ∧ s.bitF .SLC_STATE_FREEZE_DONE slice = true)) →
        exec (.thaw i) s = .next (s.finishItem i 7 8 none 0)) ∧
      (slice ≠ 0 → s.slcState slice = 1 ∨ (s.slcState slice = 3 ∧ s.bitF .SLC_STATE_FREEZE_DONE slice = true) →
        s.bitF .SLC_STATE_RESETTING slice = false →
        ∃ v : State, exec (.thaw i) s = .next (v.finishItem i 0 0 none 0) ∧ v.slcState slice = 2 ∧ v.bitF .SLC_STATE_FREEZE_DONE slice = false ∧
          ∀ q ∈ s.sliceQueues slice, s.qState q = 3 → s.getF .QCX_STATE_PRIOR q = 1 ∨ s.getF .QCX_STATE_PRIOR q = 2 →
            v.qState q = s.getF .QCX_STATE_PRIOR q)) ∧
    (s.bitF .SLC_HOST_BOUND slice = false →
      (slice = 0 ∨ s.slcState slice = 0 ∨ 4 ≤ s.slcState slice ∨ s.bitF .SLC_STATE_RESETTING slice = true → exec (.slcReset slice) s = .next s) ∧
      (slice ≠ 0 → s.slcState slice ≠ 0 → s.slcState slice < 4 → s.bitF .SLC_STATE_RESETTING slice = false →
        (∃ t, exec (.slcReset slice) s = .next t ∧ (∀ e ∈ t.mem.tlb, e.slice ≠ slice) ∧ ∀ c ∈ t.work.cb, c.2.slice = slice → c.2.stale = true) ∧
        (s.sliceItems slice = [] → s.sliceSeqs slice = [] →
          exec (.slcReset slice) s = .next (((s.setF .SLC_STATE_RESETTING slice 1).dropTags slice).clearTurns slice)))) ∧
    (∃ v : State, v.regs = s.regs ∧ v.work = s.work ∧ v.mem = s.mem ∧ (∀ n, n < 64 → v.mbx.msix.find (msixKey port (some vf) 0 + n) = none) ∧
      exec (.functionLevelReset port vf) s = .next (match s.sliceOfVf port vf with | some k => (v.sliceReset k).drawAts k | none => v)) ∧
    (s.bitF .SLC_STATE_RESETTING slice = true → s.sliceHeld slice = false →
      ∃ t, exec (.sliceResetDone slice) s = .next t ∧ t.bitF .SLC_STATE_RESETTING slice = false ∧ t.mem = s.mem ∧
        ∀ q ∈ s.sliceQueues slice, s.getF .QCX_SQ_PTRS_TAIL q ≠ s.getF .QCX_SQ_PTRS_HEAD q → (t.qx q).readyAt.isSome = true) ∧
    (s.bitF .SLC_STATE_RESETTING slice = false ∨ s.sliceHeld slice = true → exec (.sliceResetDone slice) s = .next s)

/-- Removal (R331, R345–R348, R376, R396) completes: RETIRE_SLICE leaves the slice RETIRING with its key slot DRAINING, and one that a MEM_HDMd range uses
completes ST_BAD_DESC, STATE; with no queue and no reference left the key is zeroised, the item completes and the slice is SCRUBBING; the
scrub goes page by page, waits at a page that the hold-up check does not cover, and leaves no byte of a page it has done; with all done the
slice is EMPTY and manager cause SLICE is raised; a recovery scrub does the same for a former slice's writable pages; a zeroised slot is FREE
after QUAR_MS, not before. -/
def Obligations.SliceRemoval : Prop :=
  ∀ (s u : State) (i slice slot : Nat) (x : Item), s.regs.rising = true →
    (s.live i 0x86 = some x → slice = x.inl % 4096 → (s.sliceX slice).retireItem ≠ some i →
      (slice = 0 ∨ s.slcState slice = 0 ∨ 4 ≤ s.slcState slice ∨ s.hdmUses (s.sliceKey slice) = true →
        exec (.retireSlice i) s = .next (s.finishItem i 7 8 none 0)) ∧
      (slice ≠ 0 → s.slcState slice ≠ 0 → s.slcState slice < 4 → s.hdmUses (s.sliceKey slice) = false →
        exec (.retireSlice i) s = .next ((s.tdiEvent slice).retireSlice slice i) ∧
        ∃ t, exec (.retireSlice i) s = .next t ∧ t.getF .SLC_STATE_KEYST slice = 2 ∧ (t.keySlot (t.sliceKey slice)).state = .draining)) ∧
    (s.slcState slice ≠ 4 ∨ s.sliceQueues slice ≠ [] ∨ s.heldRefs slice ≠ 0 → exec (.retireKeyZeroise slice) s = .next s) ∧
    (∀ j, s.slcState slice = 4 → s.sliceQueues slice = [] → s.heldRefs slice = 0 → (s.sliceX slice).retireItem = some j →
      ∃ v : State, exec (.retireKeyZeroise slice) s = .next (v.finishItem j 0 0 none 0) ∧ v.slcState slice = 5 ∧
        (v.keySlot (s.sliceKey slice)).zeroised = true ∧ (v.keySlot (s.sliceKey slice)).since = s.now ∧ v.slices.scrub = s.slices.scrub ++ [slice]) ∧
    (∀ done, s.scrubOn slice = (done, u) → done = true → ∀ r ∈ s.slices.scrubLeft.findD slice [], ∀ c ∈ u.mem.cells,
      c.1 < r.1 ∨ r.1 + r.2 / 4096 * 4096 ≤ c.1) ∧
    (s.slcState slice ≠ 5 ∨ s.slices.scrub.head? ≠ some slice → exec (.scrubComplete slice) s = .next s) ∧
    (s.slcState slice = 5 → s.slices.scrub.head? = some slice →
      (s.scrubOn slice = (true, u) → ∃ t, exec (.scrubComplete slice) s = .next t ∧ t.slcState slice = 0 ∧
        t.bitOf .CIC_MCAUSE_CAUSE 0 5 = true ∧ t.slices.scrub = s.slices.scrub.tail ∧ t.mem.cells = u.mem.cells) ∧
      (s.scrubOn slice = (false, u) → exec (.scrubComplete slice) s = .next u.cleanStart)) ∧
    (s.recov.warm = none →
      ((s.keySlot slot).state = .draining → (s.keySlot slot).zeroised = true →
        (s.keySlot slot).since + s.getF .SLC_CFG_QUAR_MS 0 * 1000000 ≤ s.now →
        ∃ t, exec (.keyQuarantineExpiry slot) s = .next t ∧ (t.keySlot slot).state = .free ∧ (t.keySlot slot).since = s.now ∧
          t.work = s.work ∧ t.mem = s.mem) ∧
      ((s.keySlot slot).state ≠ .draining ∨ (s.keySlot slot).zeroised = false ∨
        s.now < (s.keySlot slot).since + s.getF .SLC_CFG_QUAR_MS 0 * 1000000 → exec (.keyQuarantineExpiry slot) s = .next s) ∧
      (s.coreOn = true → s.slices.recScrub.contains slice = true →
        ((s.oneTimeKey slice).scrubOn slice = (true, u) → exec (.recoveryScrub slice) s =
          .next ({ u with slices := { u.slices with recScrub := u.slices.recScrub.filter (· != slice) } }.dropOneTime slice)) ∧
        ((s.oneTimeKey slice).scrubOn slice = (false, u) → exec (.recoveryScrub slice) s = .next u.cleanStart)) ∧
      (s.slices.recScrub.contains slice = false → exec (.recoveryScrub slice) s = .next s))

/-- Migration (R339–R342) completes: SAVE_INGOT of a slice that is not FROZEN with FREEZE_DONE completes ST_BAD_DESC, STATE, one without an
ACTIVE pairing ARG, and else writes the ingot. RESTORE_INGOT refuses an ingot that fails its checks with ARG and SEC_ERR INGOT and one whose pages find
no room with ST_NO_PROMISE, QUOTA; else the queues, the meter and the sequences are the ingot's, the slice is FROZEN with FREEZE_DONE, and RESULT counts
the sequences. The dirty log starts a walk of the homes, whose end clears BUSY; the page mover starts once, asks for the lines that holders outside the
block have, copies its range when it needs none, and stops with ERR if its target refuses. -/
def Obligations.MigrationCommands : Prop :=
  ∀ (s u : State) (i : Nat) (x : Item) (e rs : List Ext) (b : List Byte) (chk : CryptoCheck), s.regs.rising = true →
    (x.desc.argLen = 32 → x.desc.flags.testBit 2 = false →
      (x.resv = none ∧ s.readGuest 0 ⟨0, none, false⟩ x.desc.argPtr 32 e = (.bytes b, rs, u)) ∨
        (x.resv.map (fun r => r.block) = some b ∧ u = s ∧ rs = e) →
      let slice := fieldLE b 0 2
      (s.live i 0x83 = some x → slice < 4096 → fieldLE b 8 8 % 64 = 0 → zeroAt b 4 4 = true → zeroAt b 0x14 12 = true →
        (slice = 0 ∨ u.slcState slice ≠ 3 ∨ u.bitF .SLC_STATE_FREEZE_DONE slice = false →
          exec (.saveIngot i e) s = .next (u.finishItem i 7 8 none 0)) ∧
        (slice ≠ 0 → u.slcState slice = 3 → u.bitF .SLC_STATE_FREEZE_DONE slice = true →
          (u.pairingWith (fieldLE b 2 2) = none → exec (.saveIngot i e) s = .next (u.finishItem i 7 5 none 0)) ∧
          (∀ p, u.pairingWith (fieldLE b 2 2) = some p → exec (.saveIngot i e) s =
            .next ((u.tdiEvent slice).writeIngot i slice (fieldLE b 2 2) (fieldLE b 8 8) (fieldLE b 0x10 4) p)))) ∧
      (s.live i 0x84 = some x →
        (4096 ≤ slice ∨ fieldLE b 0x10 4 < 624 → exec (.restoreIngot i e chk) s = .next (u.finishItem i 7 5 none 0)) ∧
        (∀ g q rs2 rs3 (v w : State) p, 0 < slice → slice < 4096 → zeroAt b 2 6 = true → zeroAt b 0x14 4 = true → 624 ≤ fieldLE b 0x10 4 →
          fieldLE b 0x10 4 ≤ 0x1000000 → u.readGuest 0 ⟨0, none, false⟩ (fieldLE b 8 8) (fieldLE b 0x10 4) rs = (.bytes g, rs2, v) →
          v.readGuest 0 ⟨0, none, false⟩ (fieldLE b 0x18 8) 128 rs2 = (.bytes q, rs3, w) → w.pairingWith (fieldLE g 0x0C 2) = some p →
          let c := parseIngot g p (fun slot => fieldLE q (2 * slot) 2)
          (w.ingotOk g = false ∨ chk.sigOk = false ∨ chk.leaf ≠ p.leaf →
            ∃ y : State, exec (.restoreIngot i e chk) s = .next (y.finishItem i 7 5 none 0) ∧ y.getF .SEC_ERR_LAST 0 = 5 ∧ y.work = w.work ∧
              y.mem = w.mem) ∧
          (w.ingotOk g = true → chk.sigOk = true → chk.leaf = p.leaf →
            (w.targetOk slice c = false → exec (.restoreIngot i e chk) s = .next (w.finishItem i 7 8 none 0)) ∧
            (w.targetOk slice c = true →
              (w.placeRecords slice c.seqs = none → exec (.restoreIngot i e chk) s = .next (w.finishItem i 1 6 none 0)) ∧
              (∀ room seqs done, w.placeRecords slice c.seqs = some room → w.copySeqs c.seqs rs3 = .ok seqs →
                room.fillRecords i slice seqs = .ok done →
                let y := (done.each c.queues (fun s r => s.restoreQueue slice r)).restoreMeter slice c.rec_
                exec (.restoreIngot i e chk) s =
                  .next (((y.setSlc slice 3).setF .SLC_STATE_FREEZE_DONE slice 1).finishItem i 0 0 none (BitVec.ofNat 64 seqs.length)))))))) ∧
    (s.bitF .SLC_DLOG_CTRL_EN 0 = true → exec .dirtyLogEnable s = .next s) ∧
    (s.bitF .SLC_DLOG_CTRL_EN 0 = false → exec .dirtyLogEnable s =
      .next ((({ s with slices := { s.slices with farLog := [] } }.setF .SLC_DLOG_CTRL_EN 0 1).setF .SLC_DLOG_CTRL_BUSY 0 1).downgradeAll
        (s.getF .SLC_DLOG_LO 0 * 4096) (s.getF .SLC_DLOG_PAGES 0 * 4096) (s.sliceKey (s.getF .SLC_DLOG_CTRL_SLICE 0)))) ∧
    (s.bitF .SLC_DLOG_CTRL_BUSY 0 = true → (∀ k ∈ s.coh.txns, k.2.kind ≠ .snpShr) →
      exec .dirtyLogWalkDone s = .next (s.setF .SLC_DLOG_CTRL_BUSY 0 0)) ∧
    (s.bitF .SLC_DLOG_CTRL_BUSY 0 = false → exec .dirtyLogWalkDone s = .next s) ∧
    (s.bitF .SLC_XFER_CTRL_BUSY 0 = true → exec .pageMoverGo s = .next s) ∧
    (s.bitF .SLC_XFER_CTRL_BUSY 0 = false → ∃ t, exec .pageMoverGo s = .next t ∧ t.bitF .SLC_XFER_CTRL_BUSY 0 = true ∧
      t.getF .SLC_XFER_DONE_PAGES 0 = 0 ∧ t.bitF .SLC_XFER_CTRL_ERR 0 = false ∧ t.mem = s.mem ∧ t.work = s.work) ∧
    (∀ a d, let n := s.getF .SLC_XFER_LEN_PAGES 0
      (s.bitF .SLC_XFER_CTRL_BUSY 0 = false → exec (.pageMoverDone a) s = .next s) ∧
      (s.bitF .SLC_XFER_CTRL_BUSY 0 = true →
        (s.moverNeeds n ≠ [] ∨ s.moverHolds n ≠ [] →
          exec (.pageMoverDone (.ok d)) s = .next ((s.moverAsk (s.moverNeeds n)).askLines .wrFull 0 0 0 (s.moverHolds n))) ∧
        ((∀ k, k ≤ n → s.moverNeeds k = [] ∧ s.moverHolds k = []) → ∃ t, exec (.pageMoverDone a) s = .next t ∧
          t.bitF .SLC_XFER_CTRL_BUSY 0 = false ∧ t.bitF .SLC_XFER_CTRL_GO 0 = false ∧
          ((∀ d, a ≠ .ok d) → t.bitF .SLC_XFER_CTRL_ERR 0 = true) ∧
          (a = .ok d → t.bitF .SLC_XFER_CTRL_ERR 0 = !(s.moverRun n 0).1))))

/-! ### Hallmark (chapter 15) -/

/-- SPDM (R363, R365–R372, R380, Table 16-7) completes: through a port that is down nothing arrives; during a warm reset every request is answered
ERROR Busy; GET_VERSION, GET_CAPABILITIES and NEGOTIATE_ALGORITHMS in this order negotiate a connection, whose transcript takes each request and
response, and other requests before that are answered ERROR; digests, portions of the chain, challenges and measurements are signed over the
transcript; sessions stay within their limits, end with END_SESSION or a missing HEARTBEAT, and are started by the manager with GET_VERSION; a large
message goes in chunks. Through a host port a message of at most 4,096 bytes goes out whole. -/
def Obligations.SpdmRequests : Prop :=
  ∀ (s u v : State) (p : SpdmPort) (n k : Nat) (x : SpdmSession) (chk : CryptoCheck) (nonce req own : List Byte) (last : Bool) (o : AlgOffer)
    (c : CertPos),
    let all : List Instr := [.getVersion p, .getCapabilities p, .negotiateAlgorithms p o, .getDigests p, .getCertificate p c k,
      .challenge p nonce, .getMeasurements p nonce, .keyExchange p chk n, .finish p n chk, .keyUpdate p n, .heartbeat p n, .endSession p n,
      .chunkSend p n last nonce, .chunkGet p n, .spdmUnsupported p n]
    (∀ d msg, msg.length ≤ 4096 → s.spdmAnswer (.host d) none msg = s.emit (.spdm d 1 msg)) ∧
    (s.spdmUp p = false → ∀ i ∈ all, exec i s = .next s) ∧
    (s.spdmUp p = true → s.spdmBusy = true → ∀ i ∈ all, exec i s = .next (s.spdmError p 3)) ∧
    (s.spdmUp p = true → s.spdmBusy = false →
      (s.takeRequest p 0x84 0 0 [] 0 = (req, u) → exec (.getVersion p) s =
        .next ((u.setConn p ⟨.version, (u.conn p).txn, [], req ++ spdmBytes 0x04 0 0 [0, 1, 0, 0x13], []⟩).spdmAnswer p none
          (spdmBytes 0x04 0 0 [0, 1, 0, 0x13]))) ∧
      (s.spdmPhase p = .version → s.takeRequest p 0xE1 0 0 [] 16 = (req, u) →
        exec (.getCapabilities p) s = .next (u.negotiate p .capabilities req (spdmBytes 0x61 0 0 capabilities))) ∧
      (s.spdmPhase p = .capabilities →
        (algsOffered o = false → exec (.negotiateAlgorithms p o) s = .next (s.spdmError p 1)) ∧
        (algsOffered o = true → ∃ (req : List Byte) (v : State), exec (.negotiateAlgorithms p o) s = .next (v.negotiate p .negotiated req (spdmBytes 0x63 4 0 algorithms)))) ∧
      (s.spdmPhase p ≠ .version → exec (.getCapabilities p) s = .next (s.spdmError p 4)) ∧
      (s.spdmPhase p ≠ .capabilities → exec (.negotiateAlgorithms p o) s = .next (s.spdmError p 4)) ∧
      (s.spdmPhase p ≠ .negotiated → ∀ i ∈ ([.getDigests p, .getCertificate p c k, .challenge p nonce, .getMeasurements p nonce,
        .keyExchange p chk n, .chunkSend p n last nonce, .chunkGet p n] : List Instr), exec i s = .next (s.spdmError p 4)) ∧
      (s.spdmPhase p = .negotiated →
        (s.takeRequest p 0x81 0 0 [] 0 = (req, u) →
          exec (.getDigests p) s = .next (u.certified p req (spdmBytes 0x01 0 1 (Config.sha384 u.certBytes)))) ∧
        (c.slot ≠ 0 → exec (.getCertificate p c k) s = .next (s.spdmError p 1)) ∧
        (c.slot = 0 → s.takeRequest p 0x82 0 0 (bytesLE 2 c.offset ++ bytesLE 2 k) 0 = (req, u) →
          exec (.getCertificate p c k) s = .next (u.certified p req (u.portion c.offset k))) ∧
        (s.takeRequest p 0x83 0 0 (fit 32 nonce) 8 = (req, u) → u.draw.freeBytes 32 = (own, v) →
          let resp := spdmBytes 0x03 0 1 (Config.sha384 v.certBytes ++ own ++ [0, 0] ++ (req.drop 36).take 8)
          exec (.challenge p nonce) s = .next ((v.setConn p { v.conn p with certs := [] }).spdmAnswer p none
            (resp ++ signature ((v.conn p).vca ++ (v.conn p).certs ++ req ++ resp)))) ∧
        (s.takeRequest p 0xE0 1 0xFF (fit 32 nonce ++ [0]) 8 = (req, u) →
          let resp := u.hallmark nonce ((req.drop 37).take 8)
          exec (.getMeasurements p nonce) s = .next (u.spdmAnswer p none (resp ++ signature ((u.conn p).vca ++ req ++ resp)))) ∧
        (∀ d, p = .host d → (s.sessionsFull p = true → exec (.keyExchange p chk n) s = .next ((s.secErr 3).spdmError p 0x0A)) ∧
          (s.sessionsFull p = false → ∃ t, exec (.keyExchange p chk n) s = .next t ∧
            t.sec.sessions.find s.newSession = some ⟨p, false, false, s.now, 0, s.draw.slices.drbg, n⟩ ∧ t.mem = s.mem)) ∧
        (∀ d, p = .peer d → s.sessionsFull p = false → chk.root ≠ s.anchor →
          exec (.keyExchange p chk n) s = .next ((s.secErr 1).spdmError p 1)) ∧
        (∀ c, s.sec.sends.find? (fun c => c.1 == p) = some c → c.2.next ≠ 1 → exec (.chunkSend p 1 last nonce) s =
          .next ({ s with sec := { s.sec with sends := s.sec.sends.filter (fun c => c.1 != p) } }.spdmError p 1)) ∧
        (nonce.length ≤ 4096 → ∃ v : State, exec (.chunkSend p 0 last nonce) s = .next (v.spdmReply p 0x05 0 0 (bytesLE 2 0 ++ [0, 0])) ∧
          v.regs = s.regs ∧ v.mem = s.mem ∧ (last = true → (v.conn p).heard = nonce) ∧
          (last = false → v.sec.sends.find? (fun c => c.1 == p) = some (p, ⟨0, 1, nonce⟩))) ∧
        (s.sec.chunks.find? (fun c => c.1 == p) = none → exec (.chunkGet p n) s = .next (s.spdmError p 4)) ∧
        (∀ c, s.sec.chunks.find? (fun c => c.1 == p) = some c → (n + 1) * chunkBytes < c.2.length →
          exec (.chunkGet p n) s = .next (s.spdmAnswer p none (chunkResponse c.2 n)))) ∧
      exec (.spdmUnsupported p n) s = .next (s.spdmReply p 0x7F 7 n []) ∧
      (s.sec.sessions.find n = none → ∀ i ∈ ([.finish p n chk, .keyUpdate p n, .heartbeat p n, .endSession p n] : List Instr),
        exec i s = .next (s.spdmError p 4)) ∧
      (∀ d, p = .host d → s.sec.sessions.find n = some x → x.port = p →
        (x.established = false → chk.sigOk = true → ∃ t y, exec (.finish p n chk) s = .next t ∧ t.sec.sessions.find n = some y ∧
          y.established = true ∧ y.lastBeat = s.now ∧ y.port = p) ∧
        (x.established = true →
          (∃ t, exec (.keyUpdate p n) s = .next t ∧ t.sec.sessions.find n = some { x with keyGen := x.keyGen + 1 }) ∧
          (∃ t, exec (.heartbeat p n) s = .next t ∧ t.sec.sessions.find n = some { x with lastBeat := s.now }) ∧
          (∃ t, exec (.endSession p n) s = .next t ∧ t.sec.sessions = s.sec.sessions.del n)))) ∧
    (s.sec.sessions.find n = none → exec (.heartbeatLapse n) s = .next s) ∧
    (s.sec.sessions.find n = some x → (x.established = false ∨ s.now < x.lastBeat + 120000000000) → exec (.heartbeatLapse n) s = .next s) ∧
    (∀ d, s.sec.sessions.find n = some x → x.port = .host d → x.established = true → x.lastBeat + 120000000000 ≤ s.now →
      ∃ t, exec (.heartbeatLapse n) s = .next t ∧ t.sec.sessions = s.sec.sessions.del n) ∧
    (s.bitF .SEC_LINK_CTRL_BUSY 0 = true → exec .linkSessionStart s = .next s) ∧
    (let l := s.getF .SEC_LINK_CTRL_PORT 0
     s.bitF .SEC_LINK_CTRL_BUSY 0 = false → s.portLive l = true → s.setups l false = [] →
      let v := (s.setF .SEC_LINK_CTRL_BUSY 0 1).openSession (.link l) true (s.getF .FIL_PORT_STAT_PARTNER l)
      exec .linkSessionStart s = .next ({ v with sec := { v.sec with linkSetup := some l } }.askVersion (.link l))) ∧
    (let node := s.getF .SEC_MIG_CTRL_NODE n
     n < 4 → s.coreOn = true → s.getF .SEC_MIG_CTRL_STATE n ≠ 1 → s.sec.pairings.find n = none → s.sessionsFull (.peer node) = false →
      ∃ v : State, exec (.migrationPairingStart n) s = .next (v.askVersion (.peer node)) ∧ v.sec.pairings.find n = some ⟨node, 0, s.now, []⟩ ∧
        (s.regs.rising = true → v.getF .SEC_MIG_CTRL_STATE n = 1) ∧ v.mem = s.mem ∧ v.work = s.work) ∧
    (4 ≤ n ∨ s.getF .SEC_MIG_CTRL_STATE n = 1 → exec (.migrationPairingStart n) s = .next s) ∧
    exec .secCfgLock s = .next (s.setF .SEC_CFG_LOCK 0 1)

/-- IDE and TDISP (R373, R374): an IDE_KM message needs a secure session at its port; KEY_PROG programs a key set, K_SET_GO starts one that is
programmed, K_SET_STOP ends it; a TDISP message for a function that is no TDI is answered with an error; LOCK takes a TDI from CONFIG_UNLOCKED
while its slice is BUILDING or LIVE and records ROOT and the leaves, START from CONFIG_LOCKED to RUN, STOP to CONFIG_UNLOCKED. -/
def Obligations.IdeAndTdisp : Prop :=
  ∀ (s : State) (d vf n ks slice : Nat), s.spdmUp (.host d) = true → s.spdmBusy = false → s.sec.tdis.rising = true →
    (¬ (∃ kv ∈ s.sessionsOn (.host d), kv.2.established = true) → ∀ i ∈ ([.ideKmQuery d, .ideKmKeyProg d n ks, .ideKmKSetGo d n ks,
      .ideKmKSetStop d n ks] : List Instr), exec i s = .next (s.spdmError (.host d) 4)) ∧
    ((∃ kv ∈ s.sessionsOn (.host d), kv.2.established = true) →
      let st (u : State) := u.sec.ide.findD (ideKey d n) ⟨false, false, none⟩
      exec (.ideKmQuery d) s = .next (s.emit (.ideKm d 1 31)) ∧
      (n < 32 → ks < 2 → ∃ t, exec (.ideKmKeyProg d n ks) s = .next t ∧
        st t = (if ks = 0 then { st s with prog0 := true } else { st s with prog1 := true }) ∧ t.regs = s.regs) ∧
      (32 ≤ n ∨ 2 ≤ ks → exec (.ideKmKeyProg d n ks) s = .next (s.emit (.ideKm d 3 3))) ∧
      (n < 32 → ks < 2 → (if ks = 0 then (st s).prog0 else (st s).prog1) = true →
        ∃ t, exec (.ideKmKSetGo d n ks) s = .next t ∧ st t = { st s with active := some ks }) ∧
      ((if ks = 0 then (st s).prog0 else (st s).prog1) = false → exec (.ideKmKSetGo d n ks) s = .next (s.emit (.ideKm d 6 0))) ∧
      ((st s).active = some ks → ∃ t, exec (.ideKmKSetStop d n ks) s = .next t ∧ st t = { st s with active := none })) ∧
    (s.sliceOfVf d vf = none → (s.tdi d vf).state ≠ .error → ∀ i ∈ ([.getTdispVersion d vf, .getTdispCapabilities d vf, .lockInterfaceRequest d vf,
      .getDeviceInterfaceReport d vf, .getDeviceInterfaceState d vf, .startInterfaceRequest d vf, .stopInterfaceRequest d vf] : List Instr),
      exec i s = .next (s.emit (.tdisp d vf 0x7F 0x101 0))) ∧
    (s.sliceOfVf d vf = some slice →
      exec (.getTdispVersion d vf) s = .next (s.emit (.tdisp d vf 0x01 0 0x10)) ∧
      exec (.getTdispCapabilities d vf) s = .next (s.emit (.tdisp d vf 0x02 0 0)) ∧
      exec (.getDeviceInterfaceState d vf) s = .next (s.emit (.tdisp d vf 0x05 0 (s.tdi d vf).state.code)) ∧
      ((s.tdi d vf).state = .unlocked → s.slcState slice = 1 ∨ s.slcState slice = 2 → ∃ t, exec (.lockInterfaceRequest d vf) s = .next t ∧
        t.tdi d vf = ⟨.locked, s.getF .MEM_XCTX_ROOT_ROOT slice * 4096, (s.sliceLeaves slice).map (fun e => e.1)⟩ ∧
        t.out = s.out ++ [.tdisp d vf 0x03 0 0] ∧ t.regs = s.regs) ∧
      ((s.tdi d vf).state ≠ .unlocked → exec (.lockInterfaceRequest d vf) s = .next (s.emit (.tdisp d vf 0x7F 4 0))) ∧
      ((s.tdi d vf).state = .locked → ∃ t, exec (.startInterfaceRequest d vf) s = .next t ∧ (t.tdi d vf).state = .run ∧
        (t.tdi d vf).root = (s.tdi d vf).root ∧ (t.tdi d vf).leaves = (s.tdi d vf).leaves) ∧
      ((s.tdi d vf).state ≠ .locked → exec (.startInterfaceRequest d vf) s = .next (s.emit (.tdisp d vf 0x7F 4 0))) ∧
      ((s.tdi d vf).state = .locked ∨ (s.tdi d vf).state = .run →
        exec (.getDeviceInterfaceReport d vf) s = .next (s.emit (.tdisp d vf 0x04 0 (s.tdiReport slice (s.tdi d vf))))) ∧
      (∃ t, exec (.stopInterfaceRequest d vf) s = .next t ∧ (t.tdi d vf).state = .unlocked ∧ t.out = s.out ++ [.tdisp d vf 0x07 0 0]))

/-! ### Resets of units and sections (chapter 16) -/

/-- Unit and section resets (R384, R386–R388, R391, R392, R399): a unit that is out of service or in reset takes none; a reset starts now and is
counted; a unit whose check passed returns to service, one that failed it, or whose reset passes 2 ms, is out of service; a section reset
absorbs those of its units, and past 400 ms it becomes a warm reset of cause 4. READMIT acts only in FENCED and READY. A dump unit that does
not answer in 10 µs is skipped, and a dump of 6 ms stops. -/
def Obligations.UnitResets : Prop :=
  ∀ (s : State) (u k : Nat) (chk : TestResult), s.regs.rising = true →
    (∀ p ∈ [(Instr.teReset u, u, 56), (.cueReset u, u + 56, 64), (.moveReset u, u + 120, 32), (.sectionReset u, u + 152, 8)],
      (p.2.2 ≤ u ∨ s.canReset p.2.1 = false → exec p.1 s = .next s) ∧
      (u < p.2.2 → s.canReset p.2.1 = true → ∃ t r, exec p.1 s = .next t ∧ t.recov.resets.find p.2.1 = some r ∧ r.startAt = s.now ∧
        t.getF .FLT_RST_TOTAL p.2.1 = min (s.getF .FLT_RST_TOTAL p.2.1 + 1) (2 ^ Fld.width .FLT_RST_TOTAL - 1))) ∧
    (k < 8 → s.canReset (k + 152) = true → ∃ t, exec (.sectionReset k) s = .next t ∧ ∀ v ∈ unitsOfSec k, t.recov.resets.find v = none) ∧
    (s.recov.resets.find u = none → exec (.unitResetDone u chk) s = .next s ∧ exec (.unitResetTimeout u) s = .next s) ∧
    (∀ r, u < 152 → s.recov.resets.find u = some r →
      (chk.failed = 0 → r.leaving = false → ∃ t, exec (.unitResetDone u chk) s = .next t ∧ t.recov.resets = s.recov.resets.del u ∧
        t.getF .TCH_UNIT_LAST_TESTS u = 2 ^ (kindTest u - 1) ∧ t.getF .TCH_UNIT_LAST_FAILED u = 0 ∧ t.work = s.work ∧ t.mem = s.mem) ∧
      (chk.failed ≠ 0 ∨ r.leaving = true → ∃ t, exec (.unitResetDone u chk) s = .next t ∧ t.unitOos u = true) ∧
      (s.now < r.startAt + 2000000 → exec (.unitResetTimeout u) s = .next s) ∧
      (r.startAt + 2000000 ≤ s.now → ∃ t, exec (.unitResetTimeout u) s = .next t ∧ t.unitOos u = true)) ∧
    (∀ r, k < 8 → s.recov.resets.find (k + 152) = some r →
      (r.leaving = false → exec (.sectionResetDone k) s =
        .next ({ s with recov := { s.recov with resets := s.recov.resets.del (k + 152) } }.rejoinOf (.gateway k))) ∧
      (r.leaving = true → ∃ t, exec (.sectionResetDone k) s = .next t ∧ t.secOos k = true) ∧
      (s.now < r.startAt + 400000000 → exec (.sectionResetTimeout k) s = .next s) ∧
      (r.startAt + 400000000 ≤ s.now → r.leaving = false → exec (.sectionResetTimeout k) s = .next (s.warmTrigger 4 k))) ∧
    (s.blkState = 5 → s.bitF .BLK_STATE_READY 0 = true → ∃ t, exec .blkCtrlReadmit s = .next t ∧ t.bitF .BLK_STATE_READY 0 = false ∧
      t.recov.warmTimes = [] ∧ t.stage 6 = some ⟨true, s.now, 0, none⟩) ∧
    (s.blkState ≠ 5 ∨ s.bitF .BLK_STATE_READY 0 = false → exec .blkCtrlReadmit s = .next s) ∧
    (s.recov.dump = none → exec .dumpUnitTimeout s = .next s ∧ exec .dumpTimeout s = .next s) ∧
    (∀ d, s.recov.dump = some d →
      (s.now < d.unitAt + 10000 → exec .dumpUnitTimeout s = .next s) ∧
      (d.unitAt + 10000 ≤ s.now → d.unit < 169 → ∃ t, exec .dumpUnitTimeout s = .next t ∧ t.out = s.out ++ [.dumpUnit d.unit 1] ∧
        t.recov.dump = some { d with unit := d.unit + 1, unitAt := s.now } ∧
        t.getF .FLT_DUMP_CTRL_TIMEOUTS 0 = min (s.getF .FLT_DUMP_CTRL_TIMEOUTS 0 + 1) (2 ^ Fld.width .FLT_DUMP_CTRL_TIMEOUTS - 1)) ∧
      (s.now < d.startAt + 6000000 → exec .dumpTimeout s = .next s) ∧
      (d.startAt + 6000000 ≤ s.now → exec .dumpTimeout s = .next (s.endDump 2)))

/-! ### Start-up and Touchstone (chapter 17) -/

/-- Start stages and the image (R402–R405): a stage begins once those before it have completed, completes when its condition is met, and when it
fails is recorded with its code and tried again after 10 ms × 2^(n − 1), at most 10 s. An image that fails a check fails the stage with the
check's code; a good one is VALID with its version. -/
def Obligations.StartStages : Prop :=
  ∀ (s : State) (n code : Nat) (w : Word) (img : List Byte) (sig : Bool), s.regs.rising = true →
    (s.stagesOn = true → 1 ≤ n → n ≤ 7 → s.stageDone n = false → s.stage n = none → s.stageLeftOut n = false →
      ((∀ m ∈ stageAfter n, s.stageDone m = true) → ∃ t x, exec (.startStageBegin n) s = .next t ∧ t.stage n = some x ∧ x.running = true ∧
        x.begunAt = s.now) ∧
      ((∃ m ∈ stageAfter n, s.stageDone m = false) → exec (.startStageBegin n) s = .next s)) ∧
    (s.stagesOn = true → 1 ≤ n → n ≤ 6 → s.stageRuns n = true →
      (s.stageMet n = true → ∃ t, exec (.startStageComplete n) s = .next t ∧ t.bitOf .BLK_STAGE_DONE 0 (n - 1) = true) ∧
      (s.stageMet n = false → exec (.startStageComplete n) s = .next s)) ∧
    (s.stageRuns n = false → n ≠ 7 → exec (.startStageComplete n) s = .next s) ∧
    (s.stagesOn = true → s.stageRuns n = true → (n = 3 ∧ code = 2 ∧ s.stacksAll (· == 4) = true) ∨ (n = 5 ∧ code = 7) →
      ∃ t x y, exec (.startStageFail n code) s = .next t ∧ s.stage n = some x ∧ t.stage n = some y ∧ y.running = false ∧ y.fails = x.fails + 1 ∧
        y.retryAt = some (s.now + min 10000000000 (10000000 * 2 ^ min 20 x.fails)) ∧ t.getF .BLK_STAGE_FAIL_STAGE 0 = n ∧
        t.getF .BLK_STAGE_FAIL_CODE 0 = code) ∧
    (s.stageRuns n = false → exec (.startStageFail n code) s = .next s) ∧
    (∀ x a, s.stage n = some x → x.retryAt = some a → s.stagesOn = true → s.stageDone n = false →
      (s.now < a → exec (.startStageRetry n) s = .next s) ∧
      (a ≤ s.now → ∃ t y, exec (.startStageRetry n) s = .next t ∧ t.stage n = some y ∧ y.running = true ∧ y.begunAt = s.now ∧
        y.retryAt = none ∧ y.fails = x.fails)) ∧
    (s.stagesOn = true → s.stageRuns 4 = true →
      (s.bitF .BLK_IMG_CTRL_BUSY 0 = false → ∃ t, exec .imageGo s = .next t ∧ t.bitF .BLK_IMG_CTRL_BUSY 0 = true ∧ t.recov.goHeld = false) ∧
      (s.bitF .BLK_IMG_CTRL_BUSY 0 = true → exec .imageGo s = .next { s with recov := { s.recov with goHeld := true } })) ∧
    (s.stageRuns 4 = false → exec .imageGo s = .next { s with recov := { s.recov with goHeld := true } }) ∧
    exec (.imageDataPush w) s = .next { s with recov := { s.recov with pushed := s.recov.pushed ++ bytesLE 8 w.toNat } } ∧
    (s.stagesOn = true → s.stageRuns 4 = true → s.bitF .BLK_IMG_CTRL_BUSY 0 = true → s.imageFetches = true →
      (exec (.imageFetchComplete .expired sig) s = .next (s.failStage 4 6)) ∧
      (let b := img.take (s.getF .BLK_IMG_CTRL_LEN 0)
       (imageCheck b sig ≠ 0 → ∃ t, exec (.imageFetchComplete (.ok img) sig) s = .next t ∧ t.getF .BLK_STAGE_FAIL_STAGE 0 = 4 ∧
          t.getF .BLK_STAGE_FAIL_CODE 0 = imageCheck b sig ∧ t.bitF .BLK_IMG_CTRL_BUSY 0 = false ∧ t.mem = s.mem) ∧
       (imageCheck b sig = 0 → ∃ t, exec (.imageFetchComplete (.ok img) sig) s = .next t ∧ t.bitF .BLK_IMG_CTRL_VALID 0 = true ∧
          t.getF .BLK_STEWARD_VERSION 0 = fieldLE b 8 4 ∧ t.bitOf .BLK_STAGE_DONE 0 3 = true ∧ t.sec.measure2 = Config.sha384 b))) ∧
    (s.bitF .BLK_IMG_CTRL_BUSY 0 = false → ∀ e, exec (.imageFetchComplete e sig) s = .next s)

/-- Touchstone (R409–R411): operands that break a check complete ST_BAD_DESC, ARG, and tests 5 and 6 outside FENCED STATE; else the item waits;
it borrows its unit at the first moment that this is idle; the end of its last test completes it with the result; DEADLINE before the borrow
completes it ST_DEFERRED. -/
def Obligations.TouchstoneItems : Prop :=
  ∀ (s : State) (i u : Nat) (x : Item) (y : Touch) (chk : TestResult), s.live i 0xB0 = some x →
    (s.work.touches.find i = none →
      (touchArgBad x.inl = true → exec (.touchstone i) s = .next (s.finishItem i 7 5 none 0)) ∧
      (touchArgBad x.inl = false → bits x.inl 4 2 ≠ 0 → s.blkState ≠ 5 → exec (.touchstone i) s = .next (s.finishItem i 7 8 none 0)) ∧
      (touchArgBad x.inl = false → bits x.inl 4 2 = 0 ∨ s.blkState = 5 → ∃ t z, exec (.touchstone i) s = .next t ∧ t.work.touches.find i = some z ∧
        z.tests = bits x.inl 0 8 ∧ z.borrowed = none ∧ z.passed = 0 ∧ z.failed = 0 ∧ t.regs = s.regs) ∧
      exec (.touchstoneBorrow i u) s = .next s ∧ exec (.touchstoneDeadline i) s = .next s) ∧
    (s.work.touches.find i = some y →
      exec (.touchstone i) s = .next s ∧
      (u ≤ 160 → s.borrows y u = true → exec (.touchstoneBorrow i u) s =
        .next { s with work := { s.work with touches := s.work.touches.put i { y with borrowed := some u } } }) ∧
      (s.borrows y u = false → exec (.touchstoneBorrow i u) s = .next s) ∧
      (u < 160 → y.borrowed = some u → chk.failed = 0 → ({ y with passed := y.passed ||| 2 ^ (kindTest u - 1) } : Touch).left = 0 →
        ∃ v : State, exec (.touchstoneTestDone i u chk) s = .next (v.finishItem i 0 0 none
            (BitVec.ofNat 64 (u + (y.passed ||| 2 ^ (kindTest u - 1)) * 2 ^ 16 + y.failed * 2 ^ 24))) ∧
          v.getF .TCH_UNIT_LAST_TESTS u = 2 ^ (kindTest u - 1)) ∧
      (u < 160 → y.borrowed ≠ some u → exec (.touchstoneTestDone i u chk) s = .next s) ∧
      (s.now < y.deadlineAt → exec (.touchstoneDeadline i) s = .next s) ∧
      (y.borrowed = none → y.left ≠ 0 → y.deadlineAt ≤ s.now →
        exec (.touchstoneDeadline i) s = .next ((s.bumpF .TCH_COUNT_DEFERRED 0).finishItem i 13 0 none 0)))

/-! ### The management space (chapter 18) -/

/-- Register writes (R414–R418, R421): from PF0 of a host port that is the manager's path, a 4-byte write of a 32-bit register writes it
whole; the low half of a 64-bit register is held, and the high half at its offset completes it, or acts alone with the low half kept; an offset
that no table lists is ignored and counted; a refused access changes no register but that source's held half; an access to an alloy's secondary
goes to it; in cold reset no path is open. -/
def Obligations.RegisterWrites : Prop :=
  ∀ (s : State) (d off : Nat) (v : Word) (w : W32), off < 2 ^ 31 →
    let p := Path.hostPf d
    let u := { s with edge := { s.edge with splitW := s.edge.splitW.del (pathKey p) } }
    (s.edge.pins.porstN = false ∨ s.edge.pins.edgePwrOk = false →
      exec (.registerWrite p off 4 v) s = .next s ∧ exec (.splitWriteHigh p off w) s = .next s) ∧
    (s.edge.pins.porstN = true → s.edge.pins.edgePwrOk = true →
      (∀ k, u.refusal p off 4 true = some k → exec (.registerWrite p off 4 v) s = .next (u.refusePath p k) ∧
        exec (.splitWriteHigh p off w) s = .next (u.refusePath p k)) ∧
      (u.refusal p off 4 true = none → u.refusal p off 8 true = none →
        (off % 4 ≠ 0 → exec (.registerWrite p off 4 v) s = .next (u.countAccess off)) ∧
        (off % 4 = 0 → u.toSecondary off = true → exec (.registerWrite p off 4 v) s = .next (u.emit (.secondWrite off 4 (v.toNat % 2 ^ 32)))) ∧
        (off % 4 = 0 → u.toSecondary off = false → mbxWindow off = false → logWindow off = false →
          (regAt off = none → exec (.registerWrite p off 4 v) s = .next (u.countAccess off)) ∧
          (∀ r i b, regAt off = some (r, i, b) →
            (r.bits ≠ 64 → exec (.registerWrite p off 4 v) s = .next (u.writeReg r i (v.toNat % 2 ^ 32))) ∧
            (r.bits = 64 → b = 0 → exec (.registerWrite p off 4 v) s =
              .next { u with edge := { u.edge with splitW := u.edge.splitW.put (pathKey p) ⟨off, v.toNat % 2 ^ 32⟩ } }) ∧
            (r.bits = 64 → b = 0 → off % 8 = 0 → exec (.registerWrite p off 8 v) s = .next (u.writeReg r i v.toNat)) ∧
            (r.bits = 64 → b ≠ 0 →
              (s.edge.splitW.find (pathKey p) = none → exec (.splitWriteHigh p off w) s =
                .next (u.writeReg r i (u.lowKept r i + w.toNat * 2 ^ 32))) ∧
              (∀ h, s.edge.splitW.find (pathKey p) = some h →
                (h.offset + 4 = off → exec (.splitWriteHigh p off w) s = .next (u.writeReg r i (h.value + w.toNat * 2 ^ 32))) ∧
                (h.offset + 4 ≠ off → exec (.splitWriteHigh p off w) s =
                  .next (u.writeReg r i (u.lowKept r i + w.toNat * 2 ^ 32)))))))))
end

