-- ==== Sys2Proof/Laws/Table.lean ====
section
/-!
SUPPORT. Laws of the keyed tables: what a look-up gives after a change, and that every change keeps the keys rising.
-/

namespace Sys2Proof

variable {α : Type}

theorem Tbl.find_put_same (t : Tbl α) (n : Nat) (v : α) : (t.put n v).find n = some v := by
  induction t with
  | nil => simp [Tbl.put, Tbl.find]
  | cons a t ih =>
    obtain ⟨k, w⟩ := a
    unfold Tbl.put
    split
    · simp [Tbl.find]
    · split
      · simp [Tbl.find]
      · rename_i h
        simp [Tbl.find, h, ih]

theorem Tbl.find_put_ne (t : Tbl α) (n m : Nat) (v : α) (h : m ≠ n) : (t.put n v).find m = t.find m := by
  induction t with
  | nil => simp [Tbl.put, Tbl.find, h]
  | cons a t ih =>
    obtain ⟨k, w⟩ := a
    unfold Tbl.put
    split
    · simp [Tbl.find, h]
    · split
      · rename_i hk
        subst hk
        simp [Tbl.find, h]
      · simp [Tbl.find, ih]

theorem Tbl.find_put (t : Tbl α) (n m : Nat) (v : α) : (t.put n v).find m = if m = n then some v else t.find m := by
  by_cases h : m = n
  · subst h; simp [Tbl.find_put_same]
  · simp [h, Tbl.find_put_ne]

theorem Tbl.findD_put (t : Tbl α) (n m : Nat) (v d : α) : (t.put n v).findD m d = if m = n then v else t.findD m d := by
  unfold Tbl.findD
  rw [Tbl.find_put]
  split <;> rfl

theorem Tbl.find_del_ne (t : Tbl α) (n m : Nat) (h : m ≠ n) : (t.del n).find m = t.find m := by
  induction t with
  | nil => rfl
  | cons a t ih =>
    obtain ⟨k, w⟩ := a
    unfold Tbl.del
    split
    · rename_i hk
      subst hk
      simp [Tbl.find, h]
    · simp [Tbl.find, ih]

/-- A key below every key of a table is not held. -/
theorem Tbl.find_below {b n : Nat} : ∀ {t : Tbl α}, Tbl.risingFrom b t = true → n < b → t.find n = none
  | [], _, _ => rfl
  | (k, v) :: t, h, hn => by
    simp only [Tbl.risingFrom, Bool.and_eq_true, decide_eq_true_eq] at h
    have hk : ¬ n = k := by omega
    simp only [Tbl.find, hk, if_false]
    exact Tbl.find_below h.2 (by omega)

theorem Tbl.find_del_same_from {b n : Nat} : ∀ {t : Tbl α}, Tbl.risingFrom b t = true → (t.del n).find n = none
  | [], _ => rfl
  | (k, v) :: t, h => by
    simp only [Tbl.risingFrom, Bool.and_eq_true, decide_eq_true_eq] at h
    unfold Tbl.del
    split
    · rename_i hk
      subst hk
      exact Tbl.find_below h.2 (by omega)
    · rename_i hk
      simp only [Tbl.find, hk, if_false]
      exact Tbl.find_del_same_from h.2

theorem Tbl.find_del_same {t : Tbl α} {n : Nat} (h : t.rising = true) : (t.del n).find n = none := Tbl.find_del_same_from h

theorem Tbl.risingFrom_mono {b c : Nat} (h : c ≤ b) : ∀ {t : Tbl α}, Tbl.risingFrom b t = true → Tbl.risingFrom c t = true
  | [], _ => rfl
  | (k, v) :: t, ht => by
    simp only [Tbl.risingFrom, Bool.and_eq_true, decide_eq_true_eq] at ht ⊢
    exact ⟨by omega, ht.2⟩

theorem Tbl.risingFrom_put {b n : Nat} {v : α} (hb : b ≤ n) : ∀ {t : Tbl α}, Tbl.risingFrom b t = true → Tbl.risingFrom b (t.put n v) = true
  | [], _ => by simp [Tbl.put, Tbl.risingFrom, hb]
  | (k, w) :: t, h => by
    simp only [Tbl.risingFrom, Bool.and_eq_true, decide_eq_true_eq] at h
    unfold Tbl.put
    split
    · simp only [Tbl.risingFrom, Bool.and_eq_true, decide_eq_true_eq]
      exact ⟨hb, by omega, h.2⟩
    · split
      · rename_i hk
        subst hk
        simp only [Tbl.risingFrom, Bool.and_eq_true, decide_eq_true_eq]
        exact ⟨hb, h.2⟩
      · simp only [Tbl.risingFrom, Bool.and_eq_true, decide_eq_true_eq]
        exact ⟨h.1, Tbl.risingFrom_put (by omega) h.2⟩

theorem Tbl.rising_put {t : Tbl α} (h : t.rising = true) (n : Nat) (v : α) : (t.put n v).rising = true :=
  Tbl.risingFrom_put (Nat.zero_le n) h

theorem Tbl.risingFrom_del {b n : Nat} : ∀ {t : Tbl α}, Tbl.risingFrom b t = true → Tbl.risingFrom b (t.del n) = true
  | [], _ => rfl
  | (k, w) :: t, h => by
    simp only [Tbl.risingFrom, Bool.and_eq_true, decide_eq_true_eq] at h
    unfold Tbl.del
    split
    · exact Tbl.risingFrom_mono (by omega) h.2
    · simp only [Tbl.risingFrom, Bool.and_eq_true, decide_eq_true_eq]
      exact ⟨h.1, Tbl.risingFrom_del h.2⟩

theorem Tbl.rising_del {t : Tbl α} (h : t.rising = true) (n : Nat) : (t.del n).rising = true := Tbl.risingFrom_del h

theorem Tbl.risingFrom_filter {b : Nat} (p : Nat × α → Bool) : ∀ {t : Tbl α}, Tbl.risingFrom b t = true → Tbl.risingFrom b (List.filter p t) = true
  | [], _ => rfl
  | (k, w) :: t, h => by
    simp only [Tbl.risingFrom, Bool.and_eq_true, decide_eq_true_eq] at h
    rw [List.filter_cons]
    split
    · simp only [Tbl.risingFrom, Bool.and_eq_true, decide_eq_true_eq]
      exact ⟨h.1, Tbl.risingFrom_filter p h.2⟩
    · exact Tbl.risingFrom_mono (by omega) (Tbl.risingFrom_filter p h.2)

theorem Tbl.rising_keep {t : Tbl α} (h : t.rising = true) (p : Nat → α → Bool) : (t.keep p).rising = true :=
  Tbl.risingFrom_filter _ h

theorem Tbl.rising_upd {t : Tbl α} (h : t.rising = true) (n : Nat) (f : α → α) : (t.upd n f).rising = true := by
  unfold Tbl.upd
  split
  · exact Tbl.rising_put h _ _
  · exact h

theorem Tbl.find_filter_from {b n : Nat} (p : Nat × α → Bool) : ∀ {t : Tbl α}, Tbl.risingFrom b t = true →
    Tbl.find (List.filter p t) n = (t.find n).filter (fun v => p (n, v))
  | [], _ => rfl
  | (k, w) :: t, h => by
    simp only [Tbl.risingFrom, Bool.and_eq_true, decide_eq_true_eq] at h
    rw [List.filter_cons]
    by_cases hk : n = k
    · subst hk
      split
      · rename_i hp; simp [Tbl.find, Option.filter, hp]
      · rename_i hp
        rw [Tbl.find_below (Tbl.risingFrom_filter p h.2) (by omega)]
        simp [Tbl.find, Option.filter, hp]
    · split
      · simp only [Tbl.find, hk, if_false]; exact Tbl.find_filter_from p h.2
      · simp only [Tbl.find, hk, if_false]; exact Tbl.find_filter_from p h.2

/-- What a table holds after entries that fail a test are dropped. -/
theorem Tbl.find_keep {t : Tbl α} (h : t.rising = true) (p : Nat → α → Bool) (n : Nat) :
    (t.keep p).find n = (t.find n).filter (fun v => p n v) := Tbl.find_filter_from _ h

end Sys2Proof
end

