-- ==== Sys2Proof/Laws/Memory.lean ====
section
/-!
SUPPORT. Laws of the byte store: a read after a write, that a write leaves every other byte, and that every operation
keeps the canonical form.
-/

namespace Sys2Proof.Machine

theorem cellGet_cellPut_same_from {b n : Nat} (v : Byte) : ∀ {c : List Host.Cell}, Tbl.risingFrom b c = true → cellGet (cellPut c n v) n = v
  | [], _ => by
    unfold cellPut
    split <;> simp_all [cellGet]
  | (k, w) :: t, h => by
    simp only [Tbl.risingFrom, Bool.and_eq_true, decide_eq_true_eq] at h
    have gone {m : Nat} (hm : n < m) (hr : Tbl.risingFrom m t = true) : cellGet t n = 0 := by
      clear h
      induction t generalizing m with
      | nil => rfl
      | cons a t ih =>
        obtain ⟨j, u⟩ := a
        simp only [Tbl.risingFrom, Bool.and_eq_true, decide_eq_true_eq] at hr
        have hj : ¬ n = j := by omega
        simp only [cellGet, hj, if_false]
        exact ih (m := j + 1) (by omega) hr.2
    unfold cellPut
    split
    · split
      · rename_i hk hv
        subst hv
        have hk' : ¬ n = k := by omega
        simp only [cellGet, hk', if_false]
        exact gone (m := k + 1) (by omega) h.2
      · simp [cellGet]
    · split
      · rename_i hk
        subst hk
        split
        · rename_i hv
          subst hv
          exact gone (m := n + 1) (by omega) h.2
        · simp [cellGet]
      · rename_i hk
        simp only [cellGet, hk, if_false]
        exact cellGet_cellPut_same_from v h.2

/-- A byte reads as it was written. -/
theorem cellGet_cellPut_same {c : List Host.Cell} (h : Tbl.rising c = true) (n : Nat) (v : Byte) : cellGet (cellPut c n v) n = v :=
  cellGet_cellPut_same_from v h

/-- A write leaves every other byte. -/
theorem cellGet_cellPut_ne (c : List Host.Cell) (n m : Nat) (v : Byte) (h : m ≠ n) : cellGet (cellPut c n v) m = cellGet c m := by
  induction c with
  | nil =>
    unfold cellPut
    split <;> simp [cellGet, h]
  | cons a t ih =>
    obtain ⟨k, w⟩ := a
    unfold cellPut
    split
    · split <;> simp [cellGet, h]
    · split
      · rename_i hk
        subst hk
        split <;> simp [cellGet, h]
      · simp [cellGet, ih]

theorem risingFrom_cellPut {b n : Nat} {v : Byte} (hb : b ≤ n) : ∀ {c : List Host.Cell}, Tbl.risingFrom b c = true →
    Tbl.risingFrom b (cellPut c n v) = true
  | [], _ => by
    unfold cellPut
    split <;> simp [Tbl.risingFrom, hb]
  | (k, w) :: t, h => by
    simp only [Tbl.risingFrom, Bool.and_eq_true, decide_eq_true_eq] at h
    unfold cellPut
    split
    · split
      · simp only [Tbl.risingFrom, Bool.and_eq_true, decide_eq_true_eq]
        exact h
      · simp only [Tbl.risingFrom, Bool.and_eq_true, decide_eq_true_eq]
        exact ⟨hb, by omega, h.2⟩
    · split
      · rename_i hk
        subst hk
        split
        · exact Tbl.risingFrom_mono (by omega) h.2
        · simp only [Tbl.risingFrom, Bool.and_eq_true, decide_eq_true_eq]
          exact ⟨hb, h.2⟩
      · simp only [Tbl.risingFrom, Bool.and_eq_true, decide_eq_true_eq]
        exact ⟨h.1, risingFrom_cellPut (by omega) h.2⟩

theorem cellPut_nonzero {n : Nat} {v : Byte} : ∀ {c : List Host.Cell}, (∀ x ∈ c, x.2 ≠ 0) → ∀ x ∈ cellPut c n v, x.2 ≠ 0
  | [], _ => by
    unfold cellPut
    split <;> simp_all
  | (k, w) :: t, h => by
    have ht : ∀ x ∈ t, x.2 ≠ 0 := fun x hx => h x (List.mem_cons_of_mem _ hx)
    unfold cellPut
    split
    · split
      · exact h
      · intro x hx
        rcases List.mem_cons.1 hx with hx | hx
        · subst hx; assumption
        · exact h x hx
    · split
      · split
        · exact ht
        · intro x hx
          rcases List.mem_cons.1 hx with hx | hx
          · subst hx; assumption
          · exact ht x hx
      · intro x hx
        rcases List.mem_cons.1 hx with hx | hx
        · subst hx; exact h _ (List.mem_cons_self ..)
        · exact cellPut_nonzero ht x hx

theorem Memory.wf_iff (c : List Host.Cell) : Memory.wf c = true ↔ Tbl.rising c = true ∧ ∀ x ∈ c, x.2 ≠ 0 := by
  simp [Memory.wf]

/-- A write of a byte keeps the canonical form. -/
theorem wf_cellPut {c : List Host.Cell} (h : Memory.wf c = true) (n : Nat) (v : Byte) : Memory.wf (cellPut c n v) = true := by
  rw [Memory.wf_iff] at h ⊢
  exact ⟨risingFrom_cellPut (Nat.zero_le n) h.1, cellPut_nonzero h.2⟩

/-- A write of bytes keeps the canonical form. -/
theorem wf_cellsPut {c : List Host.Cell} (h : Memory.wf c = true) (a : Nat) (b : List Byte) : Memory.wf (cellsPut c a b) = true := by
  induction b generalizing c a with
  | nil => exact h
  | cons x t ih => exact ih (wf_cellPut h a x) (a + 1)

/-- Dropping bytes keeps the canonical form. -/
theorem wf_filter {c : List Host.Cell} (h : Memory.wf c = true) (p : Host.Cell → Bool) : Memory.wf (c.filter p) = true := by
  rw [Memory.wf_iff] at h ⊢
  exact ⟨Tbl.risingFrom_filter p h.1, fun x hx => h.2 x (List.mem_filter.1 hx).1⟩

/-- A write of bytes leaves every byte outside them. -/
theorem cellGet_cellsPut_out (c : List Host.Cell) (a m : Nat) (b : List Byte) (h : m < a ∨ a + b.length ≤ m) :
    cellGet (cellsPut c a b) m = cellGet c m := by
  induction b generalizing c a with
  | nil => rfl
  | cons x t ih =>
    simp only [List.length_cons] at h
    show cellGet (cellsPut (cellPut c a x) (a + 1) t) m = _
    rw [ih _ _ (by omega), cellGet_cellPut_ne _ _ _ _ (by omega)]

/-- Bytes read as they were written. -/
theorem cellGet_cellsPut_in {c : List Host.Cell} (h : Memory.wf c = true) (a i : Nat) (b : List Byte) (hi : i < b.length) :
    cellGet (cellsPut c a b) (a + i) = b[i] := by
  induction b generalizing c a i with
  | nil => simp at hi
  | cons x t ih =>
    show cellGet (cellsPut (cellPut c a x) (a + 1) t) (a + i) = _
    cases i with
    | zero =>
      rw [cellGet_cellsPut_out _ _ _ _ (by omega)]
      exact cellGet_cellPut_same ((Memory.wf_iff c).1 h).1 a x
    | succ i =>
      have e : a + (i + 1) = a + 1 + i := by omega
      rw [e]
      exact ih (wf_cellPut h a x) (a + 1) i (by simpa using hi)

/-- Reading back what was written gives it. -/
theorem cellsGet_cellsPut {c : List Host.Cell} (h : Memory.wf c = true) (a : Nat) (b : List Byte) : cellsGet (cellsPut c a b) a b.length = b := by
  apply List.ext_getElem
  · simp [cellsGet]
  · intro i h1 h2
    simp only [cellsGet, List.getElem_map, List.getElem_range]
    exact cellGet_cellsPut_in h a i b h2

end Sys2Proof.Machine
end

