-- ==== Sys2Proof/Laws/State.lean ====
section
/-!
SUPPORT. Laws of the state's updates: what each leaves of every field, and what a register field holds after a write.
-/

namespace Sys2Proof.Machine

/-! ### setF -/

@[simp] theorem State.setF_edge (s : State) (f : Fld) (i v : Nat) : (s.setF f i v).edge = s.edge := rfl
@[simp] theorem State.setF_temper (s : State) (f : Fld) (i v : Nat) : (s.setF f i v).temper = s.temper := rfl
@[simp] theorem State.setF_work (s : State) (f : Fld) (i v : Nat) : (s.setF f i v).work = s.work := rfl
@[simp] theorem State.setF_serve (s : State) (f : Fld) (i v : Nat) : (s.setF f i v).serve = s.serve := rfl
@[simp] theorem State.setF_slices (s : State) (f : Fld) (i v : Nat) : (s.setF f i v).slices = s.slices := rfl
@[simp] theorem State.setF_mem (s : State) (f : Fld) (i v : Nat) : (s.setF f i v).mem = s.mem := rfl
@[simp] theorem State.setF_coh (s : State) (f : Fld) (i v : Nat) : (s.setF f i v).coh = s.coh := rfl
@[simp] theorem State.setF_fil (s : State) (f : Fld) (i v : Nat) : (s.setF f i v).fil = s.fil := rfl
@[simp] theorem State.setF_mbx (s : State) (f : Fld) (i v : Nat) : (s.setF f i v).mbx = s.mbx := rfl
@[simp] theorem State.setF_sec (s : State) (f : Fld) (i v : Nat) : (s.setF f i v).sec = s.sec := rfl
@[simp] theorem State.setF_recov (s : State) (f : Fld) (i v : Nat) : (s.setF f i v).recov = s.recov := rfl
@[simp] theorem State.setF_out (s : State) (f : Fld) (i v : Nat) : (s.setF f i v).out = s.out := rfl
@[simp] theorem State.setF_now (s : State) (f : Fld) (i v : Nat) : (s.setF f i v).now = s.now := rfl
@[simp] theorem State.setF_free (s : State) (f : Fld) (i v : Nat) : (s.setF f i v).free = s.free := rfl
@[simp] theorem State.setF_pending (s : State) (f : Fld) (i v : Nat) : (s.setF f i v).pending = s.pending := rfl

/-! ### incF -/

@[simp] theorem State.incF_edge (s : State) (f : Fld) (i : Nat) : (s.incF f i).edge = s.edge := rfl
@[simp] theorem State.incF_temper (s : State) (f : Fld) (i : Nat) : (s.incF f i).temper = s.temper := rfl
@[simp] theorem State.incF_work (s : State) (f : Fld) (i : Nat) : (s.incF f i).work = s.work := rfl
@[simp] theorem State.incF_serve (s : State) (f : Fld) (i : Nat) : (s.incF f i).serve = s.serve := rfl
@[simp] theorem State.incF_slices (s : State) (f : Fld) (i : Nat) : (s.incF f i).slices = s.slices := rfl
@[simp] theorem State.incF_mem (s : State) (f : Fld) (i : Nat) : (s.incF f i).mem = s.mem := rfl
@[simp] theorem State.incF_coh (s : State) (f : Fld) (i : Nat) : (s.incF f i).coh = s.coh := rfl
@[simp] theorem State.incF_fil (s : State) (f : Fld) (i : Nat) : (s.incF f i).fil = s.fil := rfl
@[simp] theorem State.incF_mbx (s : State) (f : Fld) (i : Nat) : (s.incF f i).mbx = s.mbx := rfl
@[simp] theorem State.incF_sec (s : State) (f : Fld) (i : Nat) : (s.incF f i).sec = s.sec := rfl
@[simp] theorem State.incF_recov (s : State) (f : Fld) (i : Nat) : (s.incF f i).recov = s.recov := rfl
@[simp] theorem State.incF_out (s : State) (f : Fld) (i : Nat) : (s.incF f i).out = s.out := rfl
@[simp] theorem State.incF_now (s : State) (f : Fld) (i : Nat) : (s.incF f i).now = s.now := rfl
@[simp] theorem State.incF_free (s : State) (f : Fld) (i : Nat) : (s.incF f i).free = s.free := rfl
@[simp] theorem State.incF_pending (s : State) (f : Fld) (i : Nat) : (s.incF f i).pending = s.pending := rfl

/-! ### bumpF -/

@[simp] theorem State.bumpF_edge (s : State) (f : Fld) (i n : Nat) : (s.bumpF f i n).edge = s.edge := rfl
@[simp] theorem State.bumpF_temper (s : State) (f : Fld) (i n : Nat) : (s.bumpF f i n).temper = s.temper := rfl
@[simp] theorem State.bumpF_work (s : State) (f : Fld) (i n : Nat) : (s.bumpF f i n).work = s.work := rfl
@[simp] theorem State.bumpF_serve (s : State) (f : Fld) (i n : Nat) : (s.bumpF f i n).serve = s.serve := rfl
@[simp] theorem State.bumpF_slices (s : State) (f : Fld) (i n : Nat) : (s.bumpF f i n).slices = s.slices := rfl
@[simp] theorem State.bumpF_mem (s : State) (f : Fld) (i n : Nat) : (s.bumpF f i n).mem = s.mem := rfl
@[simp] theorem State.bumpF_coh (s : State) (f : Fld) (i n : Nat) : (s.bumpF f i n).coh = s.coh := rfl
@[simp] theorem State.bumpF_fil (s : State) (f : Fld) (i n : Nat) : (s.bumpF f i n).fil = s.fil := rfl
@[simp] theorem State.bumpF_mbx (s : State) (f : Fld) (i n : Nat) : (s.bumpF f i n).mbx = s.mbx := rfl
@[simp] theorem State.bumpF_sec (s : State) (f : Fld) (i n : Nat) : (s.bumpF f i n).sec = s.sec := rfl
@[simp] theorem State.bumpF_recov (s : State) (f : Fld) (i n : Nat) : (s.bumpF f i n).recov = s.recov := rfl
@[simp] theorem State.bumpF_out (s : State) (f : Fld) (i n : Nat) : (s.bumpF f i n).out = s.out := rfl
@[simp] theorem State.bumpF_now (s : State) (f : Fld) (i n : Nat) : (s.bumpF f i n).now = s.now := rfl
@[simp] theorem State.bumpF_free (s : State) (f : Fld) (i n : Nat) : (s.bumpF f i n).free = s.free := rfl
@[simp] theorem State.bumpF_pending (s : State) (f : Fld) (i n : Nat) : (s.bumpF f i n).pending = s.pending := rfl

/-! ### setBit -/

@[simp] theorem State.setBit_edge (s : State) (f : Fld) (i b : Nat) (x : Bool) : (s.setBit f i b x).edge = s.edge := rfl
@[simp] theorem State.setBit_temper (s : State) (f : Fld) (i b : Nat) (x : Bool) : (s.setBit f i b x).temper = s.temper := rfl
@[simp] theorem State.setBit_work (s : State) (f : Fld) (i b : Nat) (x : Bool) : (s.setBit f i b x).work = s.work := rfl
@[simp] theorem State.setBit_serve (s : State) (f : Fld) (i b : Nat) (x : Bool) : (s.setBit f i b x).serve = s.serve := rfl
@[simp] theorem State.setBit_slices (s : State) (f : Fld) (i b : Nat) (x : Bool) : (s.setBit f i b x).slices = s.slices := rfl
@[simp] theorem State.setBit_mem (s : State) (f : Fld) (i b : Nat) (x : Bool) : (s.setBit f i b x).mem = s.mem := rfl
@[simp] theorem State.setBit_coh (s : State) (f : Fld) (i b : Nat) (x : Bool) : (s.setBit f i b x).coh = s.coh := rfl
@[simp] theorem State.setBit_fil (s : State) (f : Fld) (i b : Nat) (x : Bool) : (s.setBit f i b x).fil = s.fil := rfl
@[simp] theorem State.setBit_mbx (s : State) (f : Fld) (i b : Nat) (x : Bool) : (s.setBit f i b x).mbx = s.mbx := rfl
@[simp] theorem State.setBit_sec (s : State) (f : Fld) (i b : Nat) (x : Bool) : (s.setBit f i b x).sec = s.sec := rfl
@[simp] theorem State.setBit_recov (s : State) (f : Fld) (i b : Nat) (x : Bool) : (s.setBit f i b x).recov = s.recov := rfl
@[simp] theorem State.setBit_out (s : State) (f : Fld) (i b : Nat) (x : Bool) : (s.setBit f i b x).out = s.out := rfl
@[simp] theorem State.setBit_now (s : State) (f : Fld) (i b : Nat) (x : Bool) : (s.setBit f i b x).now = s.now := rfl
@[simp] theorem State.setBit_free (s : State) (f : Fld) (i b : Nat) (x : Bool) : (s.setBit f i b x).free = s.free := rfl
@[simp] theorem State.setBit_pending (s : State) (f : Fld) (i b : Nat) (x : Bool) : (s.setBit f i b x).pending = s.pending := rfl

/-! ### emit -/

@[simp] theorem State.emit_regs (s : State) (x : Out) : (s.emit x).regs = s.regs := rfl
@[simp] theorem State.emit_edge (s : State) (x : Out) : (s.emit x).edge = s.edge := rfl
@[simp] theorem State.emit_temper (s : State) (x : Out) : (s.emit x).temper = s.temper := rfl
@[simp] theorem State.emit_work (s : State) (x : Out) : (s.emit x).work = s.work := rfl
@[simp] theorem State.emit_serve (s : State) (x : Out) : (s.emit x).serve = s.serve := rfl
@[simp] theorem State.emit_slices (s : State) (x : Out) : (s.emit x).slices = s.slices := rfl
@[simp] theorem State.emit_mem (s : State) (x : Out) : (s.emit x).mem = s.mem := rfl
@[simp] theorem State.emit_coh (s : State) (x : Out) : (s.emit x).coh = s.coh := rfl
@[simp] theorem State.emit_fil (s : State) (x : Out) : (s.emit x).fil = s.fil := rfl
@[simp] theorem State.emit_mbx (s : State) (x : Out) : (s.emit x).mbx = s.mbx := rfl
@[simp] theorem State.emit_sec (s : State) (x : Out) : (s.emit x).sec = s.sec := rfl
@[simp] theorem State.emit_recov (s : State) (x : Out) : (s.emit x).recov = s.recov := rfl
@[simp] theorem State.emit_now (s : State) (x : Out) : (s.emit x).now = s.now := rfl
@[simp] theorem State.emit_free (s : State) (x : Out) : (s.emit x).free = s.free := rfl
@[simp] theorem State.emit_pending (s : State) (x : Out) : (s.emit x).pending = s.pending := rfl

/-! ### setCore -/

@[simp] theorem State.setCore_regs (s : State) (c : Nat) (k : Core) : (s.setCore c k).regs = s.regs := rfl
@[simp] theorem State.setCore_edge (s : State) (c : Nat) (k : Core) : (s.setCore c k).edge = s.edge := rfl
@[simp] theorem State.setCore_temper (s : State) (c : Nat) (k : Core) : (s.setCore c k).temper = s.temper := rfl
@[simp] theorem State.setCore_serve (s : State) (c : Nat) (k : Core) : (s.setCore c k).serve = s.serve := rfl
@[simp] theorem State.setCore_slices (s : State) (c : Nat) (k : Core) : (s.setCore c k).slices = s.slices := rfl
@[simp] theorem State.setCore_mem (s : State) (c : Nat) (k : Core) : (s.setCore c k).mem = s.mem := rfl
@[simp] theorem State.setCore_coh (s : State) (c : Nat) (k : Core) : (s.setCore c k).coh = s.coh := rfl
@[simp] theorem State.setCore_fil (s : State) (c : Nat) (k : Core) : (s.setCore c k).fil = s.fil := rfl
@[simp] theorem State.setCore_mbx (s : State) (c : Nat) (k : Core) : (s.setCore c k).mbx = s.mbx := rfl
@[simp] theorem State.setCore_sec (s : State) (c : Nat) (k : Core) : (s.setCore c k).sec = s.sec := rfl
@[simp] theorem State.setCore_recov (s : State) (c : Nat) (k : Core) : (s.setCore c k).recov = s.recov := rfl
@[simp] theorem State.setCore_out (s : State) (c : Nat) (k : Core) : (s.setCore c k).out = s.out := rfl
@[simp] theorem State.setCore_now (s : State) (c : Nat) (k : Core) : (s.setCore c k).now = s.now := rfl
@[simp] theorem State.setCore_free (s : State) (c : Nat) (k : Core) : (s.setCore c k).free = s.free := rfl
@[simp] theorem State.setCore_pending (s : State) (c : Nat) (k : Core) : (s.setCore c k).pending = s.pending := rfl

/-! ### setItem -/

@[simp] theorem State.setItem_regs (s : State) (i : Nat) (x : Item) : (s.setItem i x).regs = s.regs := rfl
@[simp] theorem State.setItem_edge (s : State) (i : Nat) (x : Item) : (s.setItem i x).edge = s.edge := rfl
@[simp] theorem State.setItem_temper (s : State) (i : Nat) (x : Item) : (s.setItem i x).temper = s.temper := rfl
@[simp] theorem State.setItem_serve (s : State) (i : Nat) (x : Item) : (s.setItem i x).serve = s.serve := rfl
@[simp] theorem State.setItem_slices (s : State) (i : Nat) (x : Item) : (s.setItem i x).slices = s.slices := rfl
@[simp] theorem State.setItem_mem (s : State) (i : Nat) (x : Item) : (s.setItem i x).mem = s.mem := rfl
@[simp] theorem State.setItem_coh (s : State) (i : Nat) (x : Item) : (s.setItem i x).coh = s.coh := rfl
@[simp] theorem State.setItem_fil (s : State) (i : Nat) (x : Item) : (s.setItem i x).fil = s.fil := rfl
@[simp] theorem State.setItem_mbx (s : State) (i : Nat) (x : Item) : (s.setItem i x).mbx = s.mbx := rfl
@[simp] theorem State.setItem_sec (s : State) (i : Nat) (x : Item) : (s.setItem i x).sec = s.sec := rfl
@[simp] theorem State.setItem_recov (s : State) (i : Nat) (x : Item) : (s.setItem i x).recov = s.recov := rfl
@[simp] theorem State.setItem_out (s : State) (i : Nat) (x : Item) : (s.setItem i x).out = s.out := rfl
@[simp] theorem State.setItem_now (s : State) (i : Nat) (x : Item) : (s.setItem i x).now = s.now := rfl
@[simp] theorem State.setItem_free (s : State) (i : Nat) (x : Item) : (s.setItem i x).free = s.free := rfl
@[simp] theorem State.setItem_pending (s : State) (i : Nat) (x : Item) : (s.setItem i x).pending = s.pending := rfl

/-! ### updItem -/

@[simp] theorem State.updItem_regs (s : State) (i : Nat) (f : Item → Item) : (s.updItem i f).regs = s.regs := rfl
@[simp] theorem State.updItem_edge (s : State) (i : Nat) (f : Item → Item) : (s.updItem i f).edge = s.edge := rfl
@[simp] theorem State.updItem_temper (s : State) (i : Nat) (f : Item → Item) : (s.updItem i f).temper = s.temper := rfl
@[simp] theorem State.updItem_serve (s : State) (i : Nat) (f : Item → Item) : (s.updItem i f).serve = s.serve := rfl
@[simp] theorem State.updItem_slices (s : State) (i : Nat) (f : Item → Item) : (s.updItem i f).slices = s.slices := rfl
@[simp] theorem State.updItem_mem (s : State) (i : Nat) (f : Item → Item) : (s.updItem i f).mem = s.mem := rfl
@[simp] theorem State.updItem_coh (s : State) (i : Nat) (f : Item → Item) : (s.updItem i f).coh = s.coh := rfl
@[simp] theorem State.updItem_fil (s : State) (i : Nat) (f : Item → Item) : (s.updItem i f).fil = s.fil := rfl
@[simp] theorem State.updItem_mbx (s : State) (i : Nat) (f : Item → Item) : (s.updItem i f).mbx = s.mbx := rfl
@[simp] theorem State.updItem_sec (s : State) (i : Nat) (f : Item → Item) : (s.updItem i f).sec = s.sec := rfl
@[simp] theorem State.updItem_recov (s : State) (i : Nat) (f : Item → Item) : (s.updItem i f).recov = s.recov := rfl
@[simp] theorem State.updItem_out (s : State) (i : Nat) (f : Item → Item) : (s.updItem i f).out = s.out := rfl
@[simp] theorem State.updItem_now (s : State) (i : Nat) (f : Item → Item) : (s.updItem i f).now = s.now := rfl
@[simp] theorem State.updItem_free (s : State) (i : Nat) (f : Item → Item) : (s.updItem i f).free = s.free := rfl
@[simp] theorem State.updItem_pending (s : State) (i : Nat) (f : Item → Item) : (s.updItem i f).pending = s.pending := rfl

/-! ### setQx -/

@[simp] theorem State.setQx_regs (s : State) (q : Nat) (x : QueueX) : (s.setQx q x).regs = s.regs := rfl
@[simp] theorem State.setQx_edge (s : State) (q : Nat) (x : QueueX) : (s.setQx q x).edge = s.edge := rfl
@[simp] theorem State.setQx_temper (s : State) (q : Nat) (x : QueueX) : (s.setQx q x).temper = s.temper := rfl
@[simp] theorem State.setQx_serve (s : State) (q : Nat) (x : QueueX) : (s.setQx q x).serve = s.serve := rfl
@[simp] theorem State.setQx_slices (s : State) (q : Nat) (x : QueueX) : (s.setQx q x).slices = s.slices := rfl
@[simp] theorem State.setQx_mem (s : State) (q : Nat) (x : QueueX) : (s.setQx q x).mem = s.mem := rfl
@[simp] theorem State.setQx_coh (s : State) (q : Nat) (x : QueueX) : (s.setQx q x).coh = s.coh := rfl
@[simp] theorem State.setQx_fil (s : State) (q : Nat) (x : QueueX) : (s.setQx q x).fil = s.fil := rfl
@[simp] theorem State.setQx_mbx (s : State) (q : Nat) (x : QueueX) : (s.setQx q x).mbx = s.mbx := rfl
@[simp] theorem State.setQx_sec (s : State) (q : Nat) (x : QueueX) : (s.setQx q x).sec = s.sec := rfl
@[simp] theorem State.setQx_recov (s : State) (q : Nat) (x : QueueX) : (s.setQx q x).recov = s.recov := rfl
@[simp] theorem State.setQx_out (s : State) (q : Nat) (x : QueueX) : (s.setQx q x).out = s.out := rfl
@[simp] theorem State.setQx_now (s : State) (q : Nat) (x : QueueX) : (s.setQx q x).now = s.now := rfl
@[simp] theorem State.setQx_free (s : State) (q : Nat) (x : QueueX) : (s.setQx q x).free = s.free := rfl
@[simp] theorem State.setQx_pending (s : State) (q : Nat) (x : QueueX) : (s.setQx q x).pending = s.pending := rfl

/-! ### setPort -/

@[simp] theorem State.setPort_regs (s : State) (p : Nat) (x : Port) : (s.setPort p x).regs = s.regs := rfl
@[simp] theorem State.setPort_edge (s : State) (p : Nat) (x : Port) : (s.setPort p x).edge = s.edge := rfl
@[simp] theorem State.setPort_temper (s : State) (p : Nat) (x : Port) : (s.setPort p x).temper = s.temper := rfl
@[simp] theorem State.setPort_work (s : State) (p : Nat) (x : Port) : (s.setPort p x).work = s.work := rfl
@[simp] theorem State.setPort_serve (s : State) (p : Nat) (x : Port) : (s.setPort p x).serve = s.serve := rfl
@[simp] theorem State.setPort_slices (s : State) (p : Nat) (x : Port) : (s.setPort p x).slices = s.slices := rfl
@[simp] theorem State.setPort_mem (s : State) (p : Nat) (x : Port) : (s.setPort p x).mem = s.mem := rfl
@[simp] theorem State.setPort_coh (s : State) (p : Nat) (x : Port) : (s.setPort p x).coh = s.coh := rfl
@[simp] theorem State.setPort_mbx (s : State) (p : Nat) (x : Port) : (s.setPort p x).mbx = s.mbx := rfl
@[simp] theorem State.setPort_sec (s : State) (p : Nat) (x : Port) : (s.setPort p x).sec = s.sec := rfl
@[simp] theorem State.setPort_recov (s : State) (p : Nat) (x : Port) : (s.setPort p x).recov = s.recov := rfl
@[simp] theorem State.setPort_out (s : State) (p : Nat) (x : Port) : (s.setPort p x).out = s.out := rfl
@[simp] theorem State.setPort_now (s : State) (p : Nat) (x : Port) : (s.setPort p x).now = s.now := rfl
@[simp] theorem State.setPort_free (s : State) (p : Nat) (x : Port) : (s.setPort p x).free = s.free := rfl
@[simp] theorem State.setPort_pending (s : State) (p : Nat) (x : Port) : (s.setPort p x).pending = s.pending := rfl

@[simp] theorem State.emit_out (s : State) (x : Out) : (s.emit x).out = s.out ++ [x] := rfl

/-! ### Register fields -/

theorem Fld.ctorIdx_lt (f : Fld) : f.ctorIdx < 1024 := by
  cases f <;> exact Nat.lt_of_sub_pos (Nat.succ_pos _)

theorem Fld.ctorIdx_inj {f g : Fld} (h : f.ctorIdx = g.ctorIdx) : f = g := by
  rw [← Fld.ofNat_ctorIdx f, h, Fld.ofNat_ctorIdx]

/-- Different fields and different units have different places in the register store. -/
theorem fkey_inj {f g : Fld} {i j : Nat} (h : fkey f i = fkey g j) : f = g ∧ i = j := by
  have hf := f.ctorIdx_lt
  have hg := g.ctorIdx_lt
  unfold fkey at h
  exact ⟨Fld.ctorIdx_inj (by omega), by omega⟩

theorem State.getF_setF_ne (s : State) (f g : Fld) (i j v : Nat) (h : ¬ (g = f ∧ j = i)) : (s.setF f i v).getF g j = s.getF g j := by
  have hk : fkey g j ≠ fkey f i := fun e => h (fkey_inj e)
  unfold State.getF State.setF Tbl.findD
  dsimp only
  split
  · rw [Tbl.find_del_ne _ _ _ hk]
  · rw [Tbl.find_put_ne _ _ _ _ hk]

/-- A field holds what was written, cut to its width. -/
theorem State.getF_setF_same {s : State} (h : s.regs.rising = true) (f : Fld) (i v : Nat) : (s.setF f i v).getF f i = v % 2 ^ f.width := by
  unfold State.getF State.setF Tbl.findD
  dsimp only
  split
  · rename_i hv
    rw [Tbl.find_del_same h, hv]
    rfl
  · rw [Tbl.find_put_same]
    rfl

theorem State.getF_setF {s : State} (h : s.regs.rising = true) (f g : Fld) (i j v : Nat) :
    (s.setF f i v).getF g j = if g = f ∧ j = i then v % 2 ^ f.width else s.getF g j := by
  split
  · rename_i e
    rw [e.1, e.2, State.getF_setF_same h]
  · rename_i e
    exact State.getF_setF_ne s f g i j v e

theorem State.rising_setF {s : State} (h : s.regs.rising = true) (f : Fld) (i v : Nat) : (s.setF f i v).regs.rising = true := by
  unfold State.setF
  dsimp only
  split
  · exact Tbl.rising_del h _
  · exact Tbl.rising_put h _ _

/-! ### Cores and items -/

theorem State.core_setCore (s : State) (c d : Nat) (k : Core) : (s.setCore c k).core d = if d = c then k else s.core d := by
  unfold State.core State.setCore
  dsimp only
  rw [Tbl.findD_put]

@[simp] theorem State.core_setCore_same (s : State) (c : Nat) (k : Core) : (s.setCore c k).core c = k := by simp [State.core_setCore]

@[simp] theorem State.core_setF (s : State) (f : Fld) (i v c : Nat) : (s.setF f i v).core c = s.core c := rfl

theorem State.item_setItem (s : State) (i j : Nat) (x : Item) : (s.setItem i x).item j = if j = i then some x else s.item j := by
  unfold State.item State.setItem
  dsimp only
  rw [Tbl.find_put]

@[simp] theorem State.getF_setCore (s : State) (c : Nat) (k : Core) (f : Fld) (i : Nat) : (s.setCore c k).getF f i = s.getF f i := rfl

@[simp] theorem State.getF_setItem (s : State) (j : Nat) (x : Item) (f : Fld) (i : Nat) : (s.setItem j x).getF f i = s.getF f i := rfl

@[simp] theorem State.getF_emit (s : State) (x : Out) (f : Fld) (i : Nat) : (s.emit x).getF f i = s.getF f i := rfl

end Sys2Proof.Machine
end

