-- ==== Sys2Proof/Laws/Canonical.lean ====
section
/-!
SUPPORT. Laws of the canonical form: the operations that write the register store and the byte store of the pool keep it.
-/

namespace Sys2Proof.Machine

/-- No reset value passes its field's width. -/
theorem Fld.pow_width_pos (f : Fld) : 0 < 2 ^ f.width := Nat.pow_pos (by decide)

/-- Registers that are all at their reset values are canonical. -/
theorem State.regsOk_nil {s : State} (h : s.regs = []) : s.regsOk := by
  refine ⟨by rw [h]; rfl, ?_⟩
  intro f i v hv
  rw [h] at hv
  cases hv

/-- A write of a field keeps the register store canonical. -/
theorem State.regsOk_setF {s : State} (h : s.regsOk) (f : Fld) (i v : Nat) : (s.setF f i v).regsOk := by
  refine ⟨State.rising_setF h.1 f i v, ?_⟩
  intro g j w hw
  unfold State.setF at hw
  dsimp only at hw
  split at hw
  · by_cases hk : fkey g j = fkey f i
    · rw [hk, Tbl.find_del_same h.1] at hw
      cases hw
    · rw [Tbl.find_del_ne _ _ _ hk] at hw
      exact h.2 g j w hw
  · rename_i hr
    by_cases hk : fkey g j = fkey f i
    · obtain ⟨rfl, rfl⟩ := fkey_inj hk
      rw [Tbl.find_put_same] at hw
      cases hw
      exact ⟨Nat.mod_lt _ (Fld.pow_width_pos g), hr⟩
    · rw [Tbl.find_put_ne _ _ _ _ hk] at hw
      exact h.2 g j w hw

/-- A counter's step keeps the register store canonical. -/
theorem State.regsOk_bumpF {s : State} (h : s.regsOk) (f : Fld) (i n : Nat) : (s.bumpF f i n).regsOk := State.regsOk_setF h f i _

/-- So does a count that wraps. -/
theorem State.regsOk_incF {s : State} (h : s.regsOk) (f : Fld) (i : Nat) : (s.incF f i).regsOk := State.regsOk_setF h f i _

/-- Dropping entries, as resets do, keeps the register store canonical. -/
theorem State.regsOk_keep {s : State} (h : s.regsOk) (p : Nat → Nat → Bool) : ({ s with regs := s.regs.keep p } : State).regsOk := by
  refine ⟨Tbl.rising_keep h.1 p, ?_⟩
  intro f i v hv
  dsimp only at hv
  rw [Tbl.find_keep h.1] at hv
  cases hf : s.regs.find (fkey f i) with
  | none => rw [hf] at hv; cases hv
  | some w =>
    rw [hf] at hv
    simp only [Option.filter] at hv
    split at hv
    · cases hv; exact h.2 f i v hf
    · cases hv

/-- Storing a line keeps the byte store canonical. -/
theorem State.memoryOk_storeLine {s : State} (h : s.memoryOk) (off slot : Nat) (b : List Byte) (p : Bool) : (s.storeLine off slot b p).memoryOk := by
  unfold State.storeLine
  split
  · exact h
  · exact wf_cellsPut h _ _

/-- Writing a dirty line back keeps it canonical. -/
theorem State.memoryOk_writeBack {s : State} (h : s.memoryOk) (off : Nat) : (s.writeBack off).memoryOk := by
  unfold State.writeBack
  split
  · exact State.memoryOk_storeLine h _ _ _ _
  · exact h

/-- A scrub keeps it canonical. -/
theorem State.memoryOk_scrubRange {s : State} (h : s.memoryOk) (off n : Nat) : (s.scrubRange off n).memoryOk := wf_filter h _

/-- What a stored line reads as, and that the rest of the byte store stands (R260). -/
theorem State.cells_storeLine {s : State} (h : s.memoryOk) (off slot : Nat) (b : List Byte) (p : Bool) (hb : b.length = 64)
    (hole : s.holeLost off = false) :
    cellsGet (s.storeLine off slot b p).mem.cells (off / 64 * 64) 64 = b ∧
      ∀ m, m < off / 64 * 64 ∨ off / 64 * 64 + 64 ≤ m → cellGet (s.storeLine off slot b p).mem.cells m = cellGet s.mem.cells m := by
  have hl : (b.take 64).length = 64 := by simp [hb]
  have hbt : b.take 64 = b := List.take_of_length_le (by omega)
  unfold State.storeLine
  simp only [hole, Bool.false_eq_true, if_false]
  refine ⟨?_, ?_⟩
  · have := cellsGet_cellsPut h (off / 64 * 64) (b.take 64)
    rw [hl] at this
    rw [this, hbt]
  · intro m hm
    exact cellGet_cellsPut_out _ _ _ _ (by rw [hl]; exact hm)

end Sys2Proof.Machine
end

