-- ==== Sys2Proof/Laws/Cue.lean ====
section
/-!
SUPPORT. Laws of what every Cue instruction shares: what one that retires changes, what a false guard leaves, and that a
core that executes nothing is left alone.
-/

namespace Sys2Proof.Machine

@[simp] theorem Ctx.rdP_zero (x : Ctx) : x.rdP 0#3 = true := rfl
@[simp] theorem Ctx.rd_zero (x : Ctx) : x.rd 0#5 = 0 := rfl
@[simp] theorem Ctx.wr_zero (x : Ctx) (v : Word) : x.wr 0#5 v = x := rfl
@[simp] theorem Ctx.wrP_zero (x : Ctx) (v : Bool) : x.wrP 0#3 v = x := rfl

/-- A register reads as it was written, but g0 reads zero. -/
theorem Ctx.rd_wr (x : Ctx) (r q : BitVec 5) (v : Word) : (x.wr r v).rd q = if q = r ∧ q ≠ 0#5 then v else x.rd q := by
  by_cases hr : r = 0#5
  · subst hr
    by_cases hq : q = 0#5 <;> simp [hq]
  · by_cases hq : q = 0#5
    · subst hq; simp
    · have hr' : r.toNat < 32 := r.isLt
      have hq' : q.toNat < 32 := q.isLt
      have hr2 : ¬ r = 0 := hr
      have hq2 : ¬ q = 0 := hq
      unfold Ctx.wr Ctx.rd
      rw [if_neg hr2, if_neg hq2, if_neg hq2]
      by_cases e : q = r
      · subst e
        have hl : q.toNat < x.g.toList.length := by simpa using hq'
        simp [hq, List.getElem?_set_self hl]
      · have ne : ¬ r.toNat = q.toNat := fun h => e (BitVec.eq_of_toNat_eq h.symm)
        simp [e, List.getD, ne]

/-- Leaving a yield point changes one core's mark of it and nothing else (R161). -/
theorem State.leavePoint_eq (s : State) (c : Nat) :
    s.leavePoint c = { s with work := { s.work with cores := (s.leavePoint c).work.cores } } := by
  unfold State.leavePoint
  split <;> rfl

@[simp] theorem State.core_leavePoint (s : State) (c : Nat) : (s.leavePoint c).core c = (s.core c).onto (s.core c).ctx := by
  unfold State.leavePoint
  split
  · simp [Core.onto]
  · rename_i h
    show s.core c = _
    cases hk : s.core c
    rw [hk] at h
    simp_all [Core.onto]

theorem State.core_leavePoint_ne (s : State) {c d : Nat} (h : d ≠ c) : (s.leavePoint c).core d = s.core d := by
  unfold State.leavePoint
  split
  · simp [State.core_setCore, h]
  · rfl

@[simp] theorem State.ctx_leavePoint (s : State) (c : Nat) : (s.leavePoint c).ctx c = s.ctx c := by
  show ((s.leavePoint c).core c).ctx = _
  rw [State.core_leavePoint]
  rfl

@[simp] theorem State.regs_leavePoint (s : State) (c : Nat) : (s.leavePoint c).regs = s.regs := by rw [State.leavePoint_eq]

@[simp] theorem State.getF_leavePoint (s : State) (c : Nat) (f : Fld) (i : Nat) : (s.leavePoint c).getF f i = s.getF f i := by
  unfold State.getF
  rw [State.regs_leavePoint]

@[simp] theorem State.fetchOk_leavePoint (s : State) (c len : Nat) : (s.leavePoint c).fetchOk c len = s.fetchOk c len := by
  unfold State.fetchOk
  rw [State.core_leavePoint]
  unfold State.leavePoint
  split <;> rfl

/-- What retiring on core `c` leaves of a state. -/
theorem retired_retire {s : State} (h : s.regs.rising = true) (c : Nat) (f : Ctx → Ctx) :
    Retired s (((s.leavePoint c).retire c (s.ctx c).pc).mapCtx c f) c ((s.core c).onto (f (s.ctx c))) := by
  have hl : (s.leavePoint c).regs.rising = true := by rw [State.regs_leavePoint]; exact h
  have hr : ((s.leavePoint c).setF .CUE_RETIRED_COUNT c (s.getF .CUE_RETIRED_COUNT c + 1)).regs.rising = true := State.rising_setF hl _ _ _
  refine ⟨?_, ?_, ?_, ?_, ?_, ?_⟩
  · simp [State.mapCtx, State.retire, State.incF, Core.onto]
    rfl
  · intro d hd
    simp [State.mapCtx, State.retire, State.incF, State.core_setCore, hd, State.core_leavePoint_ne]
  · rw [State.leavePoint_eq]
    rfl
  · simp only [State.mapCtx, State.getF_setCore, State.retire, State.incF, State.getF_leavePoint]
    rw [State.getF_setF_ne _ _ _ _ _ _ (by simp), State.getF_setF_same hl]
    rfl
  · simp only [State.mapCtx, State.getF_setCore, State.retire, State.incF, State.getF_leavePoint]
    rw [State.getF_setF_same hr]
    have := (s.ctx c).pc.isLt
    exact Nat.mod_eq_of_lt (by show _ < 2 ^ 62; omega)
  · intro g i hg
    simp only [State.mapCtx, State.getF_setCore, State.retire, State.incF]
    rw [State.getF_setF_ne _ _ _ _ _ _ (by rintro ⟨rfl, rfl⟩; simp at hg), State.getF_setF_ne _ _ _ _ _ _ (by rintro ⟨rfl, rfl⟩; simp at hg)]
    exact State.getF_leavePoint s c g i

/-- An instruction that runs is its effect, with its pc advanced and counted. -/
theorem State.instr_runs {s : State} {c len : Nat} {g : Guard} (h : s.runs c g len) (f : State → Eff) :
    s.instr c g len true f = match f (s.leavePoint c) with
      | .next t => (t.retire c (s.ctx c).pc).mapCtx c (fun x => { x with pc := (s.ctx c).pc + BitVec.ofNat 64 len })
      | .jump t p => (t.retire c (s.ctx c).pc).mapCtx c (fun x => { x with pc := p })
      | .left t => t.retire c (s.ctx c).pc
      | .stay t => t
      | .exc e t => t.raise c e := by
  obtain ⟨h1, h2, h3, h4⟩ := h
  have h2' : (s.core c).ctx.pc.toNat % 4 = 0 := h2
  have h4' : ((s.core c).onto (s.core c).ctx).ctx.guardOk g = true := h4
  simp only [State.instr, h1, h2', h3, h4', State.ctx, Bool.not_true, Bool.false_eq_true, if_false, if_true, ne_eq, not_true_eq_false,
    State.fetchOk_leavePoint, State.core_leavePoint]
  all_goals cases f (s.leavePoint c) <;> rfl

/-- A false guard makes any legal instruction one that only advances the pc (R122). -/
theorem State.instr_guardFalse {s : State} {c len : Nat} {g : Guard} (h1 : s.executes c = true) (h2 : (s.ctx c).pc.toNat % 4 = 0)
    (h3 : s.fetchOk c len = true) (h4 : (s.ctx c).guardOk g = false) (f : State → Eff) :
    s.instr c g len true f = ((s.leavePoint c).retire c (s.ctx c).pc).mapCtx c (fun x => { x with pc := (s.ctx c).pc + BitVec.ofNat 64 len }) := by
  have h2' : (s.core c).ctx.pc.toNat % 4 = 0 := h2
  have h4' : ((s.core c).onto (s.core c).ctx).ctx.guardOk g = false := h4
  simp [State.instr, h1, h2', h3, h4', State.ctx]

/-- A core that executes nothing is left alone by every instruction. -/
theorem State.instr_idle {s : State} {c : Nat} (h : s.executes c = false) (g : Guard) (len : Nat) (legal : Bool) (f : State → Eff) :
    s.instr c g len legal f = s := by simp [State.instr, h]

end Sys2Proof.Machine
end

