-- ==== Sys2Proof/Tests/Slice0.lean ====
section
/-!
SUPPORT. The model's own tests: ill-formed commands that the checks refuse, words of Cue instructions written out from Tables 5-6 to
5-9a, single steps on small states, and states that meet the hypotheses of the statements.
-/

namespace Sys2Proof.Tests

open Sys2Proof Sys2Proof.Machine

/-! ### Small states -/

/-- A powered block whose core is out of reset. -/
def up : State :=
  { State.reset with
    edge := { Edge.reset with coreOut := true, pins := { Edge.reset.pins with porstN := true, corePwrOk := true, edgePwrOk := true } } }

/-- `up` with every register at its reset value. -/
def bare : State := { up with regs := [] }

/-- `bare` with registers written. -/
def regd (l : List (Fld × Nat × Nat)) : State := l.foldl (fun s x => s.setF x.1 x.2.1 x.2.2) bare

theorem regd_ok (l : List (Fld × Nat × Nat)) : (regd l).regsOk := by
  have h : ∀ (l : List (Fld × Nat × Nat)) (s : State), s.regsOk → (l.foldl (fun s x => s.setF x.1 x.2.1 x.2.2) s).regsOk := by
    intro l
    induction l with
    | nil => exact fun _ h => h
    | cons x l ih => exact fun s h => ih _ (State.regsOk_setF h _ _ _)
  exact h l bare (State.regsOk_nil rfl)

/-- The guard that is always true. -/
def always : Guard := ⟨false, 0⟩

/-- The guard that is always false. -/
def never : Guard := ⟨true, 0⟩

/-- A descriptor of opcode `opc` with an argument block. -/
def desc (opc argLen : Nat) (inl : Nat) : Desc :=
  { opc := opc, flags := 0, cls := 0, rsv3 := 0, tag := 7, cueEntry := 0x1000, argPtr := 0x2000, argLen := argLen, allowance := 0,
    castId := 0, castVer := 0, seq := 0, chain := 0, inl0 := BitVec.ofNat 64 inl, inl1 := 0, linked := false, chainBad := false, fetchedAt := 0, slot := 0,
    va := 0, depth := 0, hdr := none }

/-- An accepted item of slice 0's queue 0 with a context on core 1. -/
def item (d : Desc) : Item :=
  { queue := 0, slice := 0, desc := d, cls := .be, core := 1, acceptAt := 0, promise := 1000000, timeout := 2000000, sAdm := 1024,
    boundCore := 0, boundFix := 0, energy := 0, power := 0, bytes := 0, loadPower := 0, group := 0, ledger := false, teGrant := 3,
    meGrant := 3, ctx := Ctx.fresh, phase := .running, started := true, winBase := 0x18000, winSize := 0x1000, hasWindow := true,
    castSlot := none, model := none, step := false, runner := none, durResv := 0, links := [], bkOps := [], cause := none,
    withdrawn := none, stopAt := none, doneResult := none, seqKey := none, req := none, newPages := [], isOpen := false, waiting := 0,
    vCode := 26, rt := 0, resv := none, broken := false }

/-- `up` with an open item 5 of a descriptor. -/
def withItem (d : Desc) : State := { up with work := { Work.reset with items := [(5, item d)] } }

/-- `s` with core 1 as `k`. -/
def onCore (s : State) (k : Core) : State := { s with work := { s.work with cores := [(1, k)] } }

/-- Core 1 of a guest context of item 5, with a window of 4 KiB. -/
def guestCore : Core :=
  { Core.fresh with item := some 5, priv := false, ctx := { Ctx.fresh with lsBase := 0x18000, lsSize := 0x1000, pc := 0x1000 } }

/-- Core 1 runs item 5, a RUN, at guest privilege. -/
def guest : State := onCore (withItem (desc 1 0 0)) guestCore

/-- Core 1 runs item 5 at steward privilege with g1 = v. -/
def steward (v : Word) : State := onCore (withItem (desc 1 0 0)) { guestCore with priv := true, ctx := guestCore.ctx.wr 1 v }

/-- A state with a message for a command in front of its queue. -/
def waiting (i : Instr) : State := { up with pending := [i, .secCfgLock] }

/-! ### The step -/

theorem witness_StepRunsFrontCommand : (waiting .prmCountClr).pending = .prmCountClr :: [.secCfgLock] := by decide
theorem witness_StepKeepsCanonical : bare.ok ∧ ∃ t, step bare = .next t := ⟨⟨State.regsOk_nil rfl, by unfold State.memoryOk; decide⟩, _, rfl⟩

/-! ### Cue instructions -/

theorem witness_runs_steward : up.runs 1 always 4 ∧ up.regs.rising = true := ⟨⟨by decide, by decide, by decide, by decide⟩, by decide⟩
theorem witness_runs_guest : guest.runs 1 always 4 ∧ guest.runs 1 always 8 ∧ guest.regs.rising = true :=
  ⟨⟨by decide, by decide, by decide, by decide⟩, ⟨by decide, by decide, by decide, by decide⟩, by decide⟩
theorem witness_FalseGuard : cueForm (.add 1 never 2 3 4) = some (1, never, 4, true) ∧ up.executes 1 = true ∧ (up.ctx 1).pc.toNat % 4 = 0 ∧
    up.fetchOk 1 4 = true ∧ (up.ctx 1).guardOk never = false := by decide
theorem witness_FalseGuard_long : cueForm (.enq 1 never 2 3 4) = some (1, never, 8, true) ∧ guest.fetchOk 1 8 = true := by decide
theorem witness_IdleCore : cueForm (.add 1 always 2 3 4) = some (1, always, 4, true) ∧ State.reset.executes 1 = false := by decide

theorem witness_WindowAccess : ((steward 8).ctx 1).rd 1 = 8 ∧ ((steward 8).ctx 1).lsSize = 0x1000 ∧ ((steward 8).ctx 1).lsBase + 8 + 8 ≤ 0x40000 := by decide
theorem witness_WindowAccess_last : ((steward 0xFF8).ctx 1).rd 1 = 0xFF8 ∧ 0xFF8 % 8 = 0 ∧ 0xFF8 + 8 ≤ ((steward 0xFF8).ctx 1).lsSize := by decide
theorem witness_WindowTraps : ((steward 9).ctx 1).rd 1 = 9 ∧ 9 % 2 ≠ 0 ∧ ((steward 0xFF8).ctx 1).lsSize < 0x1000 + 1 := by decide
theorem witness_StewardException : ((steward 0).core 1).priv = true ∧ (steward 0).inAdapter 1 = false ∧ ((steward 0).core 1).exl = false := by decide
theorem witness_DoubleFault : (({ guestCore with priv := true, exl := true } : Core)).exl = true ∧ (Exc.mk .trap 0 0).cause ≠ .psf := by decide
theorem witness_Eret : ((steward 0).core 1).priv = true ∧ ((steward 0).core 1).serviceAt = none ∧ (guest.core 1).priv = false := by decide
theorem witness_EndSrc : ({ guestCore with priv := true, stack := [(5, 3)] } : Core).stack = ((5 : BitVec 7).toNat, 3) :: [] := by decide

/-- Core 1 holds the line at offset 0x40000000 of this node, which has no number yet, dirty. -/
def owned : State :=
  { steward 0xFFFF000040000000 with
    coh := { up.coh with l0 := [(0x1000000 * 64 + 1, .m)], l1 := [(0x1000000 * 8, .m)] }
    mem := { up.mem with dirty := [(0x1000000, ⟨List.replicate 64 5, 0, false⟩)] } }

theorem witness_OwnedLineStore : owned.holds (owned.lid 0xFFFF000040000000) 1 true = true ∧ localLid (owned.lid 0xFFFF000040000000) = true ∧
    owned.mem.dirty.find (owned.lid 0xFFFF000040000000) = some ⟨List.replicate 64 5, 0, false⟩ ∧ owned.newDirty 0x40000000 8 = [] := by decide
theorem witness_GlobalLoad_align : ((steward 9).ctx 1).rd 1 = 9 ∧ 9 % 2 ≠ 0 ∧ 9 % 4 ≠ 0 ∧ 9 % 8 ≠ 0 := by decide
theorem witness_ControlWords : cwListed 0x07 = true ∧ cwListed 0x10 = true ∧ cwListed 0x0C = true ∧ cwListed 0x0D = false ∧ cwListed 0xFF = false := by decide
theorem witness_Budget : (guest.core 1).item = some 5 ∧ guest.item 5 = some (item (desc 1 0 0)) := by decide
theorem witness_Waite : (guest.ctx 1).busy &&& (3 : BitVec 16).toNat = 0 := by decide
theorem witness_Waite_any : let x := guestCore.ctx.wrH 1 (.done .refused); x.doneMask &&& (2 : BitVec 16).toNat ≠ 0 ∧ x.rdH 1 = .done .refused := by decide
theorem witness_Done : guest.inContext 1 = true ∧ up.inContext 1 = false ∧ (item (desc 1 0 0)).runner = none ∧ (guest.ctx 1).busy = 0 := by decide
theorem witness_Done_busy : let s := onCore guest { guestCore with ctx := guestCore.ctx.wrH 1 (.busy 3) }
    s.inContext 1 = true ∧ (s.loaded 1).isSome = true ∧ (s.ctx 1).busy ≠ 0 := by decide
theorem witness_Signal : 96 ≤ (96 : BitVec 7).toNat ∧ (95 : BitVec 7).toNat < 96 ∧ ((steward 0).core 1).priv = true ∧ (item (desc 1 0 0)).queue < 16384 := by decide
theorem witness_Tissue : (guest.ctx 1).rdH 0 = .free ∧ (item (desc 1 0 0)).teGrant.testBit (1 : BitVec 6).toNat = true ∧
    ((guest.ctx 1).rd 1).toNat + 192 ≤ (guest.ctx 1).lsSize ∧ (guest.ctx 1).lsBase + ((guest.ctx 1).rd 1).toNat + 192 ≤ 0x40000 := by decide
theorem witness_Missue : ((steward 64).ctx 1).rd 1 = 64 ∧ 64 % 64 = 0 ∧ 64 ≤ 2 ^ 32 ∧ (item (desc 1 0 0)).meGrant.testBit (1 : BitVec 6).toNat = true := by decide
theorem witness_IssueTraps : 47 < (48 : BitVec 6).toNat ∧ (48 : BitVec 6).toNat ≠ 63 ∧ 31 < (32 : BitVec 6).toNat ∧
    (guestCore.ctx.wrH 2 (.busy 0)).rdH 2 = .busy 0 ∧ (item (desc 1 0 0)).teGrant.testBit 2 = false ∧ (item (desc 1 0 0)).meGrant.testBit 31 = false := by decide

/-- A ring queue 3 of KIND 2 with 16 entries, and core 1 in a steward context. -/
def ring (tail : Nat) : State :=
  { steward 0 with regs := (regd [(.QCX_STATE_STATE, 3, 1), (.QCX_CFG_KIND, 3, 2), (.QCX_CFG_LOG2_ENTRIES, 3, 4), (.QCX_SQ_PTRS_TAIL, 3, tail)]).regs }

theorem witness_Enq : (ring 15).qState 3 = 1 ∧ (ring 15).getF .QCX_CFG_KIND 3 = 2 ∧ ((ring 15).core 1).priv = true ∧
    (15 + 1) % (ring 15).entries 3 = (ring 15).getF .QCX_SQ_PTRS_HEAD 3 ∧ (ring 15).regs.rising = true := by decide
theorem witness_Enq_room : (14 + 1) % (ring 14).entries 3 ≠ (ring 14).getF .QCX_SQ_PTRS_HEAD 3 ∧ (ring 0).qState 4 = 0 := by decide
theorem witness_CueWords : cueWords (.add 1 always 2 3 4) = some (1, 0x00043200, 0, .expired) := by decide
theorem witness_CueWords_long : ∃ w0 w1, cueWords (.enq 1 always 2 3 4) = some (1, w0, w1, .expired) ∧ longForm w0 = true := ⟨_, _, rfl, by decide⟩

/-- Core 1 with source 96 pending and enabled. -/
def pended : State := { guest with regs := (regd [(.CIC_PEND, 7, 1), (.CIC_EN, 7, 1)]).regs }

theorem witness_InterruptEntry : pended.regs.rising = true ∧ pended.coreUp 1 = true ∧ pended.bitF .CUE_DBG_CTRL_HALTED 1 = false ∧
    (pended.core 1).priv = false ∧ pended.pendingOn 1 96 = true ∧ (pended.core 1).above (pended.prioOf 1 96) = true ∧
    ∀ j, j < 128 → pended.pendingOn 1 j = true → j = 96 := by decide
theorem witness_InterruptHeldOff : ((steward 0).core 1).priv = true ∧ ((steward 0).core 1).ie = false := by decide
theorem witness_Halt : let s := regd [(.CUE_DBG_CTRL_HALT_REQ, 1, 1)]
    s.coreUp 1 = true ∧ s.bitF .CUE_DBG_CTRL_HALT_REQ 1 = true ∧ s.bitF .CUE_DBG_CTRL_HALTED 1 = false ∧ s.itemsWhere (fun x => x.contextOn 1) = [] := by decide
theorem witness_Resume : let s := onCore (regd [(.CUE_DBG_CTRL_HALTED, 1, 1)]) { guestCore with exl := true }
    s.bitF .CUE_DBG_CTRL_HALTED 1 = true ∧ (s.core 1).exl = true ∧ s.regs.rising = true := by decide
theorem witness_DebugData : let s := regd [(.CUE_DBG_CTRL_HALTED, 1, 1), (.CUE_DBG_SEL_SPACE, 1, 4), (.CUE_DBG_SEL_INDEX, 1, 32767)]
    s.bitF .CUE_DBG_CTRL_HALTED 1 = true ∧ s.getF .CUE_DBG_SEL_SPACE 1 = 4 ∧ s.getF .CUE_DBG_SEL_INDEX 1 < 32768 := by decide
theorem witness_Stretch : guest.itemNow 5 = some { item (desc 1 0 0) with ctx := guestCore.ctx } ∧ guest.stretchLen 1 < scale 1024 1000000 ∧
    scale 1024 1000000 ≤ ({ guest with now := 1000000 } : State).stretchLen 1 := by decide


/-! ### Pins, telemetry, Temper -/

theorem witness_ColdReset : up.edge.pins.porstN = true ∧ State.reset.edge.pins.porstN = false := by decide
theorem witness_PowerUp : let s := { State.reset with edge := { up.edge with coreOut := false } }
    s.edge.coreOut = false ∧ s.edge.pins.porstN = true ∧ s.edge.pins.corePwrOk = true ∧ s.edge.pins.edgePwrOk = true ∧ s.recov.warm = none ∧
      s.recov.dump = none ∧ s.regs.rising = true := by decide
theorem witness_WarmReset : bare.regsOk ∧ bare.edge.pins.porstN = true ∧ bare.edge.pst.epoch ≠ .flushing ∧ bare.recov.warm = none ∧
    bare.bitF .FLT_DUMP_CTRL_EN 0 = false := ⟨State.regsOk_nil rfl, by decide⟩
theorem witness_WarmHeld : let s := { up with recov := { up.recov with warm := some ⟨.resetting, 2, false, false, 0⟩ } }
    s.recov.warm.isSome = true ∧ State.reset.edge.pins.corePwrOk = false ∧ State.reset.recov.warmHeld = none := by decide

/-- Module 1 of die 1 as `x`. -/
def module1 (x : IaModule) : State := { up with edge := { up.edge with ia := [(5, x)] } }

theorem witness_DieModules : (module1 ⟨.training, .l0⟩).edge.ia.find (1 * 4 + 1) = some ⟨.training, .l0⟩ ∧ (module1 ⟨.full, .l0⟩).edge.ia.rising = true ∧
    (module1 ⟨.full, .l0⟩).moduleBusy 1 1 = false ∧ up.edge.ia.find 0 = none := by decide
theorem witness_DieModules_busy : let s := { regd [(.FIL_PORT_CTRL_ENABLE, 10, 1), (.FIL_PORT_STAT_STATE, 10, 2)] with edge := (module1 ⟨.full, .l1⟩).edge }
    s.moduleBusy 1 1 = true ∧ s.edge.ia.find 5 = some ⟨.full, .l1⟩ := by decide
theorem witness_Tref : let s := { up with edge := { up.edge with trefLostAt := some 5 }, now := 5 + 10000000000 }
    s.now ≤ 5 + 10000000000 ∧ 5 + 10000000000 < ({ s with now := s.now + 1 } : State).now ∧ up.edge.trefLostAt = none := by decide
theorem witness_Telemetry : bare.tlmOk [] = false ∧ bare.stale = true ∧ bare.temper.quenchW = 0 ∧ bare.edge.pins.edgePwrOk = true := by decide
theorem witness_Telemetry_stale : let s := { up with temper := { up.temper with staleAt := some 0 }, now := 1000000 }
    s.stale = true ∧ s.temper.staleLogged = false ∧ 0 + 1000000 ≤ s.now := by decide
theorem witness_Voltage : let s := { up with edge := { up.edge with pins := { up.edge.pins with vidReq := true, vidCode := 46 }, vidAt := 0 }, now := 250000 }
    s.edge.pins.vidReq = true ∧ s.edge.pins.vidAck = false ∧ s.edge.pins.vidCode < 64 ∧ s.edge.vidLate = false ∧ s.edge.vidAt + 250000 ≤ s.now := by decide
theorem witness_Burnish : State.reset.coreOn = false ∧ up.coreOn = true ∧ up.edge.trefLostAt = none ∧ up.temper.badMon = [] := by decide
theorem witness_Temper : (regd [(.TMP_STATUS_THERMAL_HIGH, 0, 1)]).bitF .TMP_STATUS_THERMAL_HIGH 0 = true ∧
    bare.tmpState = 0 ∧ (∀ j ∈ [(-128 : Int), 109], -128 ≤ j ∧ j < 110) ∧ ∃ j ∈ [(115 : Int)], 115 ≤ j := by decide

/-- An open cleaning epoch 0 that is committed, with page 4 in flight and page 5 dirty. -/
def cleaning : State :=
  { up with regs := (regd [(.BLK_STATE_STATE, 0, 2)]).regs, edge := { up.edge with pst := ⟨.cleaning, 0, 0, true⟩ }, temper := { up.temper with dur := [(4, .inflight 0), (5, .dirty)] } }

theorem witness_Persist : cleaning.edge.pst.epoch = .cleaning ∧ cleaning.edge.pst.committed = true ∧ cleaning.pstEpoch = 0 ∧ cleaning.temper.dur.rising = true ∧
    up.pstAnswers 0 = false ∧ up.edge.pst.epoch = .none := by decide
theorem witness_Persist_region : up.bitF .TMP_DUR_SIZE_EN 63 = false ∧ up.durOk 63 = false := by decide

/-! ### Queues and items -/

/-- Queue 3 of PF0 of host port 0, ACTIVE, with 16 entries, and registers written over that. -/
def queue3 (l : List (Fld × Nat × Nat)) : State :=
  regd ([(.QCX_STATE_STATE, 3, 1), (.QCX_CFG_LOG2_ENTRIES, 3, 4), (.QCX_OWNER_PF, 3, 1), (.SLC_STATE_STATE, 0, 2)] ++ l)

theorem witness_Doorbell : let s := { queue3 [] with recov := { up.recov with pfServed := true } }
    s.pathShut (.hostPf 0) = false ∧ s.closed = false ∧ s.qState 3 = 1 ∧ s.queuePath 3 (.hostPf 0) = true ∧ s.getF .QCX_CFG_KIND 3 < 2 ∧
      15 < s.entries 3 ∧ ¬ 16 < s.entries 3 := by decide
theorem witness_Doorbell_cancel : let s := { queue3 [(.QCX_STATE_CANCEL_EN, 3, 1)] with work := { Work.reset with items := [(5, { item (desc 1 0 0) with queue := 3 })] } }
    s.bitF .QCX_STATE_CANCEL_EN 3 = true ∧ s.itemsWhere (fun x => x.queue == 3 && !x.step && x.desc.tag == 7) = [(5, { item (desc 1 0 0) with queue := 3 })] := by decide
theorem witness_Doorbell_free : (regd [(.SLC_STATE_STATE, 0, 2)]).qState 4 = 0 ∧ bare.closed = false ∧ (queue3 []).queuePath 3 (.hostPf 1) = false := by decide
theorem witness_TailLine : (queue3 [(.QCX_CFG_KIND, 3, 3)]).getF .QCX_CFG_KIND 3 = 3 ∧ (queue3 []).regs.rising = true := by decide

/-- Queue 3 bound to core 1 with one descriptor to fetch. -/
def fetching : State := (queue3 [(.QCX_SQ_PTRS_TAIL, 3, 1), (.QCX_CFG_BE_OK, 3, 1), (.QCX_BIND_CORE, 3, 1), (.BLK_STATE_STATE, 0, 2)]).setQx 3 { QueueX.fresh with readyAt := some 0 }

theorem witness_DescriptorFetch : fetching.coreUp 1 = true ∧ fetching.records 1 < 64 ∧ fetching.turn 1 = some 3 ∧ (fetching.qx 3).chain = none := by decide
theorem witness_Admission : let s := (queue3 []).setQx 3 { QueueX.fresh with fetched := [desc 4 0 0] }
    (s.qx 3).fetched = desc 4 0 0 :: [] ∧ s.qState 3 = 1 ∧ s.getF .SLC_STATE_STATE (s.qSlice 3) = 2 ∧ s.bitF .SLC_STATE_RESETTING (s.qSlice 3) = false := by decide
theorem witness_Admission_paused : ((queue3 [(.QCX_STATE_STATE, 3, 2)]).setQx 3 { QueueX.fresh with fetched := [desc 4 0 0] }).qState 3 ≠ 1 := by decide
theorem witness_Run : let x := { item (desc 1 0 0) with started := false, phase := .accepted }
    let s := { up with work := { Work.reset with items := [(5, x)] } }
    s.idleCore x.core = true ∧ ((s.stageSteps x.core).choose x.core).1 = some (5, false) := by decide
theorem witness_Fence : (withItem (desc 3 0 0)).item 5 = some (item (desc 3 0 0)) ∧ (withItem (desc 3 0 0)).oldestOf 0 = some 5 ∧
    ({ withItem (desc 3 0 0) with work := { Work.reset with items := [(4, item (desc 1 0 0)), (5, item (desc 3 0 0))] } } : State).oldestOf 0 ≠ some 5 := by decide
theorem witness_Completion : (queue3 [(.QCX_CQ_PTRS_TAIL, 3, 15)]).getF .QCX_CQ_PTRS_TAIL 3 < (queue3 []).entries 3 ∧ (queue3 []).entries 3 ≤ 2 ^ 16 ∧
    ((queue3 []).qx 3).held = [] ∧ (queue3 []).qState 4 = 0 := by decide
theorem witness_ItemEnd : let x := { item (desc 1 0 0) with cause := some causeCancel, phase := .stopping }
    let s := { up with work := { Work.reset with items := [(5, x)] } }
    s.released 5 = true ∧ s.isRunning 5 = false ∧ s.inRunningStep 5 = false ∧ causeCancel.complete = true := by decide
theorem witness_Limits : let s := withItem (desc 1 0 0)
    s.itemNow 5 = some (item (desc 1 0 0)) ∧ s.now < 0 + 2000000 ∧ 0 + 2000000 ≤ ({ s with now := 2000000 } : State).now ∧
      (item (desc 1 0 0)).withdrawn = none ∧ (item (desc 1 0 0)).req = none := by decide
theorem witness_QueueOps : (queue3 []).qState 3 ≠ 4 ∧ (item (desc 0x89 0 3)).inl % 2 ^ 14 = 3 ∧ (desc 0x88 32 0).argLen ≠ 64 ∧ (desc 0x88 64 0).flags.testBit 2 = false := by decide
theorem witness_QueueRelease : let s := (queue3 [(.QCX_STATE_STATE, 3, 4)]).setQx 3 { QueueX.fresh with destroyItem := some 9 }
    s.qState 3 = 4 ∧ s.itemsWhere (fun z => z.queue == 3 && !z.step) = [] ∧ s.tokensOpen 3 = false ∧ (s.qx 3).destroyItem = some 9 := by decide
theorem witness_QueueZero : bare.qState 0 = 0 ∧ (regd [(.QCX_CFG_LOG2_ENTRIES, 0, 3)]).getF .QCX_CFG_LOG2_ENTRIES 0 < 4 ∧
    (regd [(.QCX_CFG_LOG2_ENTRIES, 0, 4)]).getF .QCX_CFG_LOG2_ENTRIES 0 = 4 ∧ bits (bare.getF .QCX_TIMEOUT 0) 30 2 ≠ 3 := by decide

/-! ### Casts, backends, models, engines -/

theorem witness_Cast : (withItem (desc 0x90 32 0)).live 5 0x90 = some (item (desc 0x90 32 0)) ∧ (withItem (desc 0x91 32 0)).live 5 0x91 = some (item (desc 0x91 32 0)) ∧
    up.work.castPend = none ∧ up.bitF .CST_CAST_VALID 7 = false := by decide
theorem witness_Switch : let s := { withItem (desc 0x90 32 0) with work := { (withItem (desc 0x90 32 0)).work with castPend := some ⟨7, 0, false, 5, parseCast [] 0⟩ } }
    s.live 5 0x90 = some (item (desc 0x90 32 0)) ∧ s.bitF .CST_CAST_VALID 7 = false := by decide

/-- An empty bound header. -/
def noHdr : Hdr := ⟨0, 0, 0, 0, 0, 0, 0, 0, 0⟩

/-- Backend 2 with an operation of token 9 under way since time 0. -/
def backend2 : State :=
  { regd [(.CST_BK_STATE_STATE, 2, 1)] with
    work := { (withItem (desc 2 0 0)).work with backends := [(2, ⟨0, 4, 0, 0, 0, 0, 0, 0, 0, 0, 3, 0, 1, [(9, ⟨5, 0, 0, 0, 0, false⟩)], [], 0, [], noHdr, noHdr, 0, none⟩)] } }

theorem witness_Backend : backend2.getF .CST_BK_STATE_STATE 2 ≠ 0 ∧ (backend2.work.backends.find 2).bind (fun k => k.tokens.find 8) = none ∧
    (backend2.work.backends.find 2).bind (fun k => k.tokens.find 9) = some ⟨5, 0, 0, 0, 0, false⟩ ∧ up.getF .CST_BK_STATE_STATE 2 = 0 := by decide
theorem witness_BackendLate : let s := { backend2 with now := 10 ^ 12 }
    0 + s.wBound 2 ≤ s.now ∧ s.itemNow 5 = some (item (desc 2 0 0)) := by decide
theorem witness_CastNode : let s := onCore { up with work := { Work.reset with items := [(5, { item (desc 2 0 0) with runner := some ⟨[], [], none, 0⟩ })] } } { guestCore with priv := true }
    (s.core 1).item = some 5 ∧ (s.core 1).serviceAt = none ∧ up.item 5 = none := by decide
theorem witness_Model : (withItem (desc 0xA0 0 3)).live 5 0xA0 = some (item (desc 0xA0 0 3)) ∧ (item (desc 0xA0 0 3)).inl % 2 ^ 10 = 3 ∧
    up.modelValid 3 = false ∧ (regd [(.SRV_MDL_CTRL_PINNED, 3, 1)]).bitF .SRV_MDL_CTRL_PINNED 3 = true ∧ up.serve.load = none := by decide
theorem witness_Load : let s := { up with serve := { up.serve with load := some ⟨3, 10, 20, false, 0, []⟩ } }
    s.serve.load = some ⟨3, 10, 20, false, 0, []⟩ ∧ s.now < 10 ∧ 10 ≤ ({ s with now := 10 } : State).now := by decide
theorem witness_Step : (up.chain 3).steps.find? (fun k => k.started) = none ∧
    (({ up with serve := { up.serve with chains := [(3, ⟨[⟨0, 0, 0, 1, [6], [], true, 1, none, [], 0⟩], 0, 0, []⟩)] } } : State).chain 3).steps.find? (fun k => k.started) =
      some ⟨0, 0, 0, 1, [6], [], true, 1, none, [], 0⟩ := by decide

/-- A running step of model 3 with member 5, which has no output; its batch table stands at 64, RESULT 42 in its first entry. -/
def tabled : State :=
  let y := item (desc 2 0 0)
  { up with
    work := { up.work with items := [(5, y)] }
    serve := { up.serve with
      chains := [(3, ⟨[⟨0, 0, 0, 1, [5], [], true, 1, some 64, [⟨5, 512⟩], 0⟩], 0, 1, []⟩)]
      stage := [⟨3, 64, .bytes (List.replicate 112 0 ++ [42] ++ List.replicate 15 0)⟩] } }

set_option maxRecDepth 8000 in
theorem witness_StepResult : (tabled.collectMember 0 ⟨0, 0, 0, 1, [5], [], true, 1, some 64, [⟨5, 512⟩], 0⟩ 5).1.toOption = some 42 ∧
    (tabled.copyOut (secOfCore 1) 5 (item (desc 2 0 0)) ⟨5, 512⟩).1 = none ∧ tabled.isCut 5 = false := by decide
set_option maxRecDepth 8000 in
/-- A withdrawn member of a running step is marked DROPPED in its entry, and leaves the step (Tables 8-4 and 8-5). -/
theorem test_member_dropped : let s := tabled.updItem 5 (fun y => { y with withdrawn := some ⟨0, 0, false, none, none⟩ })
    let t := s.dropMembers { item (desc 2 0 0) with step := true, model := some 3 }
    t.stageRead 132 1 = [8] ∧ (t.item 5).isNone = true := by decide

/-- Operation 4 of item 5, which waits for a unit. -/
def op (on : UnitId) (phase : OpPhase) : Op :=
  ⟨5, some 0, none, on, 2, .be, 0, List.replicate 128 0, 0, 0, true, 64, true, 64, false, phase, false, 0, 0, 0, .ok, 0, TenRun.fresh⟩

/-- Operation 4 of item 5 on a unit. -/
def withOp (on : UnitId) (phase : OpPhase) : State := { guest with work := { guest.work with ops := [(4, op on phase)], nextOp := 5 } }

theorem witness_Tensor : (withOp (.te 2) .waiting).work.ops.find 4 = some (op (.te 2) .waiting) ∧ (withOp (.te 2) .waiting).unitUp (.te 2) = true ∧
    (withOp (.te 2) .waiting).nextOn (.te 2) = some 4 ∧ (parseTod (op (.te 2) .waiting).tod).kindOk = false := by decide
theorem witness_EngineUnit : unitOf 2 = some (.te 2) ∧ ((withOp (.te 2) .running).onUnit (.te 2)).find? (fun y => y.2.active) = some (4, op (.te 2) .running) ∧
    (up.onUnit (.te 2)).find? (fun y => y.2.active) = none ∧ 0 + 1000000 ≤ ({ withOp (.te 2) .running with now := 1000000 } : State).now := by decide
theorem witness_Move : (withOp (.me 2) .running).moveNow 2 = some 4 ∧ (withOp (.me 2) .running).unitUp (.me 2) = true ∧
    (withOp (.me 2) .running).item 5 = some (item (desc 1 0 0)) ∧ (op (.me 2) .running).active = true ∧ (withOp (.me 2) .running).onUnit (.me 2) ≠ [] := by decide

/-! ### Pool memory and coherence -/

theorem witness_Map : (regd [(.MEM_MAP_LOCK, 0, 1)]).bitF .MEM_MAP_LOCK 0 = true ∧ up.bitF .MEM_MAP_LOCK 0 = false ∧ up.bitF .MEM_INV_CTRL_BUSY 0 = false ∧
    (regd [(.MEM_INV_CTRL_BUSY, 0, 1)]).bitF .MEM_INV_CTRL_BUSY 0 = true ∧ up.bitF .MEM_HDM_CTRL_EN 7 = false := by decide
theorem witness_Stack : let s := regd [(.MEM_STK_STAT_STATE, 3, 1), (.MEM_STK_STAT_LAST_STEP, 3, 4)]
    s.getF .MEM_STK_STAT_STATE 3 = 1 ∧ s.getF .MEM_STK_STAT_LAST_STEP 3 < 5 ∧ up.getF .MEM_STK_STAT_STATE 3 ≠ 1 ∧ (up.stackX 3).moves.contains 8 = false := by decide

/-- A message about the line at offset 0x40000000 of this node, which has no number yet. -/
def msg (src : Who) : Msg :=
  ⟨.rdShr, src, 0xFFFF, 0xFFFF, 0xFFFF000040000000, 0, 0, 0, 3, 0, 0, 0, 0, List.replicate 64 1, false, false, false, 1, false⟩

theorem witness_Request : State.reset.edgeAnswers = true ∧ up.coh.recallAt = none ∧ (msg (.node 9)).src = .node 9 ∧ up.region (offOf (msg (.node 9))) = .none := by decide
theorem witness_Answers : up.activeTxn (lineOf (msg (.host 0))) = none ∧ (msg (.host 0)).src = .host 0 ∧ up.ent (lineOf (msg (.host 0))) = none := by decide

/-- A read of host 0 that waits for host 1's answer. -/
def txn : Txn := ⟨0, 0x1000000, .rdShr, .host 0, msg (.host 0), 0, 0, false, false, [.host 1], false, false, none, false, 0, 0⟩

theorem witness_Answers_snoop : let s := { up with coh := { up.coh with txns := [(6, txn)] } }
    s.activeTxn (lineOf (msg (.host 1))) = some (6, txn) ∧ Who.host 1 ∈ txn.snoops ∧ s.coh.txns.find 6 = some txn ∧ txn.waiting = false ∧
      0 + s.getF .COH_CTRL_SNP_LIMIT_US 0 * 1000 ≤ ({ s with now := 10 ^ 9 } : State).now := by decide
theorem witness_Members : let s := { up with coh := { up.coh with l1 := [(0x1000000 * 8 + 1, .m)], l0 := [(0x1000000 * 64 + 20, .evicting)] } }
    s.l1 (s.lid (msg (.gateway 1)).addr) 1 = .m ∧ (∀ c ∈ coresOfSec 1, s.l0 (s.lid (msg (.gateway 1)).addr) c = .i) ∧
      s.l0 (s.lid (msg (.core 20)).addr) 20 = .evicting ∧ s.coh.l0.rising = true := by decide
theorem witness_Grants : let e : DirEnt := ⟨0, 0, false, 3, false, 0, 0, 0xFF, 0, 0, 0⟩
    e.holders.filter (· ≠ Who.host 0) = [] ∧ ¬ (e.sum = 0 ∧ e.names (.host 0) = true) ∧ (e.add (.host 1)).holders.filter (· ≠ Who.host 0) ≠ [] := by decide
theorem witness_Ticket : let s := { up with coh := { up.coh with tickets := [(ticketKey 2 5, ⟨.host 0, some 0, 0⟩)] }, now := 10 ^ 9 }
    s.coh.tickets.find (ticketKey 2 5) = some ⟨.host 0, some 0, 0⟩ ∧ 0 + s.getF .COH_CTRL_STAKE_LIFE_US 0 * 1000 ≤ s.now := by decide
theorem witness_Recall : let s := { up with coh := { up.coh with recallAt := some 10, peers := [0xFFFF] } }
    s.coh.recallAt = some 10 ∧ s.now < 10 ∧ s.coh.peers = [(msg (.node 9)).srcNode] ∧ up.coh.l1 = [] := by decide

/-! ### Filigree, interrupts, mailboxes -/

theorem witness_Ports : up.portPresent 7 = true ∧ up.portState 7 = 0 ∧ up.portLive 7 = false ∧ up.channelOpen 7 = false ∧
    (regd [(.FIL_PORT_STAT_STATE, 7, 2)]).portLive 7 = true ∧ (up.port 7).retryAt = none := by decide
theorem witness_Training : let s := { regd [(.FIL_PORT_STAT_STATE, 10, 1), (.FIL_PORT_CTRL_ENABLE, 10, 1)] with edge := (module1 ⟨.full, .l0⟩).edge }
    s.portState 10 = 1 ∧ s.channelOpen 10 = true ∧ (List.replicate 16 (70 : Nat)).length = 16 := by decide
theorem witness_Link : (regd [(.FIL_PORT_STAT_STATE, 7, 1)]).portState 7 = 1 ∧ (msg (.node 9)).dst = up.node ∧ (up.port 7).egress = [] ∧
    ({ msg (.node 9) with dst := 4 } : Msg).dst ≠ up.node := by decide
theorem witness_Cic : bare.regsOk ∧ (bare.qx 3).timer = none ∧ (∃ i, i < 128 ∧ cicSettable i = true) ∧ ∃ i, i < 128 ∧ cicSettable i = false :=
  ⟨State.regsOk_nil rfl, by decide, ⟨96, by decide, by decide⟩, ⟨6, by decide, by decide⟩⟩
theorem witness_Moderator : ((bare.setQx 3 { QueueX.fresh with timer := some 5 }).qx 3).timer = some 5 := by decide

/-- Channel 4 bound to core 1's steward on side A and to the manager on side B. -/
def channel4 : State := regd [(.MBX_BIND_SIDE_A, 4, 0x10010000), (.MBX_BIND_SIDE_B, 4, 0x40000000)]

theorem witness_Mailboxes : channel4.regs.rising = true ∧ channel4.mbxAccess 4 (.steward 2) = .inr 2 ∧ channel4.sideOf 4 (.steward 2) = none ∧
    channel4.sideOf 4 (.steward 1) = some false ∧ channel4.farOff 4 false = true := by decide
/-- `channel4` with the management source reachable and one word posted by the steward. -/
def posted : State :=
  { channel4 with
    edge := { up.edge with hostUp := [0] }
    mbx := { up.mbx with dirs := [(8, ⟨Vector.replicate 8 9, 1, true⟩)] } }
theorem witness_Mailboxes_post : posted.mbxAccess 4 (.steward 1) = .inl false ∧ (posted.mbxDir 4 false).full = true ∧
    ({ posted with mbx := up.mbx } : State).mbxAccess 4 (.steward 1) = .inl false ∧
    (({ posted with mbx := up.mbx } : State).mbxDir 4 false).full = false ∧ (8 : W32).toNat % 16 ≤ 8 ∧
    posted.mbxAccess 4 .manager = .inl true ∧ (posted.mbxDir 4 (!true)).full = true := by decide

/-! ### Slices -/

theorem witness_Create : (withItem (desc 0x80 64 0)).live 5 0x80 = some (item (desc 0x80 64 0)) ∧ (desc 0x80 64 0).flags.testBit 2 = false ∧
    (desc 0x80 32 0).argLen ≠ 64 ∧ up.sliceBlockOk (List.replicate 64 0) = false ∧ up.isFull = false := by decide
theorem witness_Create_good : up.sliceBlockOk ([1, 0, 16, 0, 1, 0, 4, 0] ++ List.replicate 56 0) = true := by decide
theorem witness_Freeze : let s := { withItem (desc 0x82 0 9) with regs := (regd [(.SLC_STATE_STATE, 9, 2)]).regs }
    s.live 5 0x82 = some (item (desc 0x82 0 9)) ∧ (item (desc 0x82 0 9)).inl % 4096 = 9 ∧ s.slcState 9 = 2 ∧ (s.sliceX 9).freezeItem ≠ some 5 := by decide
theorem witness_FreezeDone : let s := (regd [(.SLC_STATE_STATE, 9, 3)]).setSliceX 9 { SliceX.fresh with freezeItem := some 5 }
    (s.sliceX 9).freezeItem = some 5 ∧ s.slcState 9 = 3 ∧ s.openItems 9 = [] ∧ s.bitF .SLC_STATE_RESETTING 9 = false := by decide
theorem witness_Thaw : let s := { withItem (desc 0x85 0 9) with regs := (regd [(.SLC_STATE_STATE, 9, 3), (.SLC_STATE_FREEZE_DONE, 9, 1)]).regs }
    s.live 5 0x85 = some (item (desc 0x85 0 9)) ∧ s.slcState 9 = 3 ∧ s.bitF .SLC_STATE_FREEZE_DONE 9 = true := by decide
theorem witness_SliceReset : let s := regd [(.SLC_STATE_STATE, 9, 2)]
    s.bitF .SLC_HOST_BOUND 9 = false ∧ s.slcState 9 < 4 ∧ s.bitF .SLC_STATE_RESETTING 9 = false ∧ s.sliceItems 9 = [] ∧ s.sliceSeqs 9 = [] ∧
      (regd [(.SLC_STATE_RESETTING, 9, 1)]).sliceHeld 9 = false := by decide
theorem witness_Retire : let s := { withItem (desc 0x86 0 9) with regs := (regd [(.SLC_STATE_STATE, 9, 2), (.SLC_STATE_KEY, 9, 1)]).regs }
    s.live 5 0x86 = some (item (desc 0x86 0 9)) ∧ s.slcState 9 = 2 ∧ s.hdmUses (s.sliceKey 9) = false ∧ (s.sliceX 9).retireItem ≠ some 5 := by decide
theorem witness_Zeroise : let s := (regd [(.SLC_STATE_STATE, 9, 4), (.SLC_STATE_KEY, 9, 1)]).setSliceX 9 { SliceX.fresh with retireItem := some 5 }
    s.slcState 9 = 4 ∧ s.sliceQueues 9 = [] ∧ s.heldRefs 9 = 0 ∧ (s.sliceX 9).retireItem = some 5 := by decide
theorem witness_Scrub : let s := { regd [(.SLC_STATE_STATE, 9, 5)] with slices := { up.slices with scrub := [9] } }
    s.slcState 9 = 5 ∧ s.slices.scrub.head? = some 9 := by decide
theorem witness_Quarantine : let s := { bare with slices := { up.slices with keys := [(1, ⟨.draining, true, 0, 3⟩)] }, now := 10 ^ 12 }
    s.recov.warm = none ∧ (s.keySlot 1).state = .draining ∧ (s.keySlot 1).zeroised = true ∧ 0 + s.getF .SLC_CFG_QUAR_MS 0 * 1000000 ≤ s.now := by decide
theorem witness_RecScrub : let s := { bare with slices := { up.slices with recScrub := [9] } }
    s.coreOn = true ∧ s.slices.recScrub.contains 9 = true ∧ bare.slices.recScrub.contains 9 = false := by decide
theorem witness_Migration : (withItem (desc 0x83 32 0)).live 5 0x83 = some (item (desc 0x83 32 0)) ∧ (withItem (desc 0x84 32 0)).live 5 0x84 = some (item (desc 0x84 32 0)) ∧
    up.pairingWith 7 = none ∧ up.bitF .SLC_DLOG_CTRL_EN 0 = false ∧ up.bitF .SLC_XFER_CTRL_BUSY 0 = false := by decide
theorem witness_Mover : (regd [(.SLC_XFER_CTRL_BUSY, 0, 1)]).bitF .SLC_XFER_CTRL_BUSY 0 = true ∧ (regd [(.SLC_DLOG_CTRL_BUSY, 0, 1)]).bitF .SLC_DLOG_CTRL_BUSY 0 = true ∧
    ∀ k ∈ bare.coh.txns, k.2.kind ≠ .snpShr := by decide

/-! ### Hallmark -/

/-- Host port 0's link is up, its SPDM connection stands negotiated, and session 0 is established there. -/
def talking : State :=
  { up with edge := { up.edge with hostUp := [0] }, sec := { up.sec with conns := [(.host 0, ⟨.negotiated, 0, [], [], []⟩)], sessions := [(0, ⟨.host 0, true, false, 0, 0, 0, 0⟩)] } }

theorem witness_Spdm : up.spdmUp (.host 0) = false ∧ talking.spdmUp (.host 0) = true ∧ talking.spdmBusy = false ∧ talking.spdmPhase (.host 0) = .negotiated ∧
    talking.sessionsFull (.host 0) = false ∧ talking.sec.sessions.find 0 = some ⟨.host 0, true, false, 0, 0, 0, 0⟩ ∧ talking.sec.sessions.find 1 = none := by decide
theorem witness_Spdm_busy : ({ talking with recov := { up.recov with warm := some ⟨.resetting, 2, false, false, 0⟩ } } : State).spdmBusy = true := by decide
theorem witness_Spdm_lapse : (0 : Nat) + 120000000000 ≤ ({ talking with now := 120000000000 } : State).now := by decide
theorem witness_Spdm_link : (regd [(.FIL_PORT_STAT_STATE, 0, 2)]).portLive ((regd [(.FIL_PORT_STAT_STATE, 0, 2)]).getF .SEC_LINK_CTRL_PORT 0) = true ∧
    bare.bitF .SEC_LINK_CTRL_BUSY 0 = false ∧ bare.getF .SEC_MIG_CTRL_STATE 3 ≠ 1 ∧ bare.sec.pairings.find 3 = none := by decide
theorem witness_Ide : (∃ kv ∈ talking.sessionsOn (.host 0), kv.2.established = true) ∧ talking.sec.tdis.rising = true := ⟨⟨_, List.mem_cons_self, rfl⟩, by decide⟩
theorem witness_Ide_none : ¬ ∃ kv ∈ ({ talking with sec := up.sec } : State).sessionsOn (.host 0), kv.2.established = true := by decide

/-! ### Resets, start, Touchstone, registers -/

theorem witness_Resets : up.canReset 47 = true ∧ up.canReset (63 + 56) = true ∧ up.canReset (31 + 120) = true ∧ up.canReset (7 + 152) = true ∧
    State.reset.canReset 0 = false := by decide
theorem witness_UnitReset : let s := { up with recov := { up.recov with resets := [(47, ⟨0, false, 0⟩)] }, now := 2000000 }
    s.recov.resets.find 47 = some ⟨0, false, 0⟩ ∧ 0 + 2000000 ≤ s.now ∧ s.recov.resets.find 46 = none := by decide
theorem witness_SectionReset : let s := { up with recov := { up.recov with resets := [(152, ⟨0, true, 0⟩)] } }
    s.recov.resets.find (0 + 152) = some ⟨0, true, 0⟩ ∧ s.now < 0 + 400000000 := by decide
theorem witness_Readmit : let s := regd [(.BLK_STATE_STATE, 0, 5), (.BLK_STATE_READY, 0, 1)]
    s.blkState = 5 ∧ s.bitF .BLK_STATE_READY 0 = true := by decide
theorem witness_Dump : let s := { up with recov := { up.recov with dump := some ⟨0, 168, 0⟩ }, now := 6000000 }
    s.recov.dump = some ⟨0, 168, 0⟩ ∧ 0 + 10000 ≤ s.now ∧ 0 + 6000000 ≤ s.now ∧ up.recov.dump = none := by decide
theorem witness_StageBegin : up.stagesOn = true ∧ up.stageDone 1 = false ∧ up.stage 1 = none ∧ up.stageLeftOut 1 = false ∧
    (∀ m ∈ stageAfter 1, up.stageDone m = true) ∧ ∃ m ∈ stageAfter 7, up.stageDone m = false := by decide

/-- Stage `n` runs. -/
def staged (n : Nat) (l : List (Fld × Nat × Nat)) : State := { regd l with recov := { up.recov with stages := [(n, ⟨true, 0, 0, none⟩)] } }

theorem witness_StageComplete : (staged 2 [(.PRM_STATUS_SG_WARM, 0, 1)]).stageRuns 2 = true ∧ (staged 2 [(.PRM_STATUS_SG_WARM, 0, 1)]).stageMet 2 = true ∧
    (staged 2 []).stageMet 2 = false ∧ up.stageRuns 2 = false := by decide
theorem witness_StageFail : (staged 5 []).stagesOn = true ∧ (staged 5 []).stageRuns 5 = true := by decide
theorem witness_StageRetry : let s := { bare with recov := { up.recov with stages := [(3, ⟨false, 0, 1, some 10⟩)] } }
    s.stage 3 = some ⟨false, 0, 1, some 10⟩ ∧ s.stagesOn = true ∧ s.stageDone 3 = false ∧ s.now < 10 := by decide
theorem witness_Image : (staged 4 [(.BLK_IMG_CTRL_BUSY, 0, 1), (.BLK_IMG_ADDR, 0, 5)]).imageFetches = true ∧ (staged 4 []).stageRuns 4 = true ∧
    (staged 4 []).bitF .BLK_IMG_CTRL_BUSY 0 = false ∧ imageCheck [] true ≠ 0 := by decide
theorem witness_Touchstone : (withItem (desc 0xB0 0 0)).live 5 0xB0 = some (item (desc 0xB0 0 0)) ∧ touchArgBad 0 = true ∧ touchArgBad 0xFFFF0001 = false ∧
    bits 0x10 4 2 ≠ 0 ∧ up.work.touches.find 5 = none := by decide
theorem witness_Touchstone_borrow : let y : Touch := ⟨1, 0xFFFF, 100, none, 0xFFFF, 0, 0⟩
    let s := { withItem (desc 0xB0 0 0) with work := { (withItem (desc 0xB0 0 0)).work with touches := [(5, y)] } }
    s.work.touches.find 5 = some y ∧ s.borrows y 56 = true ∧ s.now < y.deadlineAt ∧ y.left ≠ 0 := by decide
/-- `up` with host port 0's requests answered. -/
def served : State := { up with recov := { up.recov with pfServed := true } }

theorem witness_RegisterWrites : served.refusal (.hostPf 0) 0xFFFC 4 true = none ∧ served.refusal (.hostPf 0) 0xFFF8 8 true = none ∧ regAt 0xFFFC = none ∧ served.toSecondary 0xFFFC = false ∧
    mbxWindow 0xFFFC = false ∧ logWindow 0xFFFC = false := by decide
theorem witness_RegisterWrites_halves : served.refusal (.hostPf 0) 0x50000 4 true = none ∧
    (regAt 0x50000).any (fun x => x.1.bits == 64 && x.2.2 == 0) = true ∧ (regAt 0x50204).any (fun x => x.1.bits != 64) = true ∧
    (regAt 0x50004).any (fun x => x.1.bits == 64 && x.2.2 != 0) = true ∧ mbxWindow 0x50004 = false ∧ logWindow 0x50004 = false := by decide
theorem witness_RegisterWrites_refused : up.refusal (.hostPf 1) 0x20000 4 true = some 6 := by decide

/-! ### Ill-formed commands -/

theorem test_wf_core : (Instr.interruptEntry 64).wellFormed = false ∧ (Instr.add 64 always 1 2 3).wellFormed = false := by decide
theorem test_wf_section : (Instr.sectionReset 8).wellFormed = false := by decide
theorem test_wf_home : (Instr.directoryWalkDone 8).wellFormed = false := by decide
theorem test_wf_engine : (Instr.moveReset 32).wellFormed = false := by decide
theorem test_wf_tensor_unit : (Instr.teReset 56).wellFormed = false := by decide
theorem test_wf_unit : (Instr.unitResetTimeout 152).wellFormed = false := by decide
theorem test_wf_touch_unit : (Instr.touchstoneBorrow 0 161).wellFormed = false := by decide
theorem test_wf_stack : (Instr.stackTrainTimeout 20).wellFormed = false := by decide
theorem test_wf_die : (Instr.iaModuleFail 8 0).wellFormed = false := by decide
theorem test_wf_module : (Instr.iaModuleFail 7 4).wellFormed = false := by decide
theorem test_wf_filigree_port : (Instr.portEnable 64).wellFormed = false := by decide
theorem test_wf_host_port : (Instr.hostLinkUp 8).wellFormed = false := by decide
theorem test_wf_function : (Instr.functionLevelReset 0 512).wellFormed = false := by decide
theorem test_wf_line : (Instr.stakeRetry (2 ^ 58)).wellFormed = false := by decide
theorem test_wf_queue : (Instr.queueReleaseDone 16384).wellFormed = false := by decide
theorem test_wf_slice : (Instr.slcReset 4096).wellFormed = false := by decide
theorem test_wf_model : (Instr.stepStart 1024).wellFormed = false := by decide
theorem test_wf_backend : (Instr.backendWboundExpiry 64 0).wellFormed = false := by decide
theorem test_wf_channel : (Instr.mbxDomainReturn 64).wellFormed = false := by decide
theorem test_wf_region : (Instr.tmpDurEnable 64).wellFormed = false := by decide
theorem test_wf_slot : (Instr.keyQuarantineExpiry 4352).wellFormed = false := by decide
theorem test_wf_pairing : (Instr.migrationPairingStart 4).wellFormed = false := by decide
theorem test_wf_word : (Instr.cicSet 0 4 0).wellFormed = false := by decide
theorem test_wf_meter_register : (Instr.filSlcMeterWrite 0 4 0).wellFormed = false := by decide
theorem test_wf_stage : (Instr.startStageBegin 0).wellFormed = false ∧ (Instr.startStageBegin 8).wellFormed = false := by decide
theorem test_wf_vector : (Instr.msixUnmask 0 true 0 64).wellFormed = false := by decide
theorem test_wf_stream : (Instr.ideKmKeyProg 0 32 0).wellFormed = false := by decide
theorem test_wf_key_set : (Instr.ideKmKeyProg 0 31 2).wellFormed = false := by decide
theorem test_wf_fence_cause : (Instr.portFence 0 0).wellFormed = false ∧ (Instr.portFence 0 6).wellFormed = false := by decide
theorem test_wf_warm_cause : (Instr.warmResetTrigger 7).wellFormed = false := by decide
theorem test_wf_credits : (Instr.pstCredit (2 ^ 32)).wellFormed = false := by decide
theorem test_wf_offset : (Instr.registerWrite .i3c 0x4000000 4 0).wellFormed = false := by decide
theorem test_wf_size : (Instr.registerWrite .i3c 0 2 0).wellFormed = false := by decide
theorem test_wf_node : (Instr.rdShr (msg (.node 65536))).wellFormed = false := by decide
theorem test_wf_who : (Instr.lineEviction (.gateway 9) 0).wellFormed = false := by decide
theorem test_wf_msg : (Instr.rdShr { msg (.node 9) with txn := 65536 }).wellFormed = false := by decide
theorem test_wf_flit : (Instr.flitMsg 0 ⟨256, false, false, 0, 0, 0, 0, true, true, none, false⟩).wellFormed = false := by decide
theorem test_wf_path : (Instr.sqTailWrite (.hostVf 8 0) 0 0).wellFormed = false := by decide
theorem test_wf_party : (Instr.mbxTxLen (.guest 0 4096) 0 0).wellFormed = false := by decide
theorem test_wf_spdm_port : (Instr.getVersion (.link 64)).wellFormed = false := by decide
theorem test_wf_straps : (Instr.porstNRise { up.edge.straps with i3cSa := 128 } up.edge.build).wellFormed = false := by decide
theorem test_wf_build : (Instr.porstNRise up.edge.straps { up.edge.build with stks := 21 }).wellFormed = false ∧
    (Instr.porstNRise up.edge.straps up.edge.build).wellFormed = true := by decide

/-! ### Words of Cue instructions, written out from Tables 5-6 to 5-9a: G [31:28], OP [27:22], RD [21:17], RA [16:12], RB [11:7], FN [6:0] -/

theorem test_word_alu : cueWords (.maxu 1 always 1 2 3) = some (1, 0x0002219B, 0, .expired) ∧
    cueWords (.sextH 1 always 1 2) = some (1, 0x00022021, 0, .expired) := by decide
theorem test_word_immediate : cueWords (.addi 1 always 2 3 0xFFF) = some (1, 0x00443FFF, 0, .expired) ∧
    cueWords (.shli 1 always 1 2 63) = some (1, 0x0142203F, 0, .expired) ∧
    cueWords (.lui 1 always 1 0x10000) = some (1, 0x02030000, 0, .expired) := by decide
theorem test_word_predicate : cueWords (.cmpiLtu 1 ⟨true, 3⟩ 2 5 7) = some (1, 0xB2B45007, 0, .expired) ∧
    cueWords (.psetAndn 1 always 1 2 3) = some (1, 0x02C22183, 0, .expired) := by decide
theorem test_word_branch : cueWords (.br 1 always 0x3FFFFF) = some (1, 0x033FFFFF, 0, .expired) ∧
    cueWords (.call 1 always 1) = some (1, 0x03400001, 0, .expired) ∧
    cueWords (.jr 1 always 0 31) = some (1, 0x0381F000, 0, .expired) := by decide
theorem test_word_memory : cueWords (.ldD 1 always 4 5 8 .expired) = some (1, 0x04C85008, 0, .expired) ∧
    cueWords (.stlW 1 always 4 5 0xFFC) = some (1, 0x07885FFC, 0, .expired) ∧
    cueWords (.amoCas 1 always 1 2 3 true true true .expired) = some (1, 0x08022197, 0, .expired) := by decide
theorem test_word_system : cueWords (.cueFence 1 always 0x1F) = some (1, 0x0840001F, 0, .expired) ∧
    cueWords (.cwr 1 always 3 0x0C) = some (1, 0x0886000C, 0, .expired) ∧
    cueWords (.cww 1 always 0x10 5) = some (1, 0x08C05010, 0, .expired) := by decide
theorem test_word_trap : cueWords (.trap 1 always 0x1234) = some (1, 0x0B401234, 0, .expired) ∧
    cueWords (.eret 1 always) = some (1, 0x0C000000, 0, .expired) ∧
    cueWords (.endSrc 1 always 5) = some (1, 0x0B000005, 0, .expired) := by decide
theorem test_word_item : cueWords (.waite 1 always 2 true 3) = some (1, 0x09050003, 0, .expired) ∧
    cueWords (.yield 1 always) = some (1, 0x09400000, 0, .expired) ∧
    cueWords (.budget 1 always 1 2) = some (1, 0x09822000, 0, .expired) := by decide
theorem test_word_end : cueWords (.signalCore 1 always 5 96) = some (1, 0x09C05060, 0, .expired) ∧
    cueWords (.done 1 always 7) = some (1, 0x0AC07000, 0, .expired) ∧
    cueWords (.mbxSend 1 always 1 2 3 7) = some (1, 0x0B822187, 0, .expired) ∧
    cueWords (.mbxRecv 1 always 1 2 3) = some (1, 0x0BC22180, 0, .expired) := by decide
theorem test_word_long : cueWords (.enq 1 always 1 2 5) = some (1, 0x0A022000, 5, .expired) ∧
    cueWords (.tissue 1 always 2 5 63) = some (1, 0x0A4A4000, 0xFC000000, .expired) ∧
    cueWords (.missue 1 always 1 2 3 4 false true 5 false) = some (1, 0x0A843100, 0x208A0000, .expired) := by decide

/-! ### Single steps; each expected value is from the rule named -/

/-- What a result's state shows. -/
def shows {α : Type} (r : Result) (f : State → α) : Option α :=
  match r with
  | .next t => some (f t)
  | _ => none

/-- Table 5-8: ADD wraps; g0 reads zero whatever is written (R118). -/
theorem test_add_wraps : shows (exec (.add 1 always 2 1 1) (steward 0x8000000000000000)) (fun t => (t.ctx 1).rd 2) = some 0 := by decide
theorem test_g0 : shows (exec (.addi 1 always 0 1 1) (steward 7)) (fun t => (t.ctx 1).rd 0) = some 0 := by decide
/-- Table 5-8: −1 × −1 has high half 0 signed and 2^64 − 2 unsigned. -/
theorem test_mulh : shows (exec (.mulh 1 always 2 1 1) (steward 0xFFFFFFFFFFFFFFFF)) (fun t => (t.ctx 1).rd 2) = some 0 := by decide
theorem test_mulhu : shows (exec (.mulhu 1 always 2 1 1) (steward 0xFFFFFFFFFFFFFFFF)) (fun t => (t.ctx 1).rd 2) = some 0xFFFFFFFFFFFFFFFE := by decide
/-- Table 5-8: CLZ of zero is 64; SRA copies the sign. -/
theorem test_clz : shows (exec (.clz 1 always 2 1) (steward 0)) (fun t => (t.ctx 1).rd 2) = some 64 := by decide
theorem test_sra : shows (exec (.srai 1 always 2 1 4) (steward 0x8000000000000000)) (fun t => (t.ctx 1).rd 2) = some 0xF800000000000000 := by decide
/-- Table 5-7: LUI sign-extends before it shifts; ANDI zero-extends. -/
theorem test_lui : shows (exec (.lui 1 always 2 0x10000) (steward 0)) (fun t => (t.ctx 1).rd 2) = some 0xFFFFFFFFF0000000 := by decide
theorem test_andi : shows (exec (.andi 1 always 2 1 0xFFF) (steward 0xFFFFFFFFFFFFFFFF)) (fun t => (t.ctx 1).rd 2) = some 0xFFF := by decide
/-- Table 5-7: BR counts words from its own address. -/
theorem test_br : shows (exec (.br 1 always 0x3FFFFF) (steward 0)) (fun t => (t.ctx 1).pc) = some 0xFFC := by decide
/-- R122: a false guard leaves rd and moves on. -/
theorem test_guard : shows (exec (.addi 1 never 1 0 1) (steward 7)) (fun t => ((t.ctx 1).rd 1, (t.ctx 1).pc)) = some (7, 0x1004) := by decide

/-! ### States in which a statement's main case is reached -/

/-- Slice 0 translates its first page to host memory, from section 0. -/
def hosted (s : State) : State :=
  { s with regs := (s.setF .MEM_XCTX_ROOT_EN 0 1).regs, mem := { s.mem with tlb := [⟨0, 0, 0, 12, true, true, 0, 0⟩] } }

/-- A NOP of class BE with TAG 7. -/
def nopBytes : List Byte := [4, 0, 1, 0, 7] ++ List.replicate 59 0

theorem witness_DescriptorFetch_read : let s := hosted fetching
    ∃ d rs rs' u w, s.readGuest (s.qSec 3) ⟨s.qSlice 3, none, false⟩ 0 64 [.ok nopBytes] = (.bytes nopBytes, rs, u) ∧
      u.copyDesc 3 0 0 nopBytes rs = (d, rs', w) ∧ w.work = s.work ∧ w.roomFor 3 d = true ∧ w.getF .QCX_SQ_PTRS_HEAD 3 < w.entries 3 ∧
      w.entries 3 ≤ 2 ^ 16 ∧ w.regs.rising = true ∧ (fieldLE nopBytes 1 1).testBit 1 = false ∧ s.getF .QCX_SQ_BASE 3 = 0 ∧
      s.getF .QCX_SQ_PTRS_HEAD 3 = 0 ∧ s.turn 1 = some 3 :=
  ⟨_, _, _, _, _, rfl, rfl, rfl, by decide, by decide, by decide, by decide, by decide, by decide, by decide, by decide⟩

/-- `fetching` with a telemetry record and the NOP fetched. -/
def admitting : State :=
  let s := (queue3 [(.QCX_CFG_BE_OK, 3, 1), (.QCX_BIND_CORE, 3, 1), (.BLK_STATE_STATE, 0, 2)]).setQx 3
    { QueueX.fresh with fetched := [parseDesc nopBytes false 0], reserved := 1 }
  { s with edge := { s.edge with tlm := some ⟨1, false, false, true, 0, 0, 900, 0, 0, 0, 0, 0, [], 0, 0⟩ } }

theorem witness_Admission_nop : (admitting.qx 3).fetched = parseDesc nopBytes false 0 :: [] ∧ admitting.qState 3 = 1 ∧
    admitting.getF .SLC_STATE_STATE (admitting.qSlice 3) = 2 ∧ admitting.bitF .SLC_STATE_RESETTING (admitting.qSlice 3) = false ∧
    admitting.mayAdmit (admitting.admitter 3) = true ∧ (admitting.checkDesc 3 (parseDesc nopBytes false 0)).2.edge.tlm ≠ none ∧
    (match (admitting.checkDesc 3 (parseDesc nopBytes false 0)).1 with | .ok _ => true | _ => false) = true := by decide
theorem witness_Admission_yield : let s := onCore admitting { guestCore with yielded := false }
    s.mayAdmit 1 = false ∧ (onCore admitting { guestCore with yielded := true }).mayAdmit 1 = true := by decide

theorem witness_Completion_host : let s := hosted (queue3 [(.QCX_STATE_CQ_PHASE, 3, 1), (.QCX_BIND_CORE, 3, 1)])
    ∃ h u, s.resolve (s.qSec 3) ⟨s.qSlice 3, none, false⟩ 0 true = (.host h, u) ∧ u.regs = s.regs ∧ u.work = s.work ∧ u.out = s.out ∧
      s.qState 3 = 1 ∧ s.getF .QCX_CQ_PTRS_TAIL 3 < s.entries 3 ∧ s.getF .QCX_STATE_CQ_PHASE 3 ≤ 1 :=
  ⟨_, _, rfl, rfl, rfl, rfl, by decide, by decide, by decide⟩
theorem witness_QueueZero_good : let s := hosted (regd [(.QCX_CFG_LOG2_ENTRIES, 0, 4), (.QCX_CFG_LC_OK, 0, 1)])
    ∃ u, s.ringsOk 0 0 0 0 4 0 0 0 = (true, u) ∧ u.regs = s.regs ∧ s.qState 0 = 0 ∧ s.bitF .QCX_CFG_LC_OK 0 = true ∧
      s.edge.straps.mgtSrc = 0 ∧ s.getF .QCX_CFG_KIND 0 = 0 := ⟨_, rfl, rfl, by decide, by decide, by decide, by decide⟩
theorem witness_TailLine_read : let s := hosted (queue3 [(.QCX_CFG_KIND, 3, 3), (.QCX_BIND_CORE, 3, 1)])
    ∃ rs u, s.readGuest (s.qSec 3) ⟨s.qSlice 3, none, false⟩ (s.getF .QCX_TAIL_LINE 3 * 64) 4 [.ok [5, 0, 0, 0]] = (.bytes [5, 0, 0, 0], rs, u) ∧
      natLE [5, 0, 0, 0] < u.entries 3 ∧ u.qState 3 = 1 := ⟨_, _, rfl, by decide, by decide⟩

theorem witness_Eret_service : let k : Core := { guestCore with priv := true, exl := true, ppriv := false, serviceAt := some 0 }
    let s := onCore (withItem (desc 1 0 0)) k
    (s.core 1).reading = none ∧ (s.core 1).serviceAt = some 0 ∧ (s.core 1).item = some 5 ∧ s.item 5 = some (item (desc 1 0 0)) ∧
      (item (desc 1 0 0)).cause = none ∧ (s.core 1).ppriv = false := by decide
/-- Core 1 in the from-native entry of backend 2, with g1 = 1. -/
def native : State :=
  onCore (withItem (desc 1 0 0)) { guestCore with item := none, priv := true, ctx := guestCore.ctx.wr 1 1, reading := some ⟨2, none, 0, Ctx.fresh, true⟩ }
theorem witness_Eret_reading : (native.core 1).stack = [] ∧ (native.core 1).reading = some ⟨2, none, 0, Ctx.fresh, true⟩ ∧ (native.core 1).priv = true := by decide
theorem witness_Done_native : native.inAdapter 1 = true ∧ native.inContext 1 = false ∧ (native.ctx 1).window 0 (16 * ((native.ctx 1).rd 1).toNat) = some 0x18000 ∧
    native.executes 1 = true := by decide
theorem witness_DebugData_cw : let s := regd [(.CUE_DBG_CTRL_HALTED, 1, 1), (.CUE_DBG_SEL_SPACE, 1, 3), (.CUE_DBG_SEL_INDEX, 1, 0x18)]
    s.bitF .CUE_DBG_CTRL_HALTED 1 = true ∧ s.getF .CUE_DBG_SEL_SPACE 1 = 3 ∧ s.getF .CUE_DBG_SEL_INDEX 1 ∈ [0x01, 0x18] := by decide

theorem witness_WarmReset_now : bare.flushAhead = false ∧ (regd [(.TMP_STATUS_STATE, 0, 3)]).flushAhead = true ∧ bare.edge.pins.corePwrOk = true := by decide
/-- A telemetry record of version 1 whose other bytes are zero, with its CRC-32C. -/
def tlmZero : List Byte := 1 :: List.replicate 43 0 ++ [0x63, 0x19, 0x7a, 0x8]
set_option maxRecDepth 100000 in
theorem witness_Telemetry_good : State.reset.tlmOk tlmZero = true ∧ State.reset.coreOn = false := by decide
set_option maxRecDepth 100000 in
theorem witness_Telemetry_bad : State.reset.tlmOk (tlmZero.set 1 1) = false := by decide
/-- A page of a durable region is dirty beyond the coverage, power input holds, and an item of the block is being shed. -/
def dirtyNow : State :=
  { admitting with
    regs := (regd [(.TMP_DUR_COVER_PAGES, 0, 0), (.TMP_CLEAN_EN, 0, 1), (.BLK_STATE_STATE, 0, 2)]).regs
    temper := { up.temper with dur := [(5, .dirty)] }
    work := { up.work with items := [(5, { item (desc 1 0 0) with cause := some causePower })] } }
theorem witness_Persist_open : dirtyNow.edge.pst.epoch = .none ∧ dirtyNow.cleanDue = true ∧ dirtyNow.shedding = true ∧ dirtyNow.edge.pst.credit = 0 ∧
    dirtyNow.cleanEnough = false := by decide
theorem witness_Persist_pages : cleaning.temper.dur.find 4 = some (.inflight 0) ∧ cleaning.temper.dur.find 5 = some .dirty := by decide

theorem witness_Limits_release : let s := { withItem (desc 1 0 0) with regs := (regd [(.QCX_STATE_STATE, 0, 4)]).regs }
    s.qState 0 = 4 ∧ s.limited (item (desc 1 0 0)) = true ∧ 0 + 10 * scale s.sg 100000 ≤ ({ s with now := 10 ^ 7 } : State).now := by decide
theorem witness_ItemEnd_step : let x := { item (desc 1 0 0) with cause := some causeCancel, step := true }
    let s := { up with work := { Work.reset with items := [(5, x)] } }
    s.released 5 = true ∧ s.isRunning 5 = false ∧ s.stepRuns x = false := by decide

theorem witness_Native : let k : Backend := ⟨0, 4, 0, 0, 0, 64, 0, 0x40, 0, 0, 3, 0, 1, [], [], 0, [], noHdr, noHdr, 1, none⟩
    k.notify ≠ 0 ∧ ({ backend2 with work := { backend2.work with backends := [(2, k)] } } : State).getF .CST_BK_STATE_STATE 2 ≠ 0 := by decide
theorem witness_UnitEnd : let s := withOp (.te 2) .finishing
    (s.onUnit (.te 2)).find? (fun y => y.2.active) = some (4, op (.te 2) .finishing) ∧ (op (.te 2) .finishing).cancelled = false ∧
      s.getF .TEN_ERR_SPARES 2 ≠ 0 := by decide
/-- A VECTOR ADD of 1 × 16 FP32 elements (Table 7-6). -/
def vecTod : List Byte := [2, 0, 2, 0, 1, 1, 1, 0, 1, 0, 0, 0, 16, 0, 0, 0, 0, 0, 0, 0, 16, 0, 0, 0, 16, 0, 0, 0] ++ List.replicate 100 0
theorem witness_Tensor_good : (parseTod vecTod).kind = 2 ∧ (parseTod vecTod).epi = 0 ∧ todCheck vecTod = 0 := by decide
theorem witness_Scrub_page : let s := { regd [(.SLC_STATE_STATE, 9, 5)] with slices := { up.slices with scrub := [9], scrubLeft := [(9, [(0x40000000, 4096)])] } }
    ∃ u, s.scrubOn 9 = (true, u) ∧ s.slices.scrubLeft.findD 9 [] = [(0x40000000, 4096)] := ⟨_, rfl, rfl⟩
theorem witness_RegisterWrites_path : served.edge.pins.porstN = true ∧ served.edge.pins.edgePwrOk = true ∧ State.reset.edge.pins.porstN = false := by decide
theorem witness_HostLink : 0 < up.edge.build.dies ∧ up.edge.build.dies ≤ 8 := by decide
theorem witness_Request_alloy : up.alloyNodes = [] ∧ up.atHome 0xFFFF000040000000 = true := by decide
theorem witness_Temper_normal : admitting.tmpState = 1 ∧ admitting.coreOn = true := by decide

/-! ### States for the clauses about waiting, shared lines and reserved resources -/

theorem witness_Halt_items : let s := withItem (desc 1 0 0)
    s.work.items.find 5 = some (item (desc 1 0 0)) ∧ 5 ∉ s.heldOn 2 ∧ s.heldOn 2 = [] := by decide
theorem witness_EdgeUp : up.edgeUp = true ∧ State.reset.edgeUp = false ∧ up.portPresent 7 = true := by decide
theorem witness_Warm_down : State.reset.edgeUp = false ∧ (1 : Nat) ≤ 6 ∧ up.edge.pins.corePwrOk = true := by decide
theorem witness_Pst : State.reset.pstUp = false ∧ cleaning.pstUp = true ∧ dirtyNow.pstUp = true := by decide
theorem witness_TemperWindow_own : (⟨[109], [85, 95]⟩ : WindowTemps).junctions = [109] ∧ (⟨[109], []⟩ : WindowTemps).ownTemps = [] := by decide
theorem witness_Cancel_waits : let p : Posting := ⟨4, some 0, 0, none, none, none, ⟨7, 0, 0, false, none, 0, 0, 0, false⟩⟩
    ((queue3 []).setQx 3 { QueueX.fresh with ordered := [p] }).tagWaits 3 5 7 = true ∧ (queue3 []).tagWaits 3 5 7 = false := by decide

/-- What CREATE_SLICE takes for slice 9: key slot, LC shares of section 0, no frames. -/
def reserved : Resv := ⟨[], true, true, [1, 0, 0, 0, 0, 0, 0, 0], [64, 0, 0, 0, 0, 0, 0, 0], 0, 0, 0, 0, 0⟩

theorem witness_Taken : ({ item (desc 0x80 64 0) with resv := some reserved } : Item).takenOr none = some reserved ∧
    (item (desc 0x80 64 0)).takenOr none = none ∧ ({ item (desc 0x80 64 0) with resv := some reserved } : Item).resv.map (fun r => r.block) = some [] ∧
    reserved.first < 2 ^ Fld.width .SLC_HOT_FIRST := by decide

/-- The block of Table 13-3 for slice 9: BE floor 1, section 0, one queue, no bindings. -/
def block9 : List Byte := [9, 0, 1, 0, 1, 0, 1, 0] ++ List.replicate 26 0 ++ [0xFF, 0xFF] ++ List.replicate 28 0

theorem witness_Create_block : let s := { bare with edge := { up.edge with build := { up.edge.build with dies := 8, stks := 20 } } }
    s.sliceBlockOk block9 = true ∧ (NewSlice.parse block9).id = 9 ∧ s.slcState 9 = 0 ∧ s.slices.recScrub.contains 9 = false ∧
      (NewSlice.parse block9).host.testBit 15 = false ∧ s.regs.rising = true := by decide
set_option maxRecDepth 100000 in
theorem witness_Create_slot : bare.nodeTaken (NewSlice.parse block9).node 9 = false := by decide
theorem oldest_stays (l : List Nat) :
    l.foldl (fun best k => if (bare.keySlot k).state ≠ .free then best else
      match best with
      | none => some k
      | some b => if (bare.keySlot k).since < (bare.keySlot b).since then some k else best) (some 1) = some 1 := by
  induction l with
  | nil => rfl
  | cons k l ih =>
    have h : ¬ (bare.keySlot k).since < (bare.keySlot 1).since := Nat.not_lt_zero _
    rw [List.foldl_cons]
    show List.foldl _ (if (bare.keySlot k).state ≠ .free then some 1 else if (bare.keySlot k).since < (bare.keySlot 1).since then some k else some 1) l = _
    rw [if_neg h, ite_self]
    exact ih
theorem witness_Create_oldest : bare.oldestSlot = some 1 := by
  unfold State.oldestSlot
  rw [List.range_eq_range', List.drop_range', List.range'_succ, List.foldl_cons]
  exact oldest_stays _
theorem witness_Resize : up.isFull = false ∧ (regd [(.SLC_STATE_STATE, 9, 1)]).slcState 9 = 1 ∧
    (up.sliceBlockOk (List.replicate 64 0)) = false := by decide

/-- A pairing with node 7 whose partner's leaf key is 1, 2, 3. -/
def pair7 : Pairing := ⟨7, 5, 0, [1, 2, 3]⟩
/-- An ingot without queues and sequences, from node 7 for this node. -/
def emptyIngot : List Byte :=
  bytesLE 4 0x54474E49 ++ bytesLE 2 1 ++ bytesLE 2 0xFFFF ++ bytesLE 4 624 ++ bytesLE 2 7 ++ bytesLE 2 0 ++ bytesLE 4 releaseWord ++ List.replicate 604 0
/-- Slice 9 is BUILDING, and the pairing with node 7 stands. -/
def building9 : State :=
  { regd [(.SLC_STATE_STATE, 9, 1), (.SEC_MIG_CTRL_STATE, 0, 2)] with sec := { up.sec with pairings := [(0, pair7)] } }
set_option maxRecDepth 20000 in
theorem witness_Restore_ok : building9.ingotOk emptyIngot = true ∧ fieldLE emptyIngot 0x0C 2 = 7 := by decide
theorem witness_Restore_pairing : building9.pairingWith 7 = some pair7 := by decide
set_option maxRecDepth 20000 in
theorem witness_Restore_target : (parseIngot emptyIngot pair7 id).queues = [] ∧ (parseIngot emptyIngot pair7 id).seqs = [] ∧
    building9.slcState 9 = 1 ∧ building9.sliceQueues 9 = [] ∧ building9.sliceSeqs 9 = [] := by decide
theorem witness_Restore_room : building9.placeRecords 9 [] = some building9 ∧ building9.copySeqs [] [] = .ok [] ∧
    building9.fillRecords 5 9 [] = .ok building9 := ⟨rfl, rfl, rfl⟩
theorem witness_Mover_ready : ∀ k, k ≤ (regd [(.SLC_XFER_CTRL_BUSY, 0, 1)]).getF .SLC_XFER_LEN_PAGES 0 →
    (regd [(.SLC_XFER_CTRL_BUSY, 0, 1)]).moverNeeds k = [] ∧ (regd [(.SLC_XFER_CTRL_BUSY, 0, 1)]).moverHolds k = [] := by
  intro k hk
  have h : (regd [(.SLC_XFER_CTRL_BUSY, 0, 1)]).getF .SLC_XFER_LEN_PAGES 0 = 0 := by decide
  have : k = 0 := by omega
  subst this
  decide

/-- Host 0 holds the line at 0x40000000 and is named by its directory entry. -/
def hostHeld : State :=
  { up with coh := { up.coh with dir := [(0x1000000, (DirEnt.blank 0 0 0).exclusive (.host 0))], hpf := [(hpfKey 0 0x1000000, ⟨true, 0⟩)] } }
theorem witness_Notice : hostHeld.ent (lineOf (msg (.host 0))) = some ((DirEnt.blank 0 0 0).exclusive (.host 0)) ∧
    ((DirEnt.blank 0 0 0).exclusive (.host 0)).names (.host 0) = true ∧ hostHeld.hostHolds 0 (lineOf (msg (.host 0))) = true ∧
    hostHeld.activeTxn (lineOf (msg (.host 0))) = none ∧ hostHeld.inHole (lineOf (msg (.host 0))) = false ∧ (msg (.host 0)).keep = false ∧
    hostHeld.bitF .SLC_DLOG_CTRL_EN 0 = false ∧ up.coh.recallAt = none := by decide
theorem witness_Notice_open : let s := { hostHeld with regs := (regd [(.BLK_STAGE_DONE, 0, 63)]).regs, coh := { hostHeld.coh with reopened := true } }
    s.edgeAnswers = false ∧ s.barredAt (s.homeOf (offOf (msg (.host 0)))) (.host 0) = false ∧
      ({ s with coh := { s.coh with barred := [s.homeOf (offOf (msg (.host 0))) * 2 ^ 20 + memberCode (.host 0)] } } : State).barredAt
        (s.homeOf (offOf (msg (.host 0)))) (.host 0) = true := by decide

/-- Gateway 1's request that waits to be made again at time 10. -/
def upward (end_ : Option Nat) : UpReq := ⟨.rdShr, 0xFFFF000040000000, [], msg (.core 8), none, 3, some 10, end_⟩
/-- `upward` in the tracker, at time 10. -/
def retrying (end_ : Option Nat) : State := { up with coh := { up.coh with ups := [(upKey (up.lid (0x1000000 * 64)) 1, upward end_)] }, now := 10 }
theorem witness_StakeRetry : (retrying none).coh.ups = [(upKey ((retrying none).lid (0x1000000 * 64)) 1, upward none)] ∧ (upward none).retryAt = some 10 ∧
    (10 : Nat) ≤ (retrying none).now ∧ (upward (some 10)).until_ = some 10 ∧ (upward none).waiters = [] := by decide
theorem witness_SnoopTimeout_ack : let t := { txn with snoops := [], awaitAck := true }
    let s := { up with coh := { up.coh with txns := [(6, t)] }, now := 10 ^ 9 }
    s.coh.txns.find 6 = some t ∧ 0 + s.getF .COH_CTRL_SNP_LIMIT_US 0 * 1000 ≤ s.now ∧ t.awaitWb = false := by decide
theorem witness_SnoopTimeout_wb : let t := { txn with snoops := [], awaitWb := true }
    let s := { hostHeld with coh := { hostHeld.coh with txns := [(6, t)] }, now := 10 ^ 9 }
    s.coh.txns.find 6 = some t ∧ s.ent t.line = some ((DirEnt.blank 0 0 0).exclusive (.host 0)) ∧
      ((DirEnt.blank 0 0 0).exclusive (.host 0)).ownerWho = some (.host 0) := by decide
theorem witness_Grants_msg : ({ txn with who := .host 0 } : Txn).req.src = .host 0 ∧ up.bitF .SLC_DLOG_CTRL_EN 0 = false ∧ txn.cur = none := by decide

theorem witness_Link_train : ((regd [(.FIL_PORT_STAT_STATE, 7, 1)]).receive 7 ⟨2, false, false, 0, 0, 0, 0, true, true, none, false⟩).1 = none ∧ up.portState 7 ≠ 1 := by decide
theorem witness_Link_hop : let m := { msg (.node 9) with allow := 2 }
    let e : EgressMsg := ⟨5, 0xFFF, m, 0, 0⟩
    let s := { up.setPort 7 { up.port 7 with egress := [e] } with now := 10 ^ 9 }
    (s.port 7).egress = [e] ∧ { e.msg with late := 0 } = m ∧ isReq m.kind = true ∧ s.allowOut e.msg (s.now - e.since) = none := by decide
theorem witness_Link_doorbell : up.queuePath 3 (.fil 7 9) = false ∧ up.refusal (.fil 7 9) 0x20000 8 true = some 6 := by decide

theorem witness_Spdm_request : talking.takeRequest (.host 0) 0x84 0 0 [] 0 = (spdmBytes 0x84 0 0 [], { talking with free := talking.free }) ∧
    algsOffered blockAlgs = true ∧ algsOffered { blockAlgs with dhe := 1 } = false := ⟨rfl, by decide, by decide⟩
theorem witness_Spdm_chunk : let s := { talking with sec := { talking.sec with chunks := [(.host 0, List.replicate 4081 0)], sends := [(.host 0, ⟨0, 3, []⟩)] } }
    s.sec.chunks.find? (fun c => c.1 == SpdmPort.host 0) = some (.host 0, List.replicate 4081 0) ∧
      s.sec.sends.find? (fun c => c.1 == SpdmPort.host 0) = some (.host 0, ⟨0, 3, []⟩) := ⟨rfl, rfl⟩
theorem witness_Spdm_setups : bare.setups 0 false = [] ∧ talking.sessionsFull (.peer 7) = false ∧ ([] : List Byte) ≠ talking.anchor :=
  ⟨by decide, by decide, by decide⟩
theorem witness_Spdm_setup : ({ talking with sec := { talking.sec with sessions := [(0, ⟨.host 0, false, false, 0, 0, 0, 0⟩)] } } : State).sec.sessions.find 0 =
    some ⟨.host 0, false, false, 0, 0, 0, 0⟩ ∧ (⟨[], [], true⟩ : CryptoCheck).sigOk = true := by decide

theorem witness_Cast_taken : ({ item (desc 0x90 32 0) with resv := some { reserved with len := 4096 } } : Item).takenOr none = some { reserved with len := 4096 } := by decide
theorem witness_LoadNeeds : up.loadNeeds 3 = [] ∧ up.newLoad 1023 none = none := by decide
theorem witness_StepOut : tabled.outHeld (secOfCore 1) [5] = [] := by decide
theorem witness_MustSuspend : let s := { withOp (.te 2) .running with work := { (withOp (.te 2) .running).work with ops := [(4, op (.te 2) .running), (5, { op (.te 2) .waiting with cls := .lc })] } }
    s.mustSuspend (op (.te 2) .running) = true ∧ (withOp (.te 2) .running).mustSuspend (op (.te 2) .running) = false := by decide
theorem witness_Segment : let x := { op (.me 2) .running with zero := true, dstWin := true, len := 4096 }
    x.moved < x.len ∧ x.moved + x.segment = x.len ∧ x.segment = 4096 := by decide
set_option maxRecDepth 100000 in
theorem witness_Inv_crossed : let s := { regd [(.MEM_INV_CTRL_BUSY, 0, 1), (.MEM_INV_CTRL_ALL, 0, 1)] with work := (onCore up { guestCore with access := some ⟨0, 0, 0x1000, false, 0⟩ }).work }
    s.invCrossed = true ∧ bare.invCrossed = false ∧ up.sliceOfVf 0 3 = none := by decide
theorem witness_Patrol : up.region 0xA000000000 = .none ∧ up.holeLost 0 = false ∧ bare.mapped = false ∧ (bare.stackX 33).moves.contains 8 = false := by decide
theorem witness_Train_five : let s := regd [(.MEM_STK_STAT_STATE, 3, 1), (.MEM_STK_STAT_LAST_STEP, 3, 5)]
    s.getF .MEM_STK_STAT_STATE 3 = 1 ∧ s.getF .MEM_STK_STAT_LAST_STEP 3 = 5 ∧ s.regs.rising = true := by decide
theorem witness_Move_open : let s := { regd [(.MEM_MAP_LOCK, 0, 1), (.MEM_STATUS_MAPPED, 0, 1)] with mem := (up.updStack 3 (fun x => { x with moves := [8] })).mem }
    (s.stackX 3).moves.contains 8 = true ∧ s.mapped = true := by decide

end Sys2Proof.Tests
end

section
/-!
SUPPORT. More laws of the keyed tables: look-ups after every value changes, and after entries are dropped in any order of the keys.
-/

namespace Sys2Proof

theorem Tbl.find_mapVals {α : Type} (t : Tbl α) (f : Nat → α → α) (n : Nat) : (t.mapVals f).find n = (t.find n).map (f n) := by
  induction t with
  | nil => rfl
  | cons a t ih =>
    obtain ⟨k, v⟩ := a
    show Tbl.find ((k, f k v) :: Tbl.mapVals t f) n = _
    unfold Tbl.find
    split
    · rename_i h; subst h; rfl
    · exact ih

/-- What a key holds after entries that fail a test are dropped passes the test, whatever the order of the keys. -/
theorem Tbl.sat_of_find_keep {α : Type} {p : Nat → α → Bool} {n : Nat} {v : α} : ∀ {t : Tbl α}, (Tbl.keep t p).find n = some v → p n v = true
  | [], h => by cases h
  | (k, w) :: t, h => by
    by_cases hp : p k w = true
    · rw [show Tbl.keep ((k, w) :: t) p = (k, w) :: Tbl.keep t p from List.filter_cons_of_pos hp, Tbl.find] at h
      split at h
      · rename_i hk
        cases h
        exact hk ▸ hp
      · exact Tbl.sat_of_find_keep h
    · rw [show Tbl.keep ((k, w) :: t) p = Tbl.keep t p from List.filter_cons_of_neg hp] at h
      exact Tbl.sat_of_find_keep h

end Sys2Proof
end

section
/-!
SUPPORT. What notices to the cores and to the management source change, and what a fault record changes (R351, R354, R381).
-/

namespace Sys2Proof.Machine

/-! ### Notices: interrupt sources, manager causes and manager vectors (R351, R354) -/

/-- The register fields that a notice to the cores or to the management source writes. -/
def noticeFields : List Fld := [.FLT_HEAD_INDEX, .CIC_PEND, .CIC_MCAUSE_CAUSE, .CIC_MSTAT_SENT, .CIC_MSTAT_DROPPED]

/-- `t` is `s` after notices: beside `noticeFields` only the ports' egress, MSI-X pending bits and what was sent differ. -/
structure State.Notifies (s t : State) : Prop where
  rest : t = { s with regs := t.regs, fil := t.fil, mbx := t.mbx, out := t.out }
  rising : s.regs.rising = true → t.regs.rising = true
  getF : ∀ f, f ∉ noticeFields → ∀ i, t.getF f i = s.getF f i

theorem State.Notifies.refl (s : State) : s.Notifies s := ⟨rfl, id, fun _ _ _ => rfl⟩

theorem State.Notifies.trans {s t u : State} (h : s.Notifies t) (k : t.Notifies u) : s.Notifies u where
  rest := by rw [k.rest, h.rest]
  rising := k.rising ∘ h.rising
  getF f hf i := (k.getF f hf i).trans (h.getF f hf i)

/-- A change that leaves the registers is a notice if it is one beside them. -/
theorem State.Notifies.of_regs {s t : State} (hrest : t = { s with fil := t.fil, mbx := t.mbx, out := t.out }) : s.Notifies t := by
  have hregs : t.regs = s.regs := by rw [hrest]
  exact ⟨by rw [hregs]; exact hrest, by rw [hregs]; exact id, fun f _ i => by unfold State.getF; rw [hregs]⟩

theorem State.notifies_setF (s : State) {f : Fld} (hf : f ∈ noticeFields) (i v : Nat) : s.Notifies (s.setF f i v) where
  rest := rfl
  rising h := State.rising_setF h f i v
  getF g hg j := State.getF_setF_ne s f g i j v (fun e => hg (e.1 ▸ hf))

theorem State.notifies_each {α : Type} {f : State → α → State} (hf : ∀ (s : State) a, s.Notifies (f s a)) (l : List α) (s : State) :
    s.Notifies (s.each l f) := by
  induction l generalizing s with
  | nil => exact .refl s
  | cons a l ih => exact (hf s a).trans (ih (f s a))

theorem State.notifies_cicEvent (s : State) (core src : Nat) : s.Notifies (s.cicEvent core src) := by
  unfold State.cicEvent
  split
  · exact s.notifies_setF (by decide) _ _
  · exact .refl s

theorem State.notifies_cicSection (s : State) (sec src : Nat) : s.Notifies (s.cicSection sec src) :=
  State.notifies_each (fun s c => s.notifies_cicEvent c src) _ s

theorem State.notifies_emit (s : State) (x : Out) : s.Notifies (s.emit x) := .of_regs rfl

theorem State.notifies_toPort (s : State) (p sub : Nat) (m : Msg) : s.Notifies (s.toPort p sub m) := .of_regs rfl

theorem State.notifies_sendMsix (s : State) (port : Nat) (vf : Option Nat) (entry : Nat) : s.Notifies (s.sendMsix port vf entry) := by
  unfold State.sendMsix
  dsimp only
  split
  · exact .of_regs rfl
  · exact (s.notifies_emit _).trans (State.notifies_setF _ (by decide) _ _)

theorem State.notifies_signalVector (s : State) (port : Option Nat) (v : Nat) : s.Notifies (s.signalVector port v) := by
  unfold State.signalVector
  split
  · exact (s.notifies_toPort _ _ _).trans (State.notifies_setF _ (by decide) _ _)
  · exact s.notifies_setF (by decide) _ _

theorem State.notifies_managerVector (s : State) (v : Nat) : s.Notifies (s.managerVector v) := by
  unfold State.managerVector
  split
  · exact s.notifies_signalVector _ v
  · split
    · exact s.notifies_sendMsix 0 none v
    · exact s.notifies_signalVector _ v
    · exact (s.notifies_emit _).trans (State.notifies_setF _ (by decide) _ _)
    · exact .refl s

theorem State.notifies_managerCause (s : State) (v : Nat) : s.Notifies (s.managerCause v) := by
  have hset := s.notifies_setF (f := .CIC_MCAUSE_CAUSE) (by decide) 0 (putBit (s.getF .CIC_MCAUSE_CAUSE 0) (v - 1) true)
  unfold State.managerCause
  dsimp only
  split
  · exact .refl s
  · split
    · exact hset.trans (State.notifies_managerVector _ v)
    · exact hset

/-! ### Fault records (R381) -/

/-- The record as the block writes it: its INDEX and TIME are the block's. -/
def State.dated (s : State) (r : FaultRec) : FaultRec := { r with index := s.nextIndex, time := s.time }

/-- The fault log with a record in its slot of the ring, before anything is told of it. -/
def State.withRecord (s : State) (r : FaultRec) : State :=
  { s with recov := { s.recov with
    faults := s.recov.faults.filter (fun (x : FaultRec) => x.index % 1024 != s.nextIndex % 1024) ++ [s.dated r] } }

/-- A fault record is its slot of the log, and notices. -/
theorem State.notifies_fault (s : State) (r : FaultRec) : (s.withRecord r).Notifies (s.fault r) := by
  have hindex : (s.withRecord r).Notifies ((s.withRecord r).setF .FLT_HEAD_INDEX 0 (s.nextIndex + 1)) := State.notifies_setF _ (by decide) _ _
  unfold State.fault
  dsimp only
  refine .trans ?_ (State.notifies_managerCause _ 2)
  split
  · exact hindex.trans (State.notifies_cicSection _ _ 0)
  · exact hindex

@[simp] theorem State.fault_edge (s : State) (r : FaultRec) : (s.fault r).edge = s.edge := by rw [(s.notifies_fault r).rest]; rfl
@[simp] theorem State.fault_temper (s : State) (r : FaultRec) : (s.fault r).temper = s.temper := by rw [(s.notifies_fault r).rest]; rfl
@[simp] theorem State.fault_work (s : State) (r : FaultRec) : (s.fault r).work = s.work := by rw [(s.notifies_fault r).rest]; rfl
@[simp] theorem State.fault_slices (s : State) (r : FaultRec) : (s.fault r).slices = s.slices := by rw [(s.notifies_fault r).rest]; rfl
@[simp] theorem State.fault_mem (s : State) (r : FaultRec) : (s.fault r).mem = s.mem := by rw [(s.notifies_fault r).rest]; rfl
@[simp] theorem State.fault_now (s : State) (r : FaultRec) : (s.fault r).now = s.now := by rw [(s.notifies_fault r).rest]; rfl

/-- A written record stands in the log. -/
theorem State.dated_mem_faults (s : State) (r : FaultRec) : s.dated r ∈ (s.fault r).recov.faults := by
  rw [(s.notifies_fault r).rest]
  exact List.mem_append_right _ (List.mem_singleton_self _)

theorem State.rising_fault {s : State} (h : s.regs.rising = true) (r : FaultRec) : (s.fault r).regs.rising = true :=
  (s.notifies_fault r).rising h

theorem State.getF_fault (s : State) (r : FaultRec) {f : Fld} (hf : f ∉ noticeFields) (i : Nat) : (s.fault r).getF f i = s.getF f i :=
  (s.notifies_fault r).getF f hf i

end Sys2Proof.Machine
end

section
/-!
SUPPORT. What decides whether cleaning is due, and the opening of a clean epoch (R243–R245, R48).
-/

namespace Sys2Proof.Machine

/-! ### What decides whether cleaning is due (R243–R245) -/

/-- The register fields that decide whether a clean epoch is due, but for TMP_FLUSH.STATE. -/
def cleanFields : List Fld :=
  [.TMP_STATUS_STATE, .TMP_TLM_STALE_US, .TMP_TLM_AGE_MAX, .TMP_DUR_COVER_PAGES, .TMP_DUR_RESV_PAGES, .TMP_CLEAN_EN, .TMP_CLEAN_HI, .TMP_CLEAN_LO]

/-- `t` agrees with `s` in all that decides whether a clean epoch is due, but for TMP_FLUSH.STATE. -/
structure State.CleansAs (s t : State) : Prop where
  temper : t.temper = s.temper
  slices : t.slices = s.slices
  now : t.now = s.now
  tlm : t.edge.tlm = s.edge.tlm
  coreOn : t.coreOn = s.coreOn
  getF : ∀ f, f ∈ cleanFields → ∀ i, t.getF f i = s.getF f i

theorem State.CleansAs.refl (s : State) : s.CleansAs s := ⟨rfl, rfl, rfl, rfl, rfl, fun _ _ _ => rfl⟩

theorem State.CleansAs.trans {s t u : State} (h : s.CleansAs t) (k : t.CleansAs u) : s.CleansAs u :=
  ⟨k.temper.trans h.temper, k.slices.trans h.slices, k.now.trans h.now, k.tlm.trans h.tlm, k.coreOn.trans h.coreOn,
    fun f hf i => (k.getF f hf i).trans (h.getF f hf i)⟩

theorem State.cleansAs_setF (s : State) {f : Fld} (hf : f ∉ cleanFields) (i v : Nat) : s.CleansAs (s.setF f i v) :=
  ⟨rfl, rfl, rfl, rfl, rfl, fun g hg j => State.getF_setF_ne s f g i j v (fun e => hf (e.1 ▸ hg))⟩

theorem State.cleansAs_fault (s : State) (r : FaultRec) : s.CleansAs (s.fault r) where
  temper := s.fault_temper r
  slices := s.fault_slices r
  now := s.fault_now r
  tlm := by rw [State.fault_edge]
  coreOn := by unfold State.coreOn; rw [State.fault_edge]
  getF f hf i := by
    have hdisjoint : ∀ f ∈ cleanFields, f ∉ noticeFields := by decide
    exact State.getF_fault s r (hdisjoint f hf) i

section
variable {s t : State}

/-- Staleness is decided by the record kept, the time and two fields (R227). -/
theorem State.stale_congr (htlm : t.edge.tlm = s.edge.tlm) (hnow : t.now = s.now) (hage : t.getF .TMP_TLM_AGE_MAX 0 = s.getF .TMP_TLM_AGE_MAX 0)
    (hus : t.getF .TMP_TLM_STALE_US 0 = s.getF .TMP_TLM_STALE_US 0) : t.stale = s.stale := by
  unfold State.stale State.tlmNow
  rw [htlm, hnow, hage, hus]

theorem State.CleansAs.stale (h : s.CleansAs t) : t.stale = s.stale :=
  State.stale_congr h.tlm h.now (h.getF _ (by decide) 0) (h.getF _ (by decide) 0)

theorem State.CleansAs.tmpState (h : s.CleansAs t) : t.tmpState = s.tmpState := by
  unfold State.tmpState
  rw [h.getF _ (by decide), h.coreOn, h.stale]

theorem State.CleansAs.coverage (h : s.CleansAs t) : t.coverage = s.coverage := by
  unfold State.coverage
  rw [h.stale, h.getF _ (by decide)]

theorem State.CleansAs.durDirty (h : s.CleansAs t) : t.durDirty = s.durDirty := by
  unfold State.durDirty State.durPages
  rw [h.temper]

theorem State.CleansAs.cleanUrgent (h : s.CleansAs t) : t.cleanUrgent = s.cleanUrgent := by
  unfold State.cleanUrgent State.dirtyCount
  rw [h.coverage, h.temper, h.slices, h.getF _ (by decide)]

theorem State.CleansAs.inputHolds (h : s.CleansAs t) : t.inputHolds = s.inputHolds := by
  unfold State.inputHolds
  rw [h.tmpState, h.tlm]

/-- TMP_FLUSH.STATE counts only as 1 or not: a clean epoch that is due stays due while it runs. -/
theorem State.CleansAs.cleanDue_running (h : s.CleansAs t) (hdue : s.cleanDue = true) (hrun : t.getF .TMP_FLUSH_STATE 0 = 1) : t.cleanDue = true := by
  have hen := h.getF .TMP_CLEAN_EN (by decide) 0
  have hhi := h.getF .TMP_CLEAN_HI (by decide) 0
  have hlo := h.getF .TMP_CLEAN_LO (by decide) 0
  unfold State.cleanDue State.bitF at hdue ⊢
  rw [h.coreOn, h.inputHolds, h.durDirty, h.cleanUrgent, h.coverage, hen, hhi, hlo, hrun]
  grind

/-- One that is not due is not due when nothing runs. -/
theorem State.CleansAs.cleanDue_idle (h : s.CleansAs t) (hdue : s.cleanDue = false) (hidle : t.getF .TMP_FLUSH_STATE 0 = 0) : t.cleanDue = false := by
  have hen := h.getF .TMP_CLEAN_EN (by decide) 0
  have hhi := h.getF .TMP_CLEAN_HI (by decide) 0
  have hlo := h.getF .TMP_CLEAN_LO (by decide) 0
  unfold State.cleanDue State.bitF at hdue ⊢
  rw [h.coreOn, h.inputHolds, h.durDirty, h.cleanUrgent, h.coverage, hen, hhi, hlo, hidle]
  grind

end

/-! ### Opening a clean epoch (R48, R245) -/

@[simp] theorem State.pstOpen_work (s : State) (e : Epoch) : (s.pstOpen e).work = s.work := rfl
@[simp] theorem State.pstOpen_pst (s : State) (e : Epoch) :
    (s.pstOpen e).edge.pst = { s.edge.pst with epoch := e, seq := 0, committed := false } := rfl
@[simp] theorem State.pstOpen_out (s : State) (e : Epoch) :
    (s.pstOpen e).out = s.out ++ [pstPacket 1 ((s.pstEpoch + 1) % 2 ^ 16) 0 0 0 0 []] := rfl

theorem State.getF_pstOpen (s : State) (e : Epoch) (f : Fld) (i : Nat) : (s.pstOpen e).getF f i =
    ((s.setF .TMP_FLUSH_EPOCH 0 ((s.pstEpoch + 1) % 2 ^ 16)).setF .TMP_FLUSH_STATE 0 (if e = .flushing then 2 else 1)).getF f i := rfl

theorem State.cleansAs_pstOpen (s : State) (e : Epoch) : s.CleansAs (s.pstOpen e) :=
  have h := (s.cleansAs_setF (f := .TMP_FLUSH_EPOCH) (by decide) 0 ((s.pstEpoch + 1) % 2 ^ 16)).trans
    (State.cleansAs_setF _ (f := .TMP_FLUSH_STATE) (by decide) 0 (if e = .flushing then 2 else 1))
  ⟨h.temper, h.slices, h.now, h.tlm, h.coreOn, h.getF⟩

theorem State.pstEpoch_pstOpen {s : State} (h : s.regs.rising = true) (e : Epoch) : (s.pstOpen e).pstEpoch = (s.pstEpoch + 1) % 2 ^ 16 := by
  unfold State.pstEpoch
  rw [State.getF_pstOpen, State.getF_setF_ne _ _ _ _ _ _ (by decide), State.getF_setF_same h]
  exact Nat.mod_mod _ _

theorem State.flushState_pstOpen_cleaning {s : State} (h : s.regs.rising = true) : (s.pstOpen .cleaning).getF .TMP_FLUSH_STATE 0 = 1 := by
  rw [State.getF_pstOpen, State.getF_setF_same (State.rising_setF h _ _ _)]
  rfl

/-- A clean epoch is opened or nothing happens (R245). -/
theorem State.cleanStart_cases (s : State) : s.cleanStart = s ∨ s.cleanStart = s.pstOpen .cleaning := by
  unfold State.cleanStart
  split
  · exact .inr rfl
  · exact .inl rfl

theorem State.cleanStart_due {s : State} (hup : s.pstUp = true) (hnone : s.edge.pst.epoch = .none) (hdue : s.cleanDue = true) :
    s.cleanStart = s.pstOpen .cleaning := if_pos ⟨hup, hnone, hdue⟩

theorem State.cleansAs_cleanStart (s : State) : s.CleansAs s.cleanStart := by
  rcases s.cleanStart_cases with h | h <;> rw [h]
  · exact .refl s
  · exact s.cleansAs_pstOpen .cleaning

@[simp] theorem State.cleanStart_work (s : State) : s.cleanStart.work = s.work := by
  rcases s.cleanStart_cases with h | h <;> rw [h]
  exact State.pstOpen_work ..

end Sys2Proof.Machine
end

section
/-!
SUPPORT. The persist channel (R47, R48, R245, R241).
-/

namespace Sys2Proof.Machine

/-! ### The end of an epoch (R245) -/

/-- The state with no epoch open on PST. -/
def State.noEpoch (s : State) : State := { s with edge := { s.edge with pst := { s.edge.pst with epoch := .none } } }

theorem State.epochOver_clean {s : State} (hclean : s.edge.pst.epoch = .cleaning) :
    s.epochOver = if s.noEpoch.cleanDue then s.noEpoch.cleanStart else s.noEpoch.setF .TMP_FLUSH_STATE 0 0 := by
  unfold State.epochOver
  rw [if_neg (by rw [hclean]; decide)]
  rfl

/-- When a clean epoch ends, the next one is open if cleaning is due, and none otherwise. -/
theorem State.epochOver_epoch {s : State} (hr : s.regs.rising = true) (hup : s.pstUp = true) (hclean : s.edge.pst.epoch = .cleaning) :
    s.epochOver.edge.pst.epoch = if s.epochOver.cleanDue then .cleaning else .none := by
  rw [State.epochOver_clean hclean]
  by_cases hdue : s.noEpoch.cleanDue = true
  · have hnext : (s.noEpoch.pstOpen .cleaning).cleanDue = true :=
      (s.noEpoch.cleansAs_pstOpen .cleaning).cleanDue_running hdue (State.flushState_pstOpen_cleaning hr)
    rw [if_pos hdue, State.cleanStart_due (s := s.noEpoch) hup rfl hdue, if_pos hnext]
    rfl
  · have hnext : (s.noEpoch.setF .TMP_FLUSH_STATE 0 0).cleanDue = false :=
      (s.noEpoch.cleansAs_setF (by decide) 0 0).cleanDue_idle (Bool.eq_false_iff.2 hdue) (State.getF_setF_same hr _ _ _)
    rw [if_neg hdue, hnext]
    rfl

theorem State.epochOver_temper {s : State} (hclean : s.edge.pst.epoch = .cleaning) : s.epochOver.temper = s.temper := by
  rw [State.epochOver_clean hclean]
  split
  · exact s.noEpoch.cleansAs_cleanStart.temper
  · rfl

/-- PERSISTED of the committed clean epoch takes its pages out of the durable table, and ends it (R245). -/
theorem execPstPersisted_clean {s : State} {e : Nat} (hrise : s.temper.dur.rising = true) (ha : s.pstAnswers e = true)
    (hclean : s.edge.pst.epoch = .cleaning) :
    ∃ u : State, execPstPersisted e s = .next u.epochOver ∧ u.regs = s.regs ∧ u.edge = s.edge ∧
      (∀ p, s.temper.dur.find p = some (.inflight e) → u.temper.dur.find p = none) ∧
      (∀ p, s.temper.dur.find p = some .dirty → u.temper.dur.find p = some .dirty) := by
  have hflush : (s.edge.pst.epoch == .flushing) = false := by rw [hclean]; rfl
  unfold execPstPersisted
  simp only [ha, hflush, true_or, if_true, Bool.false_and, Bool.false_eq_true, if_false]
  refine ⟨_, rfl, rfl, rfl, fun p hp => ?_, fun p hp => ?_⟩ <;> rw [Tbl.find_keep hrise, hp] <;> simp [Option.filter]

/-- FAILED of the committed clean epoch makes its pages dirty again, and ends it (R245). -/
theorem execPstFailed_clean {s : State} {e : Nat} (hr : s.regs.rising = true) (ha : s.pstAnswers e = true) (hclean : s.edge.pst.epoch = .cleaning) :
    ∃ u : State, execPstFailed e s = .next u.epochOver ∧ u.regs.rising = true ∧ u.edge = s.edge ∧ u.blkState = s.blkState ∧
      (∀ p, s.temper.dur.find p = some (.inflight e) → u.temper.dur.find p = some .dirty) := by
  have hflush : (s.edge.pst.epoch == .flushing) = false := by rw [hclean]; rfl
  have hcount : (s.bumpF .TMP_FLUSH_FAILED 0).regs.rising = true := State.rising_setF hr _ _ _
  have hblk : (s.bumpF .TMP_FLUSH_FAILED 0).blkState = s.blkState := State.getF_setF_ne _ _ _ _ _ _ (by decide)
  unfold execPstFailed
  simp only [ha, hflush, true_or, if_true, Bool.false_and, Bool.false_eq_true, if_false]
  split
  · refine ⟨_, rfl, State.rising_fault (by exact hcount) _, State.fault_edge _ _, (State.getF_fault _ _ (by decide) 0).trans hblk, fun p hp => ?_⟩
    rw [State.fault_temper, Tbl.find_mapVals, State.bumpF_temper, hp]
    simp
  · refine ⟨_, rfl, hcount, rfl, hblk, fun p hp => ?_⟩
    rw [Tbl.find_mapVals, State.bumpF_temper, hp]
    simp

theorem State.pstUp_congr {s t : State} (hedge : t.edge = s.edge) (hblk : t.blkState = s.blkState) : t.pstUp = s.pstUp := by
  unfold State.pstUp State.edgeUp
  rw [hedge, hblk]

/-- An answer that names neither the open epoch nor, during a flush, an earlier one, changes nothing (R48). -/
theorem execPst_unanswered {s : State} {e : Nat} (ha : s.pstAnswers e = false) (hflush : s.edge.pst.epoch ≠ .flushing) :
    execPstPersisted e s = .next s ∧ execPstFailed e s = .next s := by
  unfold execPstPersisted execPstFailed
  simp [ha, hflush]

/-! ### Sending an epoch (R47, R48) -/

/-- A due clean epoch with no credit opens, and sends nothing. -/
theorem execPstEpochSend_opens {s : State} (hup : s.pstUp = true) (hnone : s.edge.pst.epoch = .none) (hdue : s.cleanDue = true)
    (hshed : s.shedding = true) (hcredit : s.edge.pst.credit = 0) (henough : s.cleanEnough = false) :
    execPstEpochSend s = .next (s.pstOpen .cleaning) := by
  have h := s.cleansAs_pstOpen .cleaning
  have hquench : s.quenchGoOn = s := if_pos hshed
  have hsend (l : List (Nat × Nat × Nat)) : (s.pstOpen .cleaning).pstSend l = s.pstOpen .cleaning := by
    cases l with
    | nil => rfl
    | cons p rest => exact if_pos (.inl hcredit)
  have hopen : (s.pstOpen .cleaning).cleanEnough = false := by
    unfold State.cleanEnough at henough ⊢
    rw [h.durDirty, h.cleanUrgent, h.getF _ (by decide), h.coverage, State.pstOpen_pst]
    simp_all
  unfold execPstEpochSend
  dsimp only
  rw [hquench, State.cleanStart_due hup hnone hdue, hsend]
  simp [hopen]

theorem execPstEpochSend_idle {s : State} (hnone : s.edge.pst.epoch = .none) (hdue : s.cleanDue = false) (hshed : s.shedding = true) :
    execPstEpochSend s = .next s := by
  have hquench : s.quenchGoOn = s := if_pos hshed
  have hstart : s.cleanStart = s := if_neg (by simp [hdue])
  unfold execPstEpochSend
  dsimp only
  rw [hquench, hstart, if_pos (.inl hnone)]

/-- Settles O26: an ended epoch is followed by the next one that is due, and each command is taken through its own rule. -/
theorem persistChannel : Obligations.PersistChannel := by
  intro s n e r hregs hrise
  have hr : s.regs.rising = true := hregs.1
  refine ⟨fun hup => ?_, fun hup => ?_, fun hup hclean hcommit hepoch => ?_, execPst_unanswered, execPstEpochSend_idle,
    fun hup hnone hdue hshed hcredit henough => ?_, fun hlt hen => ?_⟩
  · show execPstCredit n s = _
    simp [execPstCredit, hup]
  · refine ⟨{ s with edge := { s.edge with pst := { s.edge.pst with credit := s.edge.pst.credit + n } } }, ?_, rfl, rfl, rfl, rfl⟩
    show execPstCredit n s = _
    simp [execPstCredit, hup]
  · have ha : s.pstAnswers e = true := by simp [State.pstAnswers, hcommit, hepoch, hclean]
    constructor
    · obtain ⟨u, hexec, hur, hue, hgone, hkept⟩ := execPstPersisted_clean hrise ha hclean
      have huclean : u.edge.pst.epoch = .cleaning := by rw [hue, hclean]
      have huup : u.pstUp = true := by
        rw [State.pstUp_congr hue (by unfold State.blkState State.getF; rw [hur])]
        exact hup
      refine ⟨u.epochOver, hexec, State.epochOver_epoch (hur ▸ hr) huup huclean, ?_, ?_⟩ <;> rw [State.epochOver_temper huclean] <;> assumption
    · obtain ⟨u, hexec, hur, hue, hub, hdirty⟩ := execPstFailed_clean hr ha hclean
      have huclean : u.edge.pst.epoch = .cleaning := by rw [hue, hclean]
      refine ⟨u.epochOver, hexec, State.epochOver_epoch hur ((State.pstUp_congr hue hub).trans hup) huclean, ?_⟩
      rw [State.epochOver_temper huclean]
      exact hdirty
  · exact ⟨_, execPstEpochSend_opens hup hnone hdue hshed hcredit henough, rfl, State.pstEpoch_pstOpen hr _, State.pstOpen_out s _⟩
  · have hexec : exec (.tmpDurEnable r) s = .next (s.durEnable r) := by
      show execTmpDurEnable r s = _
      rw [execTmpDurEnable, if_pos hlt]
    rw [hexec, State.durEnable, hen]
    exact ⟨fun hok => by simp [hok], fun hbad => by simp [hbad]⟩

end Sys2Proof.Machine
end

section
/-!
SUPPORT. TREF, the sideband address and the voltage handshake (R45, R46, R49, R52).
-/

namespace Sys2Proof.Machine

/-! ### TREF (R52) -/

/-- A loss of TREF is recorded, shown in PRM_STATUS, and its time noted (R52). -/
theorem execTrefLoss_first {s : State} (hr : s.regs.rising = true) (hlost : s.edge.trefLostAt = none) :
    ∃ t r, execTrefLoss s = .next t ∧ t.bitF .PRM_STATUS_TREF_LOST 0 = true ∧ t.edge.trefLostAt = some s.now ∧
      r ∈ t.recov.faults ∧ r.reason = 0x1C ∧ r.domain = 11 ∧ r.index = s.nextIndex ∧ t.work = s.work ∧ t.mem = s.mem := by
  have hbit : ((s.fault (FaultRec.blank 0x1C 0 11)).setF .PRM_STATUS_TREF_LOST 0 1).bitF .PRM_STATUS_TREF_LOST 0 = true := by
    unfold State.bitF
    rw [State.getF_setF_same (State.rising_fault hr _)]
    rfl
  unfold execTrefLoss
  rw [hlost]
  refine ⟨_, s.dated (FaultRec.blank 0x1C 0 11), rfl, hbit, ?_, s.dated_mem_faults _, rfl, rfl, rfl, s.fault_work _, s.fault_mem _⟩
  dsimp only
  rw [State.setF_now, State.fault_now]

theorem execTrefLoss_again {s : State} {l : Nat} (hlost : s.edge.trefLostAt = some l) : execTrefLoss s = .next s := by
  unfold execTrefLoss
  rw [hlost]
  rfl

theorem execTrefRestored_lost {s : State} (hr : s.regs.rising = true) {l : Nat} (hlost : s.edge.trefLostAt = some l) :
    ∃ t, execTrefRestored s = .next t ∧ t.bitF .PRM_STATUS_TREF_LOST 0 = false ∧ t.edge.trefLostAt = none ∧
      t.edge.trefPast = s.edge.trefPast ++ [(l, s.now)] ∧ t.work = s.work := by
  have hbit : (s.setF .PRM_STATUS_TREF_LOST 0 0).bitF .PRM_STATUS_TREF_LOST 0 = false := by
    unfold State.bitF
    rw [State.getF_setF_same hr]
    rfl
  unfold execTrefRestored
  rw [hlost]
  exact ⟨_, rfl, hbit, rfl, rfl, rfl⟩

/-- TREF lost is a warm reset once it has lasted more than 10 s, and not before (R52). -/
theorem execTrefLostTimeout_lost {s : State} {l : Nat} (hlost : s.edge.trefLostAt = some l) :
    execTrefLostTimeout s = .next (if l + 10000000000 < s.now then s.warmTrigger 5 0 else s) := by
  unfold execTrefLostTimeout
  rw [hlost]
  dsimp only
  split <;> rfl

/-! ### The voltage handshake (R45, R46) -/

theorem execVidAckRise_requested {s : State} (hr : s.regs.rising = true) (hreq : s.edge.pins.vidReq = true) (hack : s.edge.pins.vidAck = false)
    (hcode : s.edge.pins.vidCode < 64) :
    ∃ t, execVidAckRise s = .next t ∧ t.getF .TMP_STATUS_CODE 0 = s.edge.pins.vidCode ∧ t.edge.pins.vidReq = false ∧
      t.edge.pins.vidAck = true ∧ t.work = s.work := by
  have hget : (s.setF .TMP_STATUS_CODE 0 s.edge.pins.vidCode).getF .TMP_STATUS_CODE 0 = s.edge.pins.vidCode := by
    rw [State.getF_setF_same hr]
    exact Nat.mod_eq_of_lt hcode
  unfold execVidAckRise
  rw [if_pos ⟨hreq, by rw [hack]; rfl⟩]
  exact ⟨_, rfl, hget, rfl, rfl, rfl⟩

theorem execVidAckFall_ended {s : State} (hreq : s.edge.pins.vidReq = false) (hack : s.edge.pins.vidAck = true) :
    ∃ t, execVidAckFall s = .next t ∧ t.edge.pins.vidAck = false ∧ t.vidBusy = false ∧ t.regs = s.regs ∧ t.work = s.work := by
  unfold execVidAckFall
  rw [if_pos ⟨hack, by rw [hreq]; rfl⟩]
  exact ⟨_, rfl, rfl, by unfold State.vidBusy; dsimp only; rw [hreq]; rfl, rfl, rfl⟩

/-- A request that has been recorded late is not recorded again (R46). -/
theorem execVidAckLate_logged {s : State} (hlate : s.edge.vidLate = true) : execVidAckLate s = .next s := by
  unfold execVidAckLate
  rw [if_neg (by simp [hlate])]

theorem execVidAckLate_due {s : State} (hreq : s.edge.pins.vidReq = true) (hack : s.edge.pins.vidAck = false) (hlate : s.edge.vidLate = false)
    (hdue : s.edge.vidAt + 250000 ≤ s.now) :
    ∃ t r, execVidAckLate s = .next t ∧ t.edge.pins.vidReq = true ∧ t.edge.vidLate = true ∧ r ∈ t.recov.faults ∧ r.reason = 0x1B ∧
      r.aux0 = s.edge.pins.vidCode ∧ execVidAckLate t = .next t := by
  unfold execVidAckLate
  rw [if_pos ⟨hreq, by rw [hack]; rfl, by rw [hlate]; rfl, hdue⟩]
  refine ⟨_, s.dated { FaultRec.blank 0x1B 0 11 with aux0 := s.edge.pins.vidCode }, rfl, ?_, rfl, s.dated_mem_faults _, rfl, rfl,
    execVidAckLate_logged rfl⟩
  dsimp only
  rw [State.bumpF_edge, State.fault_edge, hreq]

/-- Settles O23: each command of TREF, the sideband address and the voltage handshake by its own rule. -/
theorem clockAndVoltage : Obligations.ClockAndVoltage := by
  refine ⟨fun s a hregs => ⟨execTrefLoss_first hregs.1, fun l hlost => ⟨execTrefLoss_again hlost, execTrefRestored_lost hregs.1 hlost, ?_, ?_⟩, ?_, ?_⟩,
    fun s hregs => ⟨execVidAckRise_requested hregs.1, execVidAckFall_ended, execVidAckLate_due⟩⟩
  · intro hsoon
    exact (execTrefLostTimeout_lost hlost).trans (by rw [if_neg (by omega)])
  · intro hlong
    exact (execTrefLostTimeout_lost hlost).trans (by rw [if_pos hlong])
  · intro hup
    show execI3cEntdaa a s = _
    rw [execI3cEntdaa, if_pos hup]
  · intro hdown
    show execI3cEntdaa a s = _
    rw [execI3cEntdaa, if_neg (by rw [hdown]; decide)]

end Sys2Proof.Machine
end

section
/-!
SUPPORT. Telemetry records and staleness (R43, R44, R227).
-/

namespace Sys2Proof.Machine

/-! ### Fields of a record (Table 2-6) -/

theorem getD_byte {b : List Byte} {o : Nat} (h : o < b.length) : b.getD o 0 = b[o] := by
  rw [List.getD_eq_getElem?_getD, List.getElem?_eq_getElem h, Option.getD_some]

theorem fieldLE_one {b : List Byte} {o : Nat} (h : o + 1 ≤ b.length) : fieldLE b o 1 = (b.getD o 0).toNat := by
  have hcons : b.drop o = b[o] :: b.drop (o + 1) := List.drop_eq_getElem_cons (by omega)
  unfold fieldLE
  rw [hcons, getD_byte (by omega)]
  rfl

theorem fieldLE_two {b : List Byte} {o : Nat} (h : o + 2 ≤ b.length) : fieldLE b o 2 = (b.getD o 0).toNat + 256 * (b.getD (o + 1) 0).toNat := by
  have hcons : b.drop o = b[o] :: b[o + 1] :: b.drop (o + 2) := by
    rw [List.drop_eq_getElem_cons (by omega), List.drop_eq_getElem_cons (by omega)]
  unfold fieldLE
  rw [hcons, getD_byte (by omega), getD_byte (by omega)]
  rfl

/-- The lowest bit of a field is that of its first byte. -/
theorem testBit_fieldLE_two {b : List Byte} {o : Nat} (h : o + 2 ≤ b.length) : (fieldLE b o 2).testBit 0 = (b.getD o 0).getLsbD 0 := by
  have hodd : ((b.getD o 0).toNat + 256 * (b.getD (o + 1) 0).toNat) % 2 = (b.getD o 0).toNat % 2 := by omega
  rw [fieldLE_two h, BitVec.getLsbD, Nat.testBit_zero, Nat.testBit_zero, hodd]

theorem State.length_of_tlmOk {s : State} {b : List Byte} (h : s.tlmOk b = true) : b.length = 48 := by
  unfold State.tlmOk at h
  simp only [Bool.and_eq_true, beq_iff_eq] at h
  exact h.1.1.1

/-! ### Staleness (R227) -/

/-- Noting a stale spell touches Temper alone. -/
theorem State.noteStale_eq (s : State) : s.noteStale = { s with temper := s.noteStale.temper } := by
  unfold State.noteStale
  split <;> rfl

@[simp] theorem State.noteStale_regs (s : State) : s.noteStale.regs = s.regs := by rw [s.noteStale_eq]
@[simp] theorem State.noteStale_edge (s : State) : s.noteStale.edge = s.edge := by rw [s.noteStale_eq]
@[simp] theorem State.noteStale_work (s : State) : s.noteStale.work = s.work := by rw [s.noteStale_eq]
@[simp] theorem State.noteStale_now (s : State) : s.noteStale.now = s.now := by rw [s.noteStale_eq]

theorem State.noteStale_current {s : State} (h : s.stale = false) : s.noteStale = s := by
  unfold State.noteStale
  rw [h]
  rfl

theorem State.noteStale_noted {s : State} {a : Nat} (h : s.temper.staleAt = some a) : s.noteStale = s := by
  unfold State.noteStale
  rw [h]
  exact if_neg (by simp)

theorem State.tmpState_stale {s : State} (hstale : s.stale = true) (hlow : s.getF .TMP_STATUS_STATE 0 < 2) : s.tmpState = 0 := by
  unfold State.tmpState
  dsimp only
  rw [if_neg (by omega), hstale]
  simp

/-! ### A record arrives (R44) -/

section
variable {s : State} {b : List Byte} (hpor : s.edge.pins.porstN = true) (hpwr : s.edge.pins.edgePwrOk = true)
include hpor hpwr

theorem execTlmRecord_bad (hbad : s.tlmOk b = false) : execTlmRecord b s = .next (s.incF .TMP_TLM_DISCARDS 0) := by
  simp [execTlmRecord, hpor, hpwr, hbad]

/-- With the core off a valid record replaces the last, and Temper takes nothing from it yet (R44, R228). -/
theorem execTlmRecord_coreOff (hok : s.tlmOk b = true) (hoff : s.coreOn = false) :
    execTlmRecord b s = .next { s.noteStale with edge := { s.noteStale.edge with tlm := some (parseTlm b s.noteStale.now) } } := by
  have hcore : ¬ s.noteStale.coreOn = true := by
    unfold State.coreOn at hoff ⊢
    rw [s.noteStale_edge, hoff]
    decide
  unfold execTlmRecord
  rw [if_neg (by simp [hpor, hpwr]), if_neg (by simp [hok])]
  exact congrArg Host.Outcome.next (if_neg hcore)

end

/-! ### Coverage (R242, R244) -/

/-- Beside the coverage itself, a record and a clean epoch that opens, a new coverage changes nothing that cleaning looks at. -/
theorem State.cleansAs_setCoverage (s : State) (c : Nat) : (s.setF .TMP_DUR_COVER_PAGES 0 (min c (2 ^ 32 - 1))).CleansAs (s.setCoverage c) := by
  unfold State.setCoverage
  dsimp only
  split
  · exact (State.cleansAs_fault _ _).trans (State.cleansAs_cleanStart _)
  · exact State.cleansAs_cleanStart _

theorem State.setCoverage_work (s : State) (c : Nat) : (s.setCoverage c).work = s.work := by
  unfold State.setCoverage
  dsimp only
  rw [State.cleanStart_work]
  split
  · rw [State.fault_work, State.setF_work]
  · rfl

/-- A stale spell begins: STALE, no coverage, and of the grants only what a section owes (R227, R233). -/
theorem execTlmStale_stale {s : State} (hr : s.regs.rising = true) (hstale : s.stale = true) (hlow : s.getF .TMP_STATUS_STATE 0 < 2) :
    ∃ t, execTlmStale s = .next t ∧ t.tmpState = 0 ∧ t.getF .TMP_DUR_COVER_PAGES 0 = 0 ∧
      (∀ k v, t.temper.grants.find k = some v → v < 0) ∧ t.work = s.work := by
  have hexec : execTlmStale s = .next (s.noteStale.withdrawGrants.setCoverage 0) := by
    unfold execTlmStale
    rw [if_pos hstale]
  have hregs : s.noteStale.withdrawGrants.regs = s.regs := s.noteStale_regs
  have hget (f : Fld) : s.noteStale.withdrawGrants.getF f 0 = s.getF f 0 := by unfold State.getF; rw [hregs]
  have h := s.noteStale.withdrawGrants.cleansAs_setCoverage 0
  have hset (f : Fld) (hf : f ≠ .TMP_DUR_COVER_PAGES) :
      (s.noteStale.withdrawGrants.setF .TMP_DUR_COVER_PAGES 0 (min 0 (2 ^ 32 - 1))).getF f 0 = s.getF f 0 := by
    rw [State.getF_setF_ne _ _ _ _ _ _ (fun e => hf e.1), hget]
  have hkept : (s.noteStale.withdrawGrants.setF .TMP_DUR_COVER_PAGES 0 (min 0 (2 ^ 32 - 1))).stale = s.stale :=
    State.stale_congr (congrArg Edge.tlm s.noteStale_edge) s.noteStale_now (hset _ (by decide)) (hset _ (by decide))
  refine ⟨_, hexec, State.tmpState_stale (h.stale.trans (hkept.trans hstale)) ?_, ?_, fun k v hv => ?_, ?_⟩
  · rw [h.getF _ (by decide), hset _ (by decide)]
    exact hlow
  · rw [h.getF _ (by decide), State.getF_setF_same (hregs ▸ hr)]
    rfl
  · rw [h.temper] at hv
    exact of_decide_eq_true (Tbl.sat_of_find_keep (t := s.noteStale.temper.grants) (p := fun _ g => decide (g < 0)) hv)
  · rw [State.setCoverage_work]
    exact s.noteStale_work

/-- A stale spell of 1 ms is recorded once, naming TLM (R227). -/
theorem execTlmStaleFault_due {s : State} {a : Nat} (hstale : s.stale = true) (hat : s.temper.staleAt = some a)
    (hlogged : s.temper.staleLogged = false) (hdue : a + 1000000 ≤ s.now) :
    ∃ t r, execTlmStaleFault s = .next t ∧ t.temper.staleLogged = true ∧ r ∈ t.recov.faults ∧ r.reason = 0x1A ∧ r.index = s.nextIndex := by
  unfold execTlmStaleFault
  dsimp only
  rw [State.noteStale_noted hat, if_pos ⟨hstale, by rw [hlogged]; rfl, by rw [hat]; exact hdue⟩]
  refine ⟨_, _, rfl, ?_, State.dated_mem_faults _ _, rfl, rfl⟩
  rw [State.fault_temper]

theorem execTlmStale_current {s : State} (h : s.stale = false) : execTlmStale s = .next s ∧ execTlmStaleFault s = .next s := by
  unfold execTlmStale execTlmStaleFault
  simp [h, State.noteStale_current h]

/-- Settles O24: a record by its checks and with the core off, and a stale spell by its two commands. -/
theorem telemetryRecords : Obligations.TelemetryRecords := by
  intro s b hregs hpor hpwr
  refine ⟨fun hbad => ?_, fun hok hoff => ?_, execTlmStale_stale hregs.1, execTlmStale_current, fun a => execTlmStaleFault_due⟩
  · exact ⟨_, execTlmRecord_bad hpor hpwr hbad, State.getF_setF_same hregs.1 _ _ _, rfl, rfl, rfl⟩
  · have hlen := State.length_of_tlmOk hok
    exact ⟨_, _, execTlmRecord_coreOff hpor hpwr hok hoff, rfl, s.noteStale_now, fieldLE_one (by omega), testBit_fieldLE_two (by omega), fieldLE_two (by omega),
      s.noteStale_work, s.noteStale_regs⟩

end Sys2Proof.Machine
end

section
/-!
SUPPORT. Die-to-die modules (R35, R402) beside the link monitor (R323).
-/

namespace Sys2Proof.Machine

/-- A powered block of node 0 with its map in force: module 0 of die 0 trains, its port 0 is in TRAINING, and the link monitor, which watches
port 0, writes its records to a ring at the start of the pool. -/
def monitoredTraining : State :=
  let s := { State.reset with
    edge := { Edge.reset with
      coreOut := true, ia := [(0, ⟨.training, .l0⟩)], build := { Edge.reset.build with stackGib := 24 }
      pins := { Edge.reset.pins with porstN := true, corePwrOk := true, edgePwrOk := true } } }
  let s := ((s.setF .FIL_NODE_NODE 0 0).setF .FIL_NODE_LOCK 0 1).setF .MEM_STATUS_MAPPED 0 1
  ((s.setF .FIL_PORT_STAT_STATE 0 1).setF .FIL_MON_CTRL_EN 0 1).setF .FIL_MON_SIZE_MIB 0 1

set_option maxRecDepth 4000 in
/-- The echo flits of port 0 pass the monitor, whose records are lines of the pool (R310, R323). -/
theorem iaModuleTrained_writes_monitor_records :
    ∃ t, execIaModuleTrained 0 0 false monitoredTraining = .next t ∧ t.mem.lines ≠ monitoredTraining.mem.lines :=
  ⟨_, rfl, by decide⟩

/-- Refutes O22: in `monitoredTraining` the module opens, and its port's echo flits make the link monitor write to pool memory, which the
statement says stands. -/
theorem not_dieModules : ¬ Obligations.DieModules := by
  intro h
  obtain ⟨-, hpresent⟩ := h monitoredTraining 0 0 false ⟨.training, .l0⟩ (by decide)
  obtain ⟨htrained, -⟩ := hpresent (by decide)
  obtain ⟨t, hexec, -, hmem, -⟩ := htrained (.inl rfl)
  obtain ⟨u, hwrites, hlines⟩ := iaModuleTrained_writes_monitor_records
  have htu : t = u := Host.Outcome.next.inj (hexec.symm.trans hwrites)
  exact hlines (by rw [← htu, hmem])

end Sys2Proof.Machine
end

section
/-!
SUPPORT. Changes made for each element of a list, and what a queue's context holds after the updates that queues share: its ready mark, its pause on
an error, the completions it takes back (R107, R161, R424).
-/

namespace Sys2Proof.Machine

/-! ### Changes made for each element of a list -/

/-- What one change keeps, the changes for all the elements of a list keep. -/
theorem State.each_keeps {α : Type} {P : State → Prop} {f : State → α → State} (hf : ∀ s a, P s → P (f s a)) (l : List α) {s : State} (hs : P s) :
    P (s.each l f) := by
  induction l generalizing s with
  | nil => exact hs
  | cons a l ih => exact ih (hf s a hs)

/-- A field written for each unit of a list. -/
theorem State.getF_each_setF (f : Fld) (v : Nat) (l : List Nat) {s : State} (hr : s.regs.rising = true) (g : Fld) (j : Nat) :
    (s.each l (fun s n => s.setF f n v)).getF g j = if g = f ∧ j ∈ l then v % 2 ^ f.width else s.getF g j := by
  induction l generalizing s with
  | nil => simp [State.each]
  | cons n l ih =>
    show ((s.setF f n v).each l (fun s n => s.setF f n v)).getF g j = _
    rw [ih (State.rising_setF hr f n v), State.getF_setF hr]
    simp only [List.mem_cons]
    grind

theorem State.rising_each_setF {α : Type} (l : List α) {f : α → Fld} {i v : α → Nat} {s : State} (hr : s.regs.rising = true) :
    (s.each l (fun s a => s.setF (f a) (i a) (v a))).regs.rising = true :=
  State.each_keeps (P := fun s => s.regs.rising = true) (fun _ _ h => State.rising_setF h _ _ _) l hr

theorem State.each_setF_rest {α : Type} (l : List α) (f : α → Fld) (i v : α → Nat) (s : State) :
    s.each l (fun s a => s.setF (f a) (i a) (v a)) = { s with regs := (s.each l (fun s a => s.setF (f a) (i a) (v a))).regs } :=
  State.each_keeps (P := fun t => t = { s with regs := t.regs }) (fun t a h => by rw [h]; rfl) l rfl

/-! ### Contexts and register fields -/

@[simp] theorem State.qx_setQx_same (s : State) (q : Nat) (x : QueueX) : (s.setQx q x).qx q = x := by
  unfold State.qx State.setQx
  dsimp only
  rw [Tbl.findD_put, if_pos rfl]

theorem State.qx_congr {s t : State} (h : t.work = s.work) (q : Nat) : t.qx q = s.qx q := by
  unfold State.qx
  rw [h]

theorem State.core_congr {s t : State} (h : t.work = s.work) (c : Nat) : t.core c = s.core c := by
  unfold State.core
  rw [h]

@[simp] theorem State.qx_setCore (s : State) (c : Nat) (k : Core) (q : Nat) : (s.setCore c k).qx q = s.qx q := rfl
@[simp] theorem State.qx_setF (s : State) (f : Fld) (i v q : Nat) : (s.setF f i v).qx q = s.qx q := rfl
@[simp] theorem State.qx_incF (s : State) (f : Fld) (i q : Nat) : (s.incF f i).qx q = s.qx q := rfl
@[simp] theorem State.getF_setQx (s : State) (q : Nat) (x : QueueX) (f : Fld) (i : Nat) : (s.setQx q x).getF f i = s.getF f i := rfl

/-- Marking a queue ready writes no register field but the pending sources of c0. -/
theorem State.getF_markReady (s : State) (q : Nat) {f : Fld} (hf : f ≠ .CIC_PEND) (i : Nat) : (s.markReady q).getF f i = s.getF f i := by
  unfold State.markReady
  dsimp only
  split
  · split
    · exact State.getF_setF_ne _ _ _ _ _ _ (fun e => hf e.1)
    · rfl
  · rfl

/-! ### A pause on an error (R107, Table 4-12) -/

/-- What `pauseOnError` writes before QUEUE_ERR is raised. -/
theorem State.notifies_pauseOnError (s : State) (q e : Nat) :
    ((if s.qState q = 3 then s.setF .QCX_STATE_PRIOR q 2 else s.setF .QCX_STATE_STATE q 2).setF .QCX_ERR_LAST_ERR q e).Notifies (s.pauseOnError q e) :=
  State.notifies_managerCause _ 1

theorem State.pauseOnError_work (s : State) (q e : Nat) : (s.pauseOnError q e).work = s.work := by
  rw [(s.notifies_pauseOnError q e).rest]
  dsimp only
  rw [State.setF_work]
  split <;> rfl

@[simp] theorem State.qx_pauseOnError (s : State) (q e : Nat) : (s.pauseOnError q e).qx q = s.qx q :=
  State.qx_congr (s.pauseOnError_work q e) q

section
variable {s : State} {q : Nat} (hr : s.regs.rising = true)
include hr

theorem State.lastErr_pauseOnError (e : Nat) : (s.pauseOnError q e).getF .QCX_ERR_LAST_ERR q = e % 256 := by
  rw [(s.notifies_pauseOnError q e).getF _ (by decide)]
  refine State.getF_setF_same ?_ _ _ _
  split <;> exact State.rising_setF hr _ _ _

theorem State.qState_pauseOnError (h : s.qState q ≠ 3) (e : Nat) : (s.pauseOnError q e).qState q = 2 := by
  unfold State.qState
  rw [(s.notifies_pauseOnError q e).getF _ (by decide), if_neg h, State.getF_setF_ne _ _ _ _ _ _ (by simp), State.getF_setF_same hr]
  rfl

/-- A FROZEN queue stays FROZEN, and THAW will find it PAUSED (log entry 77). -/
theorem State.frozen_pauseOnError (h : s.qState q = 3) (e : Nat) :
    (s.pauseOnError q e).qState q = 3 ∧ (s.pauseOnError q e).getF .QCX_STATE_PRIOR q = 2 := by
  have hn := s.notifies_pauseOnError q e
  rw [if_pos h] at hn
  constructor
  · unfold State.qState
    rw [hn.getF _ (by decide), State.getF_setF_ne _ _ _ _ _ _ (by simp), State.getF_setF_ne _ _ _ _ _ _ (by simp)]
    exact h
  · rw [hn.getF _ (by decide), State.getF_setF_ne _ _ _ _ _ _ (by simp), State.getF_setF_same hr]
    rfl

end

/-! ### Completions taken back (R424) -/

theorem State.rising_unpost {s : State} (hr : s.regs.rising = true) (q : Nat) : (s.unpost q).regs.rising = true := by
  refine State.rising_setF (State.rising_setF ?_ _ _ _) _ _ _
  split
  · exact State.rising_setF hr _ _ _
  · exact hr

theorem State.qState_unpost (s : State) (q : Nat) : (s.unpost q).qState q = s.qState q := by
  unfold State.unpost State.qState
  dsimp only
  rw [State.getF_setQx, State.getF_setF_ne _ _ _ _ _ _ (by simp), State.getF_setF_ne _ _ _ _ _ _ (by simp)]
  split
  · exact State.getF_setF_ne _ _ _ _ _ _ (by simp)
  · rfl

end Sys2Proof.Machine
end

section
/-!
SUPPORT. Doorbell-page writes on a queue that a freeze has stopped (R73, R94, R161).
-/

namespace Sys2Proof.Machine

/-! ### A tail out of range (R94) -/

section
variable {s : State} {p : Path} {q : Nat}

/-- A doorbell-page write acts on a queue with a context, through the path recorded for it (R92, R93, Table 4-12). -/
theorem State.doorbell_acts (hshut : s.pathShut p = false) (hclosed : s.closed = false) (hfree : s.qState q ≠ 0) (htomb : s.qState q ≠ 4)
    (hpath : s.queuePath q p = true) (held act : State → State) : s.doorbell p q held act = act s := by
  unfold State.doorbell
  simp [hshut, hclosed, hfree, htomb, hpath]

/-- A tail of entries or more sets TAIL_RANGE, and the queue is still marked ready where it announces descriptors. -/
theorem State.newTail_outOfRange {v : Nat} (hv : s.entries q ≤ v) : s.newTail q v = (s.setF .QCX_ERR_LAST_ERR q 4).markReady q := by
  unfold State.newTail State.recordTail
  rw [if_pos hv]

theorem State.readyAt_markReady (hahead : s.getF .QCX_SQ_PTRS_TAIL q ≠ s.getF .QCX_SQ_PTRS_HEAD q) (hready : (s.qx q).readyAt = none) :
    ((s.markReady q).qx q).readyAt = some s.now := by
  have hmarks : s.getF .QCX_SQ_PTRS_TAIL q ≠ s.getF .QCX_SQ_PTRS_HEAD q ∧ (s.qx q).readyAt.isNone = true := ⟨hahead, by rw [hready]; rfl⟩
  unfold State.markReady
  dsimp only
  rw [if_pos hmarks]
  split
  · exact congrArg QueueX.readyAt (State.qx_setQx_same ..)
  · rw [State.qx_setQx_same]

end

/-! ### A freeze (R73, R338) -/

theorem State.regsOk_unfetch {s : State} (h : s.regsOk) (q : Nat) : (s.unfetch q).regsOk := by
  unfold State.unfetch
  dsimp only
  split
  · exact h
  · exact State.regsOk_setF (State.regsOk_setF h _ _ _) _ _ _

theorem State.regsOk_freezeQueues {s : State} (h : s.regsOk) (slice : Nat) : (s.freezeQueues slice).regsOk := by
  refine State.each_keeps (P := State.regsOk) (fun t q ht => ?_) _ h
  split
  · exact State.regsOk_setF (State.regsOk_setF (State.regsOk_unfetch ht q) _ _ _) _ _ _
  · exact ht

/-- A powered block with every register at its reset value. -/
def poweredBlock : State := { State.reset with regs := [], edge := { Edge.reset with pins := { Edge.reset.pins with corePwrOk := true } } }

/-- Queue 3 of `poweredBlock`, of 16 entries, of slice 5 and of node 9, is ACTIVE and has fetched the one descriptor announced. -/
def fetchedOne : State :=
  (poweredBlock.each [(.QCX_STATE_STATE, 3, 1), (.QCX_CFG_LOG2_ENTRIES, 3, 4), (.QCX_OWNER_SLICE, 3, 5), (.QCX_OWNER_PORT, 3, 8),
    (.SLC_NODE_NODE, 5, 9), (.QCX_SQ_PTRS_TAIL, 3, 1), (.QCX_SQ_PTRS_HEAD, 3, 1)] (fun s x => s.setF x.1 x.2.1 x.2.2)).setQx 3
      { QueueX.fresh with fetched := [parseDesc (List.replicate 64 0) false 0], reserved := 1 }

/-- The descriptor is in the ring again, and the queue, FROZEN, is not marked ready. -/
def refrozen : State := fetchedOne.freezeQueues 5

theorem refrozen_regsOk : refrozen.regsOk :=
  have hwritten := State.each_keeps (P := State.regsOk) (fun _ (x : Fld × Nat × Nat) h => State.regsOk_setF h x.1 x.2.1 x.2.2) _ (State.regsOk_nil rfl)
  State.regsOk_freezeQueues (s := fetchedOne) hwritten 5

/-- Refutes O27: in `refrozen` a write of SQ_TAIL with the value 16, at the entries, sets TAIL_RANGE and also marks the queue ready, since the model
looks for announced descriptors after a tail out of range too, where the statement says that nothing else changes. -/
theorem not_doorbells : ¬ Obligations.Doorbells := by
  intro h
  obtain ⟨hserved, -⟩ := h
  obtain ⟨-, hrange, -⟩ := hserved refrozen (.fil 0 9) 3 16 refrozen_regsOk (by decide) (by decide) (by decide) (by decide) (by decide)
  have hsays : execSqTailWrite (.fil 0 9) 3 16 refrozen = .next (refrozen.setF .QCX_ERR_LAST_ERR 3 4) := hrange (by decide) (by decide)
  have hdoes : refrozen.tailWrite (.fil 0 9) 3 16 = (refrozen.setF .QCX_ERR_LAST_ERR 3 4).markReady 3 := by
    unfold State.tailWrite
    rw [State.doorbell_acts (by decide) (by decide) (by decide) (by decide) (by decide), if_neg (by decide), State.newTail_outOfRange (by decide)]
  have hsame : (refrozen.setF .QCX_ERR_LAST_ERR 3 4).markReady 3 = refrozen.setF .QCX_ERR_LAST_ERR 3 4 := hdoes.symm.trans (Host.Outcome.next.inj hsays)
  have hready := State.readyAt_markReady (s := refrozen.setF .QCX_ERR_LAST_ERR 3 4) (q := 3) (by decide) (by decide)
  rw [hsame] at hready
  exact absurd hready (by decide)

end Sys2Proof.Machine
end

section
/-!
SUPPORT. Tail lines, failed ring accesses and the fetch of descriptors (R80, R90, R97, R107).
-/

namespace Sys2Proof.Machine

/-! ### Tail lines (R90) -/

/-- A queue whose line is not held and that waits for RESUME_QUEUE leaves its line alone. -/
theorem State.tendTail_waiting {s : State} {q : Nat} (hwatch : (s.qx q).watch = none) (hwait : s.takesTail q = false) : s.tendTail q = s := by
  unfold State.tendTail
  simp [hwatch, hwait]

section
variable {s u : State} {q : Nat} {e rs : List Ext}

theorem State.readTail_bytes {b : List Byte}
    (hrd : s.readGuest (s.qSec q) ⟨s.qSlice q, none, false⟩ (s.getF .QCX_TAIL_LINE q * 64) 4 e = (.bytes b, rs, u)) :
    s.readTail q e = u.newTail q (natLE b) := by
  unfold State.readTail
  rw [hrd]

/-- The state once the block has given up a queue's tail line. -/
def State.dropTail (s : State) (q : Nat) : State := s.setQx q { s.qx q with watch := none }

/-- The LAST_ERR code of a read of TAIL that fails (Table 4-12). -/
def Read.tailError : Read → Nat
  | .xlate _ => 3
  | .poison => 7
  | _ => 8

/-- A read of TAIL that fails gives the line up and pauses the queue. -/
theorem State.readTail_failed {r : Read} (hr : ∀ b, r ≠ .bytes b)
    (hrd : s.readGuest (s.qSec q) ⟨s.qSlice q, none, false⟩ (s.getF .QCX_TAIL_LINE q * 64) 4 e = (r, rs, u)) (hu : u.qState q = 1 ∨ u.qState q = 2) :
    s.readTail q e = (u.dropTail q).pauseOnError q r.tailError := by
  unfold State.readTail
  rw [hrd]
  cases r with
  | bytes b => exact absurd rfl (hr b)
  | _ => exact if_pos hu

theorem execTailLineSnoop_tailed (hs : s.qState q = 1 ∨ s.qState q = 2) (hkind : s.getF .QCX_CFG_KIND q = 3) :
    execTailLineSnoop q e s = .next ((s.readTail q e).tendTail q) := by
  have htailed : s.tailed q = true := by
    unfold State.tailed
    rcases hs with h | h <;> simp [h, hkind]
  exact congrArg Host.Outcome.next (if_pos htailed)

/-- A queue that an error has paused waits for RESUME_QUEUE, and a line that it has given up is not asked for. -/
theorem State.tendTail_pauseOnError (hr : s.regs.rising = true) (hs : s.qState q = 1 ∨ s.qState q = 2) (hwatch : (s.qx q).watch = none) {err : Nat}
    (herr : err % 256 ≠ 0) : (s.pauseOnError q err).tendTail q = s.pauseOnError q err := by
  have hstate : (s.pauseOnError q err).qState q = 2 := State.qState_pauseOnError hr (by omega) err
  have hlast : (s.pauseOnError q err).getF .QCX_ERR_LAST_ERR q ≠ 0 := by rwa [State.lastErr_pauseOnError hr]
  refine State.tendTail_waiting (by rwa [State.qx_pauseOnError]) ?_
  unfold State.takesTail
  simp [hstate, hlast]

theorem execTailLineSnoop_failed (hru : u.regs.rising = true) {r : Read} (hr : ∀ b, r ≠ .bytes b)
    (hrd : s.readGuest (s.qSec q) ⟨s.qSlice q, none, false⟩ (s.getF .QCX_TAIL_LINE q * 64) 4 e = (r, rs, u))
    (hs : s.qState q = 1 ∨ s.qState q = 2) (hkind : s.getF .QCX_CFG_KIND q = 3) (hu : u.qState q = 1 ∨ u.qState q = 2) :
    execTailLineSnoop q e s = .next ((u.dropTail q).pauseOnError q r.tailError) := by
  have herr : r.tailError % 256 ≠ 0 := by cases r <;> simp [Read.tailError]
  rw [execTailLineSnoop_tailed hs hkind, State.readTail_failed hr hrd hu, State.tendTail_pauseOnError (s := u.dropTail q) hru hu (by simp [State.dropTail]) herr]

/-! ### Failed ring accesses (R107, R424) -/

/-- The failures of a ring access with their LAST_ERR codes. -/
def ringErrors : List (RingFail × Nat) := [(.sqXlate, 1), (.cqXlate, 2), (.tailXlate, 3), (.poison, 7), (.refused, 8), (.cqRefused, 8)]

/-- A failed write of a CQ entry takes back what had left the block, and then the queue pauses on its error. -/
theorem unpost_cqError (hr : s.regs.rising = true) (err : Nat) :
    ∃ u : State, (s.unpost q).cqError q err = u.pauseOnError q err ∧ u.regs.rising = true ∧ u.qState q = s.qState q :=
  ⟨(s.unpost q).setQx q { (s.unpost q).qx q with cqFailed := true }, rfl, by rw [State.setQx_regs, State.rising_unpost hr],
    (State.getF_setQx ..).trans (s.qState_unpost q)⟩

theorem lastErr_fits {p : RingFail × Nat} (hp : p ∈ ringErrors) : p.2 % 256 = p.2 := by
  have hall : ∀ x ∈ ringErrors, x.2 % 256 = x.2 := by decide
  exact hall p hp

theorem execRingAccessFailure_pauses (hr : s.regs.rising = true) {p : RingFail × Nat} (hp : p ∈ ringErrors)
    (hs : s.qState q = 1 ∨ s.qState q = 2 ∨ (s.qState q = 3 ∧ (p.1 = .cqXlate ∨ p.1 = .cqRefused))) :
    ∃ u : State, execRingAccessFailure q p.1 s = .next (u.pauseOnError q p.2) ∧ u.regs.rising = true ∧ u.qState q = s.qState q := by
  have hacts : s.qState q = 1 ∨ s.qState q = 2 ∨ s.qState q = 3 := by omega
  unfold execRingAccessFailure
  dsimp only
  rw [if_pos hacts]
  by_cases hcq : p.1 = .cqXlate ∨ p.1 = .cqRefused
  · obtain ⟨u, hu, hkept⟩ := unpost_cqError (q := q) hr p.2
    refine ⟨u, ?_, hkept⟩
    rw [← hu]
    simp only [ringErrors, List.mem_cons, List.not_mem_nil, or_false] at hp
    rcases hp with rfl | rfl | rfl | rfl | rfl | rfl <;> simp at hcq ⊢
  · have hopen : ¬ s.qState q = 3 := by rcases hs with h | h | ⟨-, h⟩ <;> simp_all
    refine ⟨s, ?_, hr, rfl⟩
    simp only [ringErrors, List.mem_cons, List.not_mem_nil, or_false] at hp
    rcases hp with rfl | rfl | rfl | rfl | rfl | rfl <;> simp [hopen] at hcq ⊢

theorem execRingAccessFailure_frozen {f : RingFail} (hs : s.qState q = 3) (hx : f ≠ .cqXlate) (hrf : f ≠ .cqRefused) :
    execRingAccessFailure q f s = .next s := by
  unfold execRingAccessFailure
  cases f <;> simp [hs] at hx hrf ⊢

theorem execRingAccessFailure_free {f : RingFail} (hs : s.qState q = 0 ∨ s.qState q = 4) : execRingAccessFailure q f s = .next s :=
  if_neg (by omega)

end

/-! ### Fetch (R80, R97) -/

section
variable {s u w : State} {c q va : Nat} {d : Desc} {e rs rs' : List Ext} {b : List Byte}

theorem execDescriptorFetch_none (h : s.coreUp c = false ∨ s.bitF .CUE_DBG_CTRL_HALT_REQ c = true ∨ s.bitF .CUE_DBG_CTRL_HALTED c = true ∨ s.turn c = none) :
    execDescriptorFetch c e s = .next s := by
  unfold execDescriptorFetch
  rcases h with h | h | h | h <;> simp [h]

/-- What a copied descriptor holds of its bytes (Table 4-1). -/
theorem State.copyDesc_fields {depth : Nat} (h : s.copyDesc q depth va b rs = (d, rs', w)) :
    d.opc = fieldLE b 0 1 ∧ d.flags = fieldLE b 1 1 ∧ d.tag = fieldLE b 4 4 := by
  unfold State.copyDesc at h
  dsimp only at h
  split at h
  · split at h <;> cases h <;> exact ⟨rfl, rfl, rfl⟩
  · cases h
    exact ⟨rfl, rfl, rfl⟩

theorem State.fetchQueue_head (hchain : (s.qx q).chain = none)
    (hrd : s.readGuest (s.qSec q) ⟨s.qSlice q, none, false⟩ (s.getF .QCX_SQ_BASE q * 4096 + 64 * s.getF .QCX_SQ_PTRS_HEAD q) 64 e = (.bytes b, rs, u)) :
    s.fetchQueue q e = u.fetchChain q 257 0 (s.getF .QCX_SQ_BASE q * 4096 + 64 * s.getF .QCX_SQ_PTRS_HEAD q) b rs := by
  unfold State.fetchQueue
  simp only [hchain, Option.getD_none, hrd]

theorem State.fetchChain_noRoom {fuel : Nat} (hcopy : u.copyDesc q 0 va b rs = (d, rs', w)) (hroom : w.roomFor q d = false) :
    u.fetchChain q (fuel + 1) 0 va b rs = w := by
  unfold State.fetchChain
  simp only [hcopy, hroom, Bool.not_false, if_true]

theorem State.fetchChain_unlinked {fuel depth : Nat} (hcopy : u.copyDesc q depth va b rs = (d, rs', w)) (hroom : w.roomFor q d = true)
    (hlink : (fieldLE b 1 1).testBit 1 = false) : u.fetchChain q (fuel + 1) depth va b rs = (w.keepDesc q d).advanceHead q := by
  obtain ⟨-, hflags, -⟩ := State.copyDesc_fields hcopy
  unfold State.fetchChain
  simp [hcopy, hroom, hflags, hlink]

/-- A descriptor that is kept joins the pending list with a CQ entry reserved, and its ring slot counts as fetched. -/
theorem State.qx_keepDesc_advanceHead (s : State) (q : Nat) (d : Desc) :
    (((s.keepDesc q d).advanceHead q).qx q).fetched = (s.qx q).fetched ++ [d] ∧
      (((s.keepDesc q d).advanceHead q).qx q).reserved = (s.qx q).reserved + 1 := by
  unfold State.advanceHead State.keepDesc State.countQ
  simp

theorem State.core_keepDesc_advanceHead (s : State) (q : Nat) (d : Desc) (c : Nat) : ((s.keepDesc q d).advanceHead q).core c = s.core c := rfl

theorem State.head_keepDesc_advanceHead (hr : s.regs.rising = true) (hsmall : s.entries q ≤ 2 ^ 16) (d : Desc) :
    ((s.keepDesc q d).advanceHead q).getF .QCX_SQ_PTRS_HEAD q = (s.getF .QCX_SQ_PTRS_HEAD q + 1) % s.entries q := by
  have hrk : (s.keepDesc q d).regs.rising = true := State.rising_setF hr _ _ _
  have hget (f : Fld) (hf : f ≠ .QCX_CNT_COUNT) : (s.keepDesc q d).getF f q = s.getF f q := State.getF_setF_ne _ _ _ _ _ _ (fun h => hf h.1)
  have hentries : (s.keepDesc q d).entries q = s.entries q := by
    unfold State.entries
    rw [hget _ (by decide)]
  have hpos : 0 < s.entries q := Nat.pow_pos (by decide)
  unfold State.advanceHead
  dsimp only
  rw [State.getF_setQx, State.getF_setF_same hrk, hget _ (by decide), hentries]
  exact Nat.mod_eq_of_lt (Nat.lt_of_lt_of_le (Nat.mod_lt _ hpos) hsmall)

/-- The core's place in the round robin after it has taken a descriptor of queue `q` (R161). -/
def Core.served (k : Core) (lcOk : Bool) (q : Nat) : Core := if lcOk then { k with rrLast := q } else { k with rrBe := q, lcTurns := 0 }

section
variable (hup : s.coreUp c = true) (hreq : s.bitF .CUE_DBG_CTRL_HALT_REQ c = false) (hhalt : s.bitF .CUE_DBG_CTRL_HALTED c = false) (hturn : s.turn c = some q)
include hup hreq hhalt hturn

theorem execDescriptorFetch_turn : execDescriptorFetch c e s = .next (if ((s.fetchQueue q e).qx q).fetched = (s.qx q).fetched then s.fetchQueue q e
    else (s.fetchQueue q e).setCore c (((s.fetchQueue q e).core c).served (s.bitF .QCX_CFG_LC_OK q) q)) := by
  unfold execDescriptorFetch
  rw [if_neg (by simp [hup, hreq, hhalt]), hturn]
  dsimp only
  split <;> rfl

variable (hchain : (s.qx q).chain = none)
  (hrd : s.readGuest (s.qSec q) ⟨s.qSlice q, none, false⟩ (s.getF .QCX_SQ_BASE q * 4096 + 64 * s.getF .QCX_SQ_PTRS_HEAD q) 64 e = (.bytes b, rs, u))
  (hcopy : u.copyDesc q 0 (s.getF .QCX_SQ_BASE q * 4096 + 64 * s.getF .QCX_SQ_PTRS_HEAD q) b rs = (d, rs', w)) (hwork : w.work = s.work)
include hchain hrd hcopy hwork

theorem execDescriptorFetch_noRoom (hroom : w.roomFor q d = false) : execDescriptorFetch c e s = .next w := by
  rw [execDescriptorFetch_turn hup hreq hhalt hturn, State.fetchQueue_head hchain hrd, State.fetchChain_noRoom hcopy hroom,
    if_pos (congrArg QueueX.fetched (State.qx_congr hwork q))]

theorem execDescriptorFetch_takes (hroom : w.roomFor q d = true) (hlink : (fieldLE b 1 1).testBit 1 = false) :
    execDescriptorFetch c e s =
      .next (((w.keepDesc q d).advanceHead q).setCore c ((s.core c).served (s.bitF .QCX_CFG_LC_OK q) q)) := by
  obtain ⟨hfetched, -⟩ := w.qx_keepDesc_advanceHead q d
  rw [execDescriptorFetch_turn hup hreq hhalt hturn, State.fetchQueue_head hchain hrd, State.fetchChain_unlinked hcopy hroom hlink, hfetched,
    State.qx_congr hwork, State.core_keepDesc_advanceHead, State.core_congr hwork, if_neg (by simp)]

end
end

/-- Settles O28: the tail line by what its read gives, a failed ring access by the queue's state, and a fetch by its room. -/
theorem ringReads : Obligations.RingReads := by
  refine ⟨fun s u q e hr hru => ⟨fun hs hkind => ⟨fun b rs hrd hlt => ⟨?_, ?_⟩, fun hu => ⟨fun x rs hrd => ?_, fun rs hrd => ?_, fun k r rs hrd => ?_⟩⟩,
      fun p hp => ⟨fun hs => ?_, fun hs => ⟨fun hcq => ?_, fun hx hf => ?_⟩, fun hs => ?_⟩⟩,
    fun s u w c q va d e rs rs' b hr hrw => ⟨fun h => ?_, fun hup hreq hhalt hturn hchain hlink hva hrd hcopy hwork =>
      ⟨fun hroom => ?_, fun hroom hhead hsmall => ?_⟩⟩⟩
  · unfold State.newTail State.recordTail
    rw [if_neg (by omega), State.getF_markReady _ _ (by decide), State.getF_setF_same hru]
  · show execTailLineSnoop q e s = _
    rw [execTailLineSnoop_tailed hs hkind, State.readTail_bytes hrd]
  · exact execTailLineSnoop_failed (r := .xlate x) hru (by simp) hrd hs hkind hu
  · exact execTailLineSnoop_failed (r := .poison) hru (by simp) hrd hs hkind hu
  · exact execTailLineSnoop_failed (r := .refused k r) hru (by simp) hrd hs hkind hu
  · obtain ⟨v, hexec, hrv, hstate⟩ := execRingAccessFailure_pauses (q := q) hr hp (hs.imp_right .inl)
    exact ⟨_, hexec, State.qState_pauseOnError hrv (by omega) _, (State.lastErr_pauseOnError hrv _).trans (lastErr_fits hp)⟩
  · obtain ⟨v, hexec, hrv, hstate⟩ := execRingAccessFailure_pauses hr hp (.inr (.inr ⟨hs, hcq⟩))
    obtain ⟨hfrozen, hprior⟩ := State.frozen_pauseOnError hrv (hstate.trans hs) p.2
    exact ⟨_, hexec, hfrozen, hprior, (State.lastErr_pauseOnError hrv _).trans (lastErr_fits hp)⟩
  · exact execRingAccessFailure_frozen hs hx hf
  · exact execRingAccessFailure_free hs
  · exact execDescriptorFetch_none h
  · subst hva
    show execDescriptorFetch c e s = _
    rw [execDescriptorFetch_noRoom hup hreq hhalt hturn hchain hrd hcopy hwork hroom]
  · subst hva
    obtain ⟨hopc, -, htag⟩ := State.copyDesc_fields hcopy
    obtain ⟨hfetched, hreserved⟩ := w.qx_keepDesc_advanceHead q d
    refine ⟨_, execDescriptorFetch_takes hup hreq hhalt hturn hchain hrd hcopy hwork hroom hlink, ?_, htag, hopc, ?_, ?_, ?_, rfl, rfl⟩
    · rw [State.qx_setCore, hfetched, State.qx_congr hwork]
    · rw [State.qx_setCore, hreserved, State.qx_congr hwork]
    · exact State.head_keepDesc_advanceHead hrw hsmall d
    · rw [State.core_setCore_same]
      unfold Core.served
      split <;> exact ⟨rfl, rfl⟩

end Sys2Proof.Machine
end

section
/-!
SUPPORT. Queue management, queue 0 and the promise counters (R77, R106–R112, R424).
-/

namespace Sys2Proof.Machine

/-! ### The promise counters (R77) -/

theorem execPrmCountClr_clears {s : State} (hr : s.regs.rising = true) :
    ∃ t, execPrmCountClr s = .next t ∧ t.getF .PRM_BROKEN_COUNT 0 = 0 ∧ (∀ n, n < 8 → t.getF .PRM_REFUSED_COUNT n = 0) ∧
      (∀ n, n < 4 → t.getF .PRM_VOIDED_COUNT n = 0) ∧ t.work = s.work ∧ t.mem = s.mem ∧ t.out = s.out := by
  have hr8 := State.rising_each_setF (List.range 8) (f := fun _ => .PRM_REFUSED_COUNT) (i := fun n => n) (v := fun _ => 0) hr
  have hr4 := State.rising_each_setF (List.range 4) (f := fun _ => .PRM_VOIDED_COUNT) (i := fun n => n) (v := fun _ => 0) hr8
  refine ⟨_, rfl, ?_, fun n hn => ?_, fun n hn => ?_, ?_⟩
  · rw [State.getF_setF_ne _ _ _ _ _ _ (by simp), State.getF_setF_ne _ _ _ _ _ _ (by simp), State.getF_setF_same hr4]
    rfl
  · rw [State.getF_setF_ne _ _ _ _ _ _ (by simp), State.getF_setF_ne _ _ _ _ _ _ (by simp), State.getF_setF_ne _ _ _ _ _ _ (by simp),
      State.getF_each_setF _ _ _ hr8, State.getF_each_setF _ _ _ hr]
    simp [hn]
  · rw [State.getF_setF_ne _ _ _ _ _ _ (by simp), State.getF_setF_ne _ _ _ _ _ _ (by simp), State.getF_setF_ne _ _ _ _ _ _ (by simp),
      State.getF_each_setF _ _ _ hr8]
    simp [hn]
  · simp only [State.setF_work, State.setF_mem, State.setF_out]
    rw [State.each_setF_rest (List.range 4) (fun _ => .PRM_VOIDED_COUNT) (fun n => n) (fun _ => 0),
      State.each_setF_rest (List.range 8) (fun _ => .PRM_REFUSED_COUNT) (fun n => n) (fun _ => 0)]
    exact ⟨rfl, rfl, rfl⟩

/-! ### The context of a new queue (R106, R112) -/

theorem State.rising_clearQueue {s : State} (hr : s.regs.rising = true) (q : Nat) : (s.clearQueue q).regs.rising = true := by
  have hfields := State.rising_each_setF qcxFields (f := fun f => f) (i := fun _ => q) (v := Fld.reset) hr
  have hcounts := State.rising_each_setF (List.range 5) (f := fun _ => .QCX_CNT_COUNT) (i := fun n => q * 5 + n) (v := fun _ => 0) hfields
  unfold State.clearQueue
  dsimp only
  exact hcounts

@[simp] theorem State.freshVector_regs (s : State) (q : Nat) : (s.freshVector q).regs = s.regs := rfl

/-- Fields of one unit written with their values. -/
def State.writeFields (s : State) (i : Nat) (l : List (Fld × Nat)) : State := s.each l (fun s x => s.setF x.1 i x.2)

theorem State.getF_writeFields_ne (s : State) (i : Nat) {l : List (Fld × Nat)} {f : Fld} (hf : f ∉ l.map Prod.fst) :
    (s.writeFields i l).getF f i = s.getF f i := by
  induction l generalizing s with
  | nil => rfl
  | cons x l ih =>
    simp only [List.map_cons, List.mem_cons, not_or] at hf
    show ((s.setF x.1 i x.2).writeFields i l).getF f i = _
    rw [ih _ hf.2, State.getF_setF_ne _ _ _ _ _ _ (fun h => hf.1 h.1)]

/-- Where no field is written twice, each holds the value written. -/
theorem State.getF_writeFields {s : State} (hr : s.regs.rising = true) (i : Nat) {l : List (Fld × Nat)} (hl : (l.map Prod.fst).Nodup) {f : Fld} {v : Nat}
    (hx : (f, v) ∈ l) : (s.writeFields i l).getF f i = v % 2 ^ f.width := by
  induction l generalizing s with
  | nil => cases hx
  | cons x l ih =>
    rw [List.map_cons, List.nodup_cons] at hl
    show ((s.setF x.1 i x.2).writeFields i l).getF f i = _
    rcases List.mem_cons.1 hx with rfl | hx
    · rw [State.getF_writeFields_ne _ _ hl.1, State.getF_setF_same hr]
    · exact ih (State.rising_setF hr _ _ _) hl.2 hx

/-- The fields of a new queue's context. -/
def NewQueue.fields (n : NewQueue) (core state : Nat) : List (Fld × Nat) :=
  [(.QCX_STATE_STATE, state), (.QCX_STATE_CQ_PHASE, 1), (.QCX_CFG_KIND, n.kind), (.QCX_CFG_LC_OK, bits n.flags 0 1), (.QCX_CFG_BE_OK, bits n.flags 1 1),
    (.QCX_CFG_IN_ORDER, bits n.flags 2 1), (.QCX_CFG_LOG2_ENTRIES, n.log2), (.QCX_OWNER_SLICE, n.slice), (.QCX_OWNER_SLOT, n.slot),
    (.QCX_OWNER_PORT, n.port), (.QCX_OWNER_PF, bits n.func 15 1), (.QCX_OWNER_VF, bits n.func 0 9), (.QCX_BIND_CORE, core),
    (.QCX_SQ_BASE, n.sq / 4096), (.QCX_CQ_BASE, n.cq / 4096), (.QCX_TIMEOUT, n.timeout), (.QCX_TAIL_LINE, n.tail / 64)]

theorem State.fillQueue_eq (s : State) (n : NewQueue) (core state : Nat) :
    s.fillQueue n core state = (((s.clearQueue n.id).freshVector n.id).setQx n.id QueueX.fresh).writeFields n.id (n.fields core state) := rfl

theorem State.getF_fillQueue {s : State} (hr : s.regs.rising = true) (n : NewQueue) (core state : Nat) {f : Fld} {v : Nat} (hx : (f, v) ∈ n.fields core state) :
    (s.fillQueue n core state).getF f n.id = v % 2 ^ f.width := by
  have hnodup : ((n.fields core state).map Prod.fst).Nodup := by simp [NewQueue.fields]
  have hcleared : (((s.clearQueue n.id).freshVector n.id).setQx n.id QueueX.fresh).regs.rising = true := by
    rw [State.setQx_regs, State.freshVector_regs, State.rising_clearQueue hr]
  rw [State.fillQueue_eq, State.getF_writeFields hcleared _ hnodup hx]

/-! ### Management operations (R106–R111, R424) -/

theorem State.live_eq {s : State} {i : Nat} {x : Item} (hx : s.item i = some x) (hcause : x.cause = none) (hstep : x.step = false) :
    s.live i x.desc.opc = some x := by
  unfold State.live
  simp [hx, hcause, hstep]

section
variable {s u : State} {i n : Nat} {x : Item} {e rs : List Ext} {f : List Byte → List Ext → State → State}

theorem State.withArgs_length (hlen : x.desc.argLen ≠ n) : s.withArgs i n x e f = s.badDesc i 5 := if_pos (.inl hlen)

section
variable (hlen : x.desc.argLen = n) (hglobal : x.desc.flags.testBit 2 = false)
include hlen hglobal

/-- Where admission has reserved for the operation, the block is the one it took then. -/
theorem State.withArgs_reserved {r : Resv} (hresv : x.resv = some r) : s.withArgs i n x e f = f r.block e s := by
  unfold State.withArgs
  rw [if_neg (by simp [hlen, hglobal]), hresv]
  rfl

theorem State.withArgs_read {b : List Byte} (hresv : x.resv = none) (hrd : s.readGuest 0 ⟨0, none, false⟩ x.desc.argPtr n e = (.bytes b, rs, u)) :
    s.withArgs i n x e f = f b rs u := by
  unfold State.withArgs
  rw [if_neg (by simp [hlen, hglobal]), hresv, hrd]
  rfl

end

theorem execCreateQueue_live (hx : s.live i 0x88 = some x) :
    execCreateQueue i e s = .next (s.withArgs i 64 x e (fun b rs s => s.createQueue i b rs)) := by
  unfold execCreateQueue
  rw [hx]

section
variable (hx : s.live i 0x89 = some x) (hnew : (s.qx (x.inl % 2 ^ 14)).destroyItem ≠ some i)
include hx hnew

theorem execDestroyQueue_bad (hbad : x.inl % 2 ^ 14 = 0 ∨ s.qState (x.inl % 2 ^ 14) = 0 ∨ s.qState (x.inl % 2 ^ 14) = 4) :
    execDestroyQueue i s = .next (s.badDesc i 8) := by
  unfold execDestroyQueue
  rw [hx]
  dsimp only
  rw [if_neg hnew, if_pos hbad]

theorem execDestroyQueue_inUse (hq : x.inl % 2 ^ 14 ≠ 0) (hfree : s.qState (x.inl % 2 ^ 14) ≠ 0) (htomb : s.qState (x.inl % 2 ^ 14) ≠ 4) :
    execDestroyQueue i s = .next (s.tombstone (x.inl % 2 ^ 14) (some i)) := by
  unfold execDestroyQueue
  rw [hx]
  dsimp only
  rw [if_neg hnew, if_neg (by omega)]

end

section
variable (hx : s.live i 0x8A = some x)
include hx

theorem execPauseQueue_inUse (hq : x.inl % 2 ^ 14 ≠ 0) (hs : s.qState (x.inl % 2 ^ 14) = 1 ∨ s.qState (x.inl % 2 ^ 14) = 2) :
    execPauseQueue i s = .next ((s.setF .QCX_STATE_STATE (x.inl % 2 ^ 14) 2).finishOk i 0) := by
  unfold execPauseQueue
  rw [hx]
  dsimp only
  rw [if_neg (by omega)]

theorem execPauseQueue_bad (hbad : x.inl % 2 ^ 14 = 0 ∨ (s.qState (x.inl % 2 ^ 14) ≠ 1 ∧ s.qState (x.inl % 2 ^ 14) ≠ 2)) :
    execPauseQueue i s = .next (s.badDesc i 8) := by
  unfold execPauseQueue
  rw [hx]
  exact if_pos hbad

end

section
variable (hx : s.live i 0x8B = some x) (hq : x.inl % 2 ^ 14 ≠ 0)
include hx hq

theorem execResumeQueue_active (hs : s.qState (x.inl % 2 ^ 14) = 1) : execResumeQueue i s = .next (s.finishOk i 0) := by
  unfold execResumeQueue
  rw [hx]
  dsimp only
  rw [if_neg (by omega), if_pos hs]

theorem execResumeQueue_paused (hs : s.qState (x.inl % 2 ^ 14) = 2) : execResumeQueue i s = .next (s.resumeQueue i (x.inl % 2 ^ 14)) := by
  unfold execResumeQueue
  rw [hx]
  dsimp only
  rw [if_neg (by omega), if_neg (by omega)]

end

/-- A bound queue without held completions goes on at once on its core. -/
theorem State.resumeQueue_bound {q : Nat} (hbound : (s.qx q).unbound = false) (hheld : (s.qx q).held = []) :
    s.resumeQueue i q = ((((s.setF .QCX_BIND_CORE q (s.getF .QCX_BIND_CORE q)).setF .QCX_STATE_STATE q 1).setF .QCX_ERR_LAST_ERR q 0).setQx q
      { s.qx q with unbound := false, cqFailed := false }).finishOk i 0 := by
  unfold State.resumeQueue
  simp [hbound, hheld, State.writeHeld]

/-! ### The last release of a TOMBSTONE queue (R108) -/

section
variable {q : Nat} (htomb : s.qState q = 4) (hitems : s.itemsWhere (fun z => z.queue == q && !z.step) = []) (htokens : s.tokensOpen q = false)
include htomb hitems htokens

theorem execQueueReleaseDone_taken {j : Nat} (hdestroy : (s.qx q).destroyItem = some j) :
    execQueueReleaseDone q s =
      .next ((s.clearQueue q).finishOk j (BitVec.ofNat 64 ((s.qx q).discarded + (s.qx q).cancelled * 2 ^ 32))) := by
  unfold execQueueReleaseDone
  rw [if_pos ⟨htomb, hitems, by simp [htokens]⟩]
  dsimp only
  rw [hdestroy]

theorem execQueueReleaseDone_untaken (hdestroy : (s.qx q).destroyItem = none) : execQueueReleaseDone q s = .next (s.clearQueue q) := by
  unfold execQueueReleaseDone
  rw [if_pos ⟨htomb, hitems, by simp [htokens]⟩]
  dsimp only
  rw [hdestroy]

end

theorem execQueueReleaseDone_used {q : Nat} (h : s.qState q ≠ 4) : execQueueReleaseDone q s = .next s := if_neg (fun hdone => h hdone.1)

end

/-! ### ACTIVATE of queue 0 (R112) -/

theorem State.getF_lt {s : State} (h : s.regsOk) {f : Fld} (hreset : f.reset < 2 ^ f.width) (i : Nat) : s.getF f i < 2 ^ f.width := by
  unfold State.getF Tbl.findD
  cases hfind : s.regs.find (fkey f i) with
  | none => exact hreset
  | some v => exact (h.2 f i v hfind).1

theorem execQcxActivate_inUse {s : State} (h : s.qState 0 ≠ 0) : execQcxActivate s = .next s := if_pos h

theorem execQcxActivate_badShape {s : State} (hfree : s.qState 0 = 0) (hbad : 1 < s.getF .QCX_CFG_KIND 0 ∨ s.getF .QCX_CFG_LOG2_ENTRIES 0 < 4) :
    execQcxActivate s = .next (s.setF .QCX_ERR_LAST_ERR 0 5) := by
  unfold execQcxActivate
  rw [if_neg (by simp [hfree])]
  rcases hbad with h | h <;> simp [Nat.not_le.2 h]

theorem execQcxActivate_ok {s u : State} (hfree : s.qState 0 = 0) (hkind : s.getF .QCX_CFG_KIND 0 = 0) (hsrc : s.edge.straps.mgtSrc = 0)
    (hlow : 4 ≤ s.getF .QCX_CFG_LOG2_ENTRIES 0) (hhigh : s.getF .QCX_CFG_LOG2_ENTRIES 0 ≤ 16) (htimeout : bits (s.getF .QCX_TIMEOUT 0) 30 2 ≠ 3)
    (hlc : s.bitF .QCX_CFG_LC_OK 0 = true)
    (hrings : s.ringsOk 0 0 0 0 (s.getF .QCX_CFG_LOG2_ENTRIES 0) (s.getF .QCX_SQ_BASE 0 * 4096) (s.getF .QCX_CQ_BASE 0 * 4096) 0 = (true, u)) :
    ∃ n : NewQueue, execQcxActivate s = .next (u.fillQueue n 0 1) ∧ n.id = 0 ∧ n.sq = s.getF .QCX_SQ_BASE 0 * 4096 ∧ n.cq = s.getF .QCX_CQ_BASE 0 * 4096 := by
  unfold execQcxActivate
  rw [if_neg (by simp [hfree])]
  simp only [hkind, hsrc, hlow, hhigh, htimeout, hlc, hrings, ne_eq, not_false_eq_true, and_self, implies_true, Nat.zero_le, decide_true, Bool.true_or,
    Bool.and_self, if_true]
  exact ⟨_, rfl, rfl, rfl, rfl⟩

/-- A queue 0 that passes its checks is ACTIVE on c0 with the rings that the manager wrote (R112). -/
theorem execQcxActivate_context {s u : State} (hregs : s.regsOk) (hfree : s.qState 0 = 0) (hkind : s.getF .QCX_CFG_KIND 0 = 0) (hsrc : s.edge.straps.mgtSrc = 0)
    (hlow : 4 ≤ s.getF .QCX_CFG_LOG2_ENTRIES 0) (hhigh : s.getF .QCX_CFG_LOG2_ENTRIES 0 ≤ 16) (htimeout : bits (s.getF .QCX_TIMEOUT 0) 30 2 ≠ 3)
    (hlc : s.bitF .QCX_CFG_LC_OK 0 = true) (hu : u.regs = s.regs)
    (hrings : s.ringsOk 0 0 0 0 (s.getF .QCX_CFG_LOG2_ENTRIES 0) (s.getF .QCX_SQ_BASE 0 * 4096) (s.getF .QCX_CQ_BASE 0 * 4096) 0 = (true, u)) :
    ∃ t, execQcxActivate s = .next t ∧ t.qState 0 = 1 ∧ t.getF .QCX_BIND_CORE 0 = 0 ∧ t.getF .QCX_STATE_CQ_PHASE 0 = 1 ∧
      t.getF .QCX_SQ_BASE 0 = s.getF .QCX_SQ_BASE 0 ∧ t.getF .QCX_CQ_BASE 0 = s.getF .QCX_CQ_BASE 0 := by
  obtain ⟨n, hexec, hid, hsq, hcq⟩ := execQcxActivate_ok hfree hkind hsrc hlow hhigh htimeout hlc hrings
  have hget {f : Fld} {v : Nat} (hx : (f, v) ∈ n.fields 0 1) : (u.fillQueue n 0 1).getF f 0 = v % 2 ^ f.width := by
    have h := State.getF_fillQueue (hu ▸ hregs.1) n 0 1 hx
    rwa [hid] at h
  have hbase (v : Nat) : v * 4096 / 4096 = v := Nat.mul_div_cancel v (by decide)
  refine ⟨_, hexec, hget (v := 1) (by simp [NewQueue.fields]), hget (v := 0) (by simp [NewQueue.fields]), hget (v := 1) (by simp [NewQueue.fields]), ?_, ?_⟩
  · rw [hget (v := n.sq / 4096) (by simp [NewQueue.fields]), hsq, hbase, Nat.mod_eq_of_lt (State.getF_lt hregs (by decide) 0)]
  · rw [hget (v := n.cq / 4096) (by simp [NewQueue.fields]), hcq, hbase, Nat.mod_eq_of_lt (State.getF_lt hregs (by decide) 0)]

/-- Settles O33: each operation by its own rule, on an item that nothing has stopped. -/
theorem queueOperations : Obligations.QueueOperations := by
  refine ⟨fun s i x e hx hcause hstep => ?_, fun s hregs => ⟨execQcxActivate_inUse, execQcxActivate_badShape,
    fun u hfree hkind hsrc hlow hhigh htimeout hlc => execQcxActivate_context hregs hfree hkind hsrc hlow hhigh htimeout hlc, execPrmCountClr_clears hregs.1⟩⟩
  have hlive {opc : Nat} (hopc : x.desc.opc = opc) : s.live i opc = some x := hopc ▸ State.live_eq hx hcause hstep
  refine ⟨fun hopc hlen => ?_, fun r hopc hlen hglobal hresv => ?_, fun b rs u hopc hlen hglobal hresv hrd => ?_,
    fun hopc => execDestroyQueue_bad (hlive hopc), fun hopc => execDestroyQueue_inUse (hlive hopc),
    fun hopc => execPauseQueue_inUse (hlive hopc), fun hopc => execPauseQueue_bad (hlive hopc),
    fun hopc => execResumeQueue_active (hlive hopc), fun hopc hq hs hbound hheld => ?_,
    fun r j htomb hitems htokens => execQueueReleaseDone_taken htomb hitems htokens,
    fun r htomb hitems htokens => execQueueReleaseDone_untaken htomb hitems htokens, fun r => execQueueReleaseDone_used⟩
  · show execCreateQueue i e s = _
    rw [execCreateQueue_live (hlive hopc), State.withArgs_length hlen]
    rfl
  · show execCreateQueue i e s = _
    rw [execCreateQueue_live (hlive hopc), State.withArgs_reserved hlen hglobal hresv]
  · show execCreateQueue i e s = _
    rw [execCreateQueue_live (hlive hopc), State.withArgs_read hlen hglobal hresv hrd]
  · show execResumeQueue i s = _
    rw [execResumeQueue_paused (hlive hopc) hq hs, State.resumeQueue_bound hbound hheld]
    rfl

end Sys2Proof.Machine
end

section
/-!
SUPPORT. Cast operations: what REGISTER_CAST and PATCH_CAST do with their argument block and image, and the switch of versions (R152–R154).
-/

namespace Sys2Proof.Machine

/-! ### Argument blocks (R152) -/

/-- `b` is the argument block of `n` bytes at hand: the one that admission took with its reservation, or the one read now. What the read leaves of
the answers is `rs`, and of the state `u`. -/
def State.HasBlock (s : State) (n : Nat) (x : Item) (e : List Ext) (b : List Byte) (rs : List Ext) (u : State) : Prop :=
  (x.resv = none ∧ s.readGuest 0 ⟨0, none, false⟩ x.desc.argPtr n e = (.bytes b, rs, u)) ∨ (x.resv.map (fun r => r.block) = some b ∧ u = s ∧ rs = e)

theorem State.withArgs_block {s u : State} {i n : Nat} {x : Item} {e rs : List Ext} {b : List Byte} {f : List Byte → List Ext → State → State}
    (hlen : x.desc.argLen = n) (hglobal : x.desc.flags.testBit 2 = false) (hblock : s.HasBlock n x e b rs u) : s.withArgs i n x e f = f b rs u := by
  rcases hblock with ⟨hresv, hread⟩ | ⟨hresv, rfl, rfl⟩
  · exact State.withArgs_read hlen hglobal hresv hread
  · obtain ⟨r, htaken, rfl⟩ := Option.map_eq_some_iff.1 hresv
    exact State.withArgs_reserved hlen hglobal htaken

/-! ### The checks of a cast's argument block (Table 6-4) -/

section
variable {s : State} {b : List Byte} {patch : Bool}

theorem State.castBad_args (hargs : castArgsOk b patch = false) : s.castBad b patch = some (7, 5) := by
  unfold State.castBad
  simp [hargs]

theorem State.castBad_state (hargs : castArgsOk b patch = true) (hvalid : s.bitF .CST_CAST_VALID (fieldLE b 0 2) ≠ patch) :
    s.castBad b patch = some (7, 8) := by
  unfold State.castBad
  simp [hargs, hvalid]

theorem State.castBad_full (hargs : castArgsOk b patch = true) (hpatch : patch = true) (hlen : fieldLE b 4 4 ≠ 0)
    (hfull : ∀ k, k < 4 → s.slotState (fieldLE b 0 2) k ≠ 0) : s.castBad b patch = some (7, 8) := by
  unfold State.castBad
  simp only [hargs, Bool.not_true, Bool.false_eq_true, if_false]
  exact if_pos (.inr ⟨hpatch, hlen, by simpa using hfull⟩)

/-- A patch needs an empty version slot unless it brings no image. -/
theorem State.castBad_none (hargs : castArgsOk b patch = true) (hvalid : s.bitF .CST_CAST_VALID (fieldLE b 0 2) = patch)
    (hslot : fieldLE b 4 4 = 0 ∨ (patch = true → ∃ k, k < 4 ∧ s.slotState (fieldLE b 0 2) k = 0)) : s.castBad b patch = none := by
  unfold State.castBad
  simp only [hargs, hvalid, Bool.not_true, Bool.false_eq_true, if_false, ne_eq, not_true_eq_false, false_or]
  refine if_neg ?_
  rintro ⟨hpatch, hlen, hall⟩
  obtain ⟨k, hk, hfree⟩ := (hslot.resolve_left hlen) hpatch
  simpa [hfree] using List.all_eq_true.1 hall k (List.mem_range.2 hk)

/-- An operation that brings no image needs no room. -/
theorem Item.takenOr_empty (x : Item) (s : State) (b : List Byte) : ∃ r, x.takenOr (s.storeTake b 0) = some r := by
  unfold Item.takenOr State.storeTake
  rcases x.resv with - | r
  · exact ⟨_, rfl⟩
  · cases htaken : r.taken
    · exact ⟨_, by simp [htaken]; rfl⟩
    · exact ⟨r, by simp [htaken]⟩

end

/-! ### REGISTER_CAST and PATCH_CAST up to the switch (R152, R153) -/

theorem exec_takeCast (s : State) (i : Nat) (e : List Ext) (patch : Bool) :
    exec (if patch then Instr.patchCast i e else .registerCast i e) s = s.takeCast i (if patch then 0x91 else 0x90) patch e := by
  cases patch <;> rfl

section
variable {s u : State} {i opc : Nat} {x : Item} {e rs : List Ext} {b : List Byte} {patch : Bool}
variable (hx : s.live i opc = some x) (hpend : s.work.castPend = none)
include hx hpend

theorem State.takeCast_length (hlen : x.desc.argLen ≠ 32) : s.takeCast i opc patch e = .next (s.finishItem i 7 5 none 0) := by
  simp only [State.takeCast, hx, hpend, Option.isSome_none, Bool.false_eq_true, if_false, State.withArgs_length hlen, State.badDesc]

variable (hlen : x.desc.argLen = 32) (hglobal : x.desc.flags.testBit 2 = false) (hblock : s.HasBlock 32 x e b rs u)
include hlen hglobal hblock

theorem State.takeCast_bad {status reason : Nat} (hbad : u.castBad b patch = some (status, reason)) :
    s.takeCast i opc patch e = .next (u.finishItem i status reason none 0) := by
  simp only [State.takeCast, hx, hpend, Option.isSome_none, Bool.false_eq_true, if_false, State.withArgs_block hlen hglobal hblock, hbad]

variable (hok : u.castBad b patch = none)
include hok

/-- Without room, where admission has reserved none, the operation completes STATE (log entry 112). -/
theorem State.takeCast_noRoom (hroom : x.takenOr (u.storeTake b (fieldLE b 4 4)) = none) :
    s.takeCast i opc patch e = .next (u.finishItem i 7 8 none 0) := by
  simp only [State.takeCast, hx, hpend, Option.isSome_none, Bool.false_eq_true, if_false, State.withArgs_block hlen hglobal hblock, hok, hroom,
    State.badDesc]

/-- A patch that brings no image supersedes the LIVE version (R153). -/
theorem State.takeCast_supersedes (hempty : fieldLE b 4 4 = 0) :
    s.takeCast i opc patch e = .next ((u.supersede (fieldLE b 0 2)).finishItem i 0 0 none 0) := by
  obtain ⟨r, hroom⟩ := x.takenOr_empty u b
  simp only [State.takeCast, hx, hpend, Option.isSome_none, Bool.false_eq_true, if_false, State.withArgs_block hlen hglobal hblock, hok, hempty, hroom,
    if_true, State.finishOk]

theorem State.takeCast_image {r : Resv} {img : List Byte} {rs' : List Ext} {w : State} (himage : fieldLE b 4 4 ≠ 0)
    (hroom : x.takenOr (u.storeTake b (fieldLE b 4 4)) = some r)
    (hread : u.readGuest 0 ⟨0, none, false⟩ (fieldLE b 8 8) (fieldLE b 4 4) rs = (.bytes img, rs', w)) :
    s.takeCast i opc patch e = .next (w.takeImage i img r.addr (fieldLE b 0 2) (fieldLE b 2 2) patch) := by
  simp only [State.takeCast, hx, hpend, Option.isSome_none, Bool.false_eq_true, if_false, State.withArgs_block hlen hglobal hblock, hok, himage, hroom, hread]

end

section
variable {s v : State} {i addr cast owner : Nat} {img : List Byte} {patch : Bool}

theorem State.takeImage_uncovered (hcopy : s.storeCopy i addr img = none) : s.takeImage i img addr cast owner patch = s.holdupOverrun i addr := by
  simp only [State.takeImage, hcopy]

theorem State.takeImage_good (hcopy : s.storeCopy i addr img = some v) (hok : castOk img (parseCast img addr) img.length = true)
    (hdigest : digestOk img = true) : s.takeImage i img addr cast owner patch =
      { v with work := { v.work with castPend := some ⟨cast, owner, patch, i, parseCast img addr⟩ } } := by
  simp only [State.takeImage, hcopy, hok, hdigest, Bool.and_self, if_true]

theorem State.takeImage_bad (hcopy : s.storeCopy i addr img = some v)
    (hbad : castOk img (parseCast img addr) img.length = false ∨ digestOk img = false) :
    s.takeImage i img addr cast owner patch = (v.storeFree img.length).finishItem i 7 5 none 0 := by
  have hboth : (castOk img (parseCast img addr) img.length && digestOk img) = false := Bool.and_eq_false_iff.2 hbad
  simp only [State.takeImage, hcopy, hboth, Bool.false_eq_true, if_false, State.badDesc]

end

/-! ### Version slots (R153, R155) -/

/-- The register fields of the version slots. -/
def slotFields : List Fld :=
  [.CST_VSLOT01_STATE_0, .CST_VSLOT01_VER_0, .CST_VSLOT01_STATE_1, .CST_VSLOT01_VER_1, .CST_VSLOT23_STATE_2, .CST_VSLOT23_VER_2,
    .CST_VSLOT23_STATE_3, .CST_VSLOT23_VER_3]

/-- Writing a version slot is writing its two fields. -/
theorem State.setSlot_eq (s : State) (cast slot st ver : Nat) :
    ∃ f ∈ slotFields, ∃ g ∈ slotFields, s.setSlot cast slot st ver = (s.setF f cast st).setF g cast ver := by
  unfold State.setSlot
  split
  · exact ⟨.CST_VSLOT01_STATE_0, by decide, .CST_VSLOT01_VER_0, by decide, rfl⟩
  · exact ⟨.CST_VSLOT01_STATE_1, by decide, .CST_VSLOT01_VER_1, by decide, rfl⟩
  · exact ⟨.CST_VSLOT23_STATE_2, by decide, .CST_VSLOT23_VER_2, by decide, rfl⟩
  · exact ⟨.CST_VSLOT23_STATE_3, by decide, .CST_VSLOT23_VER_3, by decide, rfl⟩

@[simp] theorem State.setSlot_work (s : State) (cast slot st ver : Nat) : (s.setSlot cast slot st ver).work = s.work := by
  obtain ⟨f, -, g, -, h⟩ := s.setSlot_eq cast slot st ver
  rw [h, State.setF_work, State.setF_work]

theorem State.rising_setSlot {s : State} (hr : s.regs.rising = true) (cast slot st ver : Nat) : (s.setSlot cast slot st ver).regs.rising = true := by
  obtain ⟨f, -, g, -, h⟩ := s.setSlot_eq cast slot st ver
  rw [h]
  exact State.rising_setF (State.rising_setF hr _ _ _) _ _ _

theorem State.getF_setSlot (s : State) (cast slot st ver : Nat) {f : Fld} (hf : f ∉ slotFields) (n : Nat) :
    (s.setSlot cast slot st ver).getF f n = s.getF f n := by
  obtain ⟨g, hg, g', hg', h⟩ := s.setSlot_eq cast slot st ver
  have hne {x : Fld} (hx : x ∈ slotFields) : ¬ (f = x ∧ n = cast) := fun e => hf (e.1 ▸ hx)
  rw [h, State.getF_setF_ne _ _ _ _ _ _ (hne hg'), State.getF_setF_ne _ _ _ _ _ _ (hne hg)]

/-- Freeing a version changes nothing of the work but the versions held. -/
theorem State.freeVersion_work (s : State) (cast slot : Nat) :
    (s.freeVersion cast slot).work = { s.work with casts := (s.freeVersion cast slot).work.casts } := by
  unfold State.freeVersion
  split
  · split
    · dsimp only
      split <;> simp [State.forgetVersion]
    · rfl
  · rfl

theorem State.liveVer_freeVersion (s : State) (cast slot n : Nat) :
    (s.freeVersion cast slot).getF .CST_CAST_LIVE_VER n = s.getF .CST_CAST_LIVE_VER n := by
  have hfreed (t : State) (c : Tbl CastVer) (v : Nat) :
      (({ t with work := { t.work with casts := c } }.setF .CST_STORE_USED_USED_KIB 0 v).forgetVersion (cast * 4 + slot)).getF .CST_CAST_LIVE_VER n =
        t.getF .CST_CAST_LIVE_VER n := State.getF_setF_ne _ _ _ _ _ _ (by simp)
  unfold State.freeVersion
  split
  · split
    · dsimp only
      split
      · rw [State.getF_setF_ne _ _ _ _ _ _ (by simp), State.getF_setF_ne _ _ _ _ _ _ (by simp), hfreed, State.getF_setSlot _ _ _ _ _ (by decide)]
      · rw [hfreed, State.getF_setSlot _ _ _ _ _ (by decide)]
    · rfl
  · rfl

/-! ### The switch (R154) -/

/-- A version's number fits its field. -/
theorem State.nextVersion_lt (s : State) (cast : Nat) : s.nextVersion cast < 4096 := by
  unfold State.nextVersion
  dsimp only
  cases hfind : List.find? _ _ with
  | none => decide
  | some v =>
    obtain ⟨n, -, rfl⟩ := List.mem_map.1 (List.mem_of_find?_eq_some hfind)
    show _ % 4095 + 1 < 4096
    omega

theorem State.goLive_work (s : State) (p : CastPending) (ver : Nat) :
    (s.goLive p ver).work = { s.work with casts := (s.goLive p ver).work.casts, castHi := (s.goLive p ver).work.castHi } := by
  simp [State.goLive]

theorem State.liveVer_goLive {s : State} (hr : s.regs.rising = true) (p : CastPending) (ver : Nat) :
    (s.goLive p ver).getF .CST_CAST_LIVE_VER p.cast = ver % 4096 :=
  State.getF_setF_same (State.rising_setSlot hr _ _ _ _) _ _ _

/-- The state whose image no longer waits. -/
def State.takePend (s : State) : State := { s with work := { s.work with castPend := none } }

/-- A registration makes its CastID valid and its owner's. -/
def State.enterCast (s : State) (p : CastPending) : State :=
  if p.patch then s else (s.setF .CST_CAST_VALID p.cast 1).setF .CST_CAST_OWNER p.cast p.owner

/-- The slot of a cast's LIVE version. -/
def State.liveSlot (s : State) (cast : Nat) : Option Nat := (List.range 4).find? (fun k => s.slotState cast k == 1)

/-- The slot that held the LIVE version, if any did, is SUPERSEDED. -/
def State.retireSlot (s : State) (cast : Nat) (old : Option Nat) : State :=
  match old with | some k => s.setSlot cast k 2 (s.slotVer cast k) | none => s

/-- That slot is freed once nothing pins it. -/
def State.releaseSlot (s : State) (cast : Nat) (old : Option Nat) : State :=
  match old with | some k => s.freeVersion cast k | none => s

/-- The state after the switch to the version `ver`, in place of the one in the slot `old`. -/
def State.switched (s : State) (p : CastPending) (ver : Nat) (old : Option Nat) : State :=
  ((((s.takePend.enterCast p).retireSlot p.cast old).goLive p ver).releaseSlot p.cast old).logCast p.ver.digest p.cast

theorem State.enterCast_work (s : State) (p : CastPending) : (s.enterCast p).work = s.work := by
  unfold State.enterCast
  split <;> rfl

theorem State.rising_enterCast {s : State} (hr : s.regs.rising = true) (p : CastPending) : (s.enterCast p).regs.rising = true := by
  unfold State.enterCast
  split
  · exact hr
  · exact State.rising_setF (State.rising_setF hr _ _ _) _ _ _

theorem State.retireSlot_work (s : State) (cast : Nat) (old : Option Nat) : (s.retireSlot cast old).work = s.work := by
  cases old
  · rfl
  · exact State.setSlot_work ..

theorem State.rising_retireSlot {s : State} (hr : s.regs.rising = true) (cast : Nat) (old : Option Nat) :
    (s.retireSlot cast old).regs.rising = true := by
  cases old
  · exact hr
  · exact State.rising_setSlot hr ..

theorem State.releaseSlot_work (s : State) (cast : Nat) (old : Option Nat) :
    (s.releaseSlot cast old).work = { s.work with casts := (s.releaseSlot cast old).work.casts } := by
  cases old
  · rfl
  · exact State.freeVersion_work ..

theorem State.liveVer_releaseSlot (s : State) (cast : Nat) (old : Option Nat) (n : Nat) :
    (s.releaseSlot cast old).getF .CST_CAST_LIVE_VER n = s.getF .CST_CAST_LIVE_VER n := by
  cases old
  · rfl
  · exact State.liveVer_freeVersion ..

/-- After a switch no image waits, and the items are as they were. -/
theorem State.switched_work (s : State) (p : CastPending) (ver : Nat) (old : Option Nat) :
    (s.switched p ver old).work.castPend = none ∧ (s.switched p ver old).work.items = s.work.items := by
  show (State.releaseSlot _ p.cast old).work.castPend = none ∧ (State.releaseSlot _ p.cast old).work.items = _
  rw [State.releaseSlot_work, State.goLive_work, State.retireSlot_work, State.enterCast_work]
  exact ⟨rfl, rfl⟩

/-- The version switched to is LIVE at once, whichever it supersedes. -/
theorem State.liveVer_switched {s : State} (hr : s.regs.rising = true) (p : CastPending) (ver : Nat) (old : Option Nat) :
    (s.switched p ver old).getF .CST_CAST_LIVE_VER p.cast = ver % 4096 := by
  show (State.releaseSlot _ p.cast old).getF _ _ = _
  rw [State.liveVer_releaseSlot, State.liveVer_goLive (State.rising_retireSlot (State.rising_enterCast (by exact hr) p) _ _)]

theorem execCastVersionSwitch_idle {s : State} (hpend : s.work.castPend = none) : execCastVersionSwitch s = .next s := by
  simp only [execCastVersionSwitch, hpend]

theorem execCastVersionSwitch_live {s : State} {p : CastPending} {y : Item} (hpend : s.work.castPend = some p)
    (hlive : s.live p.item (if p.patch then 0x91 else 0x90) = some y) (hvalid : s.bitF .CST_CAST_VALID p.cast = p.patch)
    {ver : Nat} (hver : (if p.patch then s.nextVersion p.cast else 1) = ver) :
    execCastVersionSwitch s = .next ((s.switched p ver (s.liveSlot p.cast)).finishItem p.item 0 0 none (BitVec.ofNat 64 ver)) := by
  have hlive' : s.takePend.live p.item (if p.patch then 0x91 else 0x90) = some y := hlive
  have hvalid' : ¬ s.takePend.bitF .CST_CAST_VALID p.cast ≠ p.patch := fun hne => hne hvalid
  subst hver
  show (match s.work.castPend with | none => _ | some p => _) = _
  rw [hpend]
  show (match s.takePend.live p.item (if p.patch then 0x91 else 0x90) with | none => _ | some _ => _) = _
  rw [hlive']
  exact if_neg hvalid'

/-! ### The statement -/

/-- Settles O34: the block's checks and the image's in their order, then the switch. -/
theorem castRegistration : Obligations.CastRegistration := by
  intro s u w i x e rs rs' b img patch hr
  refine ⟨fun hx hpend => ?_, execCastVersionSwitch_idle, fun p y hpend hlive hvalid => ?_⟩
  · simp only [exec_takeCast]
    refine ⟨State.takeCast_length hx hpend, fun hlen hglobal hblock => ?_⟩
    have hbad {reason : Nat} := State.takeCast_bad (status := 7) (reason := reason) hx hpend hlen hglobal hblock (patch := patch)
    refine ⟨fun hargs => hbad (State.castBad_args hargs), fun hargs hvalid => hbad (State.castBad_state hargs hvalid), fun hargs hvalid =>
      ⟨fun hpatch himage hfull => hbad (State.castBad_full hargs hpatch himage hfull), fun hempty => ?_, fun himage hslot => ?_⟩⟩
    · exact State.takeCast_supersedes hx hpend hlen hglobal hblock (State.castBad_none hargs hvalid (.inl hempty)) hempty
    · have hok := State.castBad_none hargs hvalid (.inr hslot)
      refine ⟨State.takeCast_noRoom hx hpend hlen hglobal hblock hok, fun r hroom hread => ?_⟩
      rw [State.takeCast_image hx hpend hlen hglobal hblock hok himage hroom hread]
      refine ⟨fun hcopy => ?_, fun v hcopy => ⟨fun hgood hdigest => ?_, fun hbad => ?_⟩⟩
      · rw [State.takeImage_uncovered hcopy]
      · rw [State.takeImage_good hcopy hgood hdigest]
      · rw [State.takeImage_bad hcopy hbad]
  · obtain ⟨hnone, hitems⟩ := State.switched_work s p (if p.patch then s.nextVersion p.cast else 1) (s.liveSlot p.cast)
    refine ⟨_, hnone, ?_, hitems, execCastVersionSwitch_live hpend hlive hvalid rfl⟩
    rw [State.liveVer_switched hr, Nat.mod_eq_of_lt]
    split
    · exact s.nextVersion_lt p.cast
    · decide

end Sys2Proof.Machine
end

section
/-!
SUPPORT. Backends and the cast runner: registration, notify lines, reports and bounds (R165–R170), and how a node starts (R150, R151).
-/

namespace Sys2Proof.Machine

/-! ### REGISTER_BACKEND (R165) -/

section
variable {s u : State} {i : Nat} {x : Item} {e rs : List Ext} {b : List Byte}
variable (hx : s.live i 0x98 = some x) (hlen : x.desc.argLen = 128) (hglobal : x.desc.flags.testBit 2 = false) (hblock : s.HasBlock 128 x e b rs u)
include hx hlen hglobal hblock

theorem execRegisterBackend_profile (hprofile : profileOk b = false) : execRegisterBackend i e s = .next (u.finishItem i 7 5 none 0) := by
  simp only [execRegisterBackend, hx, State.withArgs_block hlen hglobal hblock, hprofile, Bool.not_false, if_true, State.badDesc]

variable {w : State} {img : List Byte} {rs' : List Ext} {base : Nat} (hprofile : profileOk b = true)
  (hbase : min (fieldLE b 0x28 8) (fieldLE b 0x30 8) - 0x40 = base)
  (hread : u.readGuest 0 ⟨0, none, false⟩ base (fieldLE b 0x38 4) rs = (.bytes img, rs', w))
include hprofile hbase hread

/-- An adapter entry that has no good bound header. -/
theorem execRegisterBackend_entry (hbad : entryHdr img base (fieldLE b 0x28 8) = none ∨ entryHdr img base (fieldLE b 0x30 8) = none) :
    execRegisterBackend i e s = .next (w.finishItem i 7 5 none 0) := by
  simp only [execRegisterBackend, hx, State.withArgs_block hlen hglobal hblock, hprofile, Bool.not_true, Bool.false_eq_true, if_false, hbase, hread]
  rcases hbad with hto | hfrom
  · simp only [hto, State.badDesc]
  · rw [hfrom]
    cases entryHdr img base (fieldLE b 0x28 8) <;> rfl

variable {t f : Hdr} {wb : Nat} (hto : entryHdr img base (fieldLE b 0x28 8) = some t) (hfrom : entryHdr img base (fieldLE b 0x30 8) = some f)
  (hwb : allowNs (fieldLE b 8 4) = some wb)
include hto hfrom hwb

/-- A W_BOUND below the adapter's own bounds or past PRM_MAX_BOUND. -/
theorem execRegisterBackend_bound (hbad : wb < t.entryBound + f.entryBound ∨ (allowNs (w.getF .PRM_MAX_BOUND_MAX_BOUND 0)).getD 0 < wb) :
    execRegisterBackend i e s = .next (w.finishItem i 7 5 none 0) := by
  simp only [execRegisterBackend, hx, State.withArgs_block hlen hglobal hblock, hprofile, Bool.not_true, Bool.false_eq_true, if_false, hbase, hread,
    hto, hfrom, hwb, Option.getD_some, State.badDesc]
  rw [if_pos hbad.symm]

variable (hlow : t.entryBound + f.entryBound ≤ wb) (hhigh : wb ≤ (allowNs (w.getF .PRM_MAX_BOUND_MAX_BOUND 0)).getD 0)
  (hnew : w.work.backends.find (fieldLE b 0 1) = none)
include hlow hhigh hnew

/-- A backend that is not there yet and passes its checks wants its reservation on the ports, then its room (log entries 43, 112). -/
theorem execRegisterBackend_new : execRegisterBackend i e s = .next (
    if !w.linksOk (w.backendLinks b) then w.badDesc i 8
    else match x.takenOr (w.storeTake b (fieldLE b 0x38 4)) with
      | none => w.badDesc i 8
      | some r => match w.storeCopy i r.addr img with
        | none => w.holdupOverrun i r.addr
        | some v => (v.putBackend b img r.addr 0 (v.backendLinks b) t f).finishOk i 0) := by
  simp only [execRegisterBackend, hx, State.withArgs_block hlen hglobal hblock, hprofile, Bool.not_true, Bool.false_eq_true, if_false, hbase, hread,
    hto, hfrom, hwb, Option.getD_some, hnew, Option.any_none, State.dropBackend, Option.elim_none]
  exact congrArg Host.Outcome.next (if_neg (by omega))

end

/-! ### Notify lines (R167) -/

theorem execNotifyLineWrite_free {s : State} {n : Nat} {want : Option Nat} (hfree : s.getF .CST_BK_STATE_STATE n = 0) :
    execNotifyLineWrite n want s = .next s := congrArg Host.Outcome.next (if_pos hfree)

theorem execNotifyLineWrite_taken {s : State} {n : Nat} {want : Option Nat} (hused : s.getF .CST_BK_STATE_STATE n ≠ 0) :
    execNotifyLineWrite n want s = .next ((s.notified n want).tendNotify n) := congrArg Host.Outcome.next (if_neg hused)

/-- The entry of from-native (R167). -/
theorem State.core_readNative {s : State} {n c : Nat} {want o : Option Nat} {k : Backend} {p z : Nat} (hk : s.work.backends.find n = some k)
    (hnotify : k.notify ≠ 0) (hplace : s.nativePlace k want = some (c, o, p, z)) :
    ∃ rt slice, (s.readNative n want).core c = { s.core c with
      ctx := (adapterEntry (k.inCopy k.fromNative) rt p z slice).wr 5 (BitVec.ofNat 64 k.nativeBase), priv := true
      reading := some ⟨n, o, z, (s.core c).ctx, (s.core c).priv⟩
      serviceAt := if (s.core c).item.isSome then some s.now else (s.core c).serviceAt } := by
  refine ⟨((o.bind s.item).map (fun x => x.rt)).getD (s.getF .PRM_REMOTE_RT_REMOTE_RT 0), ((o.bind s.item).map (fun x => x.slice)).getD 0, ?_⟩
  simp only [State.readNative, hk, hnotify, if_false, hplace, State.core_setCore_same]
  rfl

/-! ### Reports (R168, R170) -/

section
variable {s : State} {n : Nat} {r : BkReport}

theorem State.takeReport_unknown (hnone : (s.work.backends.find n).bind (fun k => k.tokens.find r.token) = none) :
    s.takeReport n r = s.incF .CST_BK_DROPPED_COUNT n := by
  simp only [State.takeReport, hnone]

/-- A report of a token in use gives the token back; what it means for the node depends on the operation and its outcome. -/
theorem State.takeReport_known {k : Backend} {t : Token} (hk : s.work.backends.find n = some k) (ht : k.tokens.find r.token = some t) :
    s.takeReport n r =
      let v := s.updBackend n (fun k => { k with tokens := k.tokens.del r.token })
      if t.abandoned then v.incF .CST_BK_DROPPED_COUNT n
      else if r.ok then v.endNode t.item t.node r.result
      else (v.incF .CST_BK_FAILED_COUNT n).endContext t.item ⟨3, 7, true, none, none⟩ := by
  simp only [State.takeReport, hk, Option.bind_some, ht, State.backendFailed, causeBackend]

end

/-! ### W_BOUND (R168, R170) -/

section
variable {s : State} {n token : Nat} {k : Backend} {t : Token}
variable (hk : s.work.backends.find n = some k) (ht : k.tokens.find token = some t)
include hk ht

theorem execBackendWboundExpiry_early (hearly : s.now < t.startedAt + s.wBound n) : execBackendWboundExpiry n token s = .next s := by
  simp only [execBackendWboundExpiry, hk, Option.bind_some, ht, hearly, if_true]

variable (hlate : t.startedAt + s.wBound n ≤ s.now)
include hlate

theorem execBackendWboundExpiry_abandoned (habandoned : t.abandoned = true) : execBackendWboundExpiry n token s =
    .next ((s.updBackend n (fun k => { k with tokens := k.tokens.del token })).countLate n) := by
  simp only [execBackendWboundExpiry, hk, Option.bind_some, ht, Nat.not_lt.2 hlate, if_false, habandoned]

theorem execBackendWboundExpiry_late {y : Item} (habandoned : t.abandoned = false)
    (hy : (s.updBackend n (fun k => { k with tokens := k.tokens.del token })).itemNow t.item = some y) : execBackendWboundExpiry n token s =
      let v := s.updBackend n (fun k => { k with tokens := k.tokens.del token })
      .next (((v.fault { v.recordOf y 0x000F 1 9 with unit := n, castNode := t.node, aux0 := token, status := 3, creason := 6 }).countLate n).endContext
        t.item ⟨3, 6, true, some v.nextIndex, some 3⟩) := by
  simp only [execBackendWboundExpiry, hk, Option.bind_some, ht, Nat.not_lt.2 hlate, if_false, habandoned, hy]

end

/-! ### The cast runner (R150, R151) -/

section
variable {s : State} {i : Nat} {x : Item} {rs : List Ext}

/-- Before a node, the steward prepares nothing outside a step, and a step once. -/
theorem State.stageFirst_staged (h : s.runningStep x = none ∨ (s.tableOf x).isSome = true) : s.stageFirst i x rs = s := by
  unfold State.stageFirst
  rcases hstep : s.runningStep x with - | st
  · rfl
  · have htable : st.table.isSome = true := by
      simpa [State.tableOf, hstep] using h
    rcases x.model with - | m
    · rfl
    · exact if_pos htable

theorem State.stageFirst_unstaged {st : Step} {m : Nat} (hstep : s.runningStep x = some st) (hmodel : x.model = some m) (htable : st.table = none) :
    s.stageFirst i x rs = if ((s.stageStep m x st rs).runningStep x).any (fun z => z.seats == []) then
      (s.stageStep m x st rs).endContext i ⟨3, 2, true, none, none⟩ else s.stageStep m x st rs := by
  simp only [State.stageFirst, hstep, hmodel, htable, Option.isSome_none, Bool.false_eq_true, if_false]

variable (hx : s.item i = some x)
include hx

theorem execCastNodeStart_held (h : (s.core x.core).item ≠ some i ∨ x.cause.isSome = true ∨ (s.core x.core).serviceAt.isSome = true ∨ x.runner = none) :
    execCastNodeStart i rs s = .next s := by
  unfold execCastNodeStart
  rw [hx]
  dsimp only
  split
  · rfl
  · rename_i hruns
    simp only [not_or] at hruns
    obtain ⟨hitem, hcause, hservice⟩ := hruns
    rw [((h.resolve_left hitem).resolve_left hcause).resolve_left hservice]

variable {r : Runner} (hitem : (s.core x.core).item = some i) (hcause : x.cause = none) (hservice : (s.core x.core).serviceAt = none)
  (hrunner : x.runner = some r)
include hitem hcause hservice hrunner

theorem execCastNodeStart_busy (hrunning : r.running.isSome = true) : execCastNodeStart i rs s = .next s := by
  simp [execCastNodeStart, hx, hitem, hcause, hservice, hrunner, hrunning]

variable (hrunning : r.running = none)
include hrunning

theorem execCastNodeStart_starts (hstart : r.canStart (s.nodesOf x) = true) : execCastNodeStart i rs s =
    if ((s.stageFirst i x rs).core x.core).item ≠ some i then .next (s.stageFirst i x rs) else .next ((s.stageFirst i x rs).startNode i x r) := by
  simp [execCastNodeStart, hx, hitem, hcause, hservice, hrunner, hrunning, hstart]

theorem execCastNodeStart_yields (hstart : r.canStart (s.nodesOf x) = false) : execCastNodeStart i rs s = .next (s.yieldWait x.core 0) := by
  simp [execCastNodeStart, hx, hitem, hcause, hservice, hrunner, hrunning, hstart]

end

/-! ### The statement -/

/-- Settles O35: registration by its checks in their order, what each write, report and bound does, then the runner by what holds it. -/
theorem backendsAndNodes : Obligations.BackendsAndNodes := by
  refine ⟨fun s u w i n token want x e rs rs' b img _ => ⟨fun hx hlen hglobal hblock => ?_, execNotifyLineWrite_free, execNotifyLineWrite_taken,
    fun k c o p z hk hnotify hplace => ?_, fun r => State.takeReport_unknown, fun r k t hk ht => ?_, fun k t hk ht => ?_⟩, fun s i x hx => ?_⟩
  · refine ⟨execRegisterBackend_profile hx hlen hglobal hblock, fun hprofile hread =>
      ⟨execRegisterBackend_entry hx hlen hglobal hblock hprofile rfl hread, fun t f wb hto hfrom hwb =>
        ⟨execRegisterBackend_bound hx hlen hglobal hblock hprofile rfl hread hto hfrom hwb, fun hlow hhigh hnew => ?_⟩⟩⟩
    have hexec := execRegisterBackend_new hx hlen hglobal hblock hprofile rfl hread hto hfrom hwb hlow hhigh hnew
    refine ⟨fun hlinks => hexec.trans ?_, fun hlinks hroom => hexec.trans ?_, fun r v hlinks hroom hcopy => hexec.trans ?_⟩
    · simp only [hlinks, Bool.not_false, if_true, State.badDesc]
    · simp only [hlinks, Bool.not_true, Bool.false_eq_true, if_false, hroom, State.badDesc]
    · simp only [hlinks, Bool.not_true, Bool.false_eq_true, if_false, hroom, hcopy, State.finishOk]
  · obtain ⟨rt, slice, hcore⟩ := State.core_readNative hk hnotify hplace
    dsimp only
    rw [hcore]
    exact ⟨rfl, by simp [Ctx.rd_wr], rfl, rfl, rfl, _, rfl, rfl, rfl⟩
  · have hreport := State.takeReport_known hk ht
    refine ⟨fun habandoned => hreport.trans ?_, fun habandoned hok => hreport.trans ?_, fun habandoned hok => hreport.trans ?_⟩
    · simp only [habandoned, if_true]
    · simp only [habandoned, hok, Bool.false_eq_true, if_false, if_true]
    · simp only [habandoned, hok, Bool.false_eq_true, if_false]
  · exact ⟨execBackendWboundExpiry_early hk ht, execBackendWboundExpiry_abandoned hk ht, fun y hlate => execBackendWboundExpiry_late hk ht hlate⟩
  · refine ⟨fun hheld rs => execCastNodeStart_held hx hheld, fun r rs hitem hcause hservice hrunner => ⟨
      execCastNodeStart_busy hx hitem hcause hservice hrunner, fun hrunning hstart hstaged => ?_, fun st m => ?_,
      execCastNodeStart_yields hx hitem hcause hservice hrunner⟩⟩
    · refine (execCastNodeStart_starts hx hitem hcause hservice hrunner hrunning hstart).trans ?_
      rw [State.stageFirst_staged hstaged, if_neg (fun hne => hne hitem)]
    · intro w hrunning hstart hstep hmodel htable
      have hexec := execCastNodeStart_starts hx hitem hcause hservice hrunner hrunning hstart (rs := rs)
      rw [State.stageFirst_unstaged hstep hmodel htable] at hexec
      refine ⟨fun hmembers hstays => hexec.trans ?_, fun hempty hleft => hexec.trans ?_⟩
      · rw [hmembers]
        exact if_neg (fun hne => hne hstays)
      · rw [hempty]
        exact if_pos hleft

end Sys2Proof.Machine
end

section
/-!
SUPPORT. How a tensor or attention operation starts: the row its descriptor belongs to, its checks and its codebook's slot (R179, R187, R193).
-/

namespace Sys2Proof.Machine

/-! ### The row of a descriptor -/

/-- The commands that start an operation, each with its KIND and, where the kind has several, its EPI (Table 7-7). -/
def todCommands (o : Nat) : List (Instr × Nat × Option Nat) :=
  [(.todMatmul o, 1, none), (.todVectorAdd o, 2, some 0), (.todVectorMul o, 2, some 1), (.todVectorMax o, 2, some 2),
    (.todVectorMin o, 2, some 3), (.todVectorFma o, 2, some 4), (.todVectorExp o, 2, some 5), (.todVectorSilu o, 2, some 6),
    (.todVectorGelu o, 2, some 7), (.todVectorRsqrt o, 2, some 8), (.todVectorConvert o, 2, some 9), (.todReduceSum o, 3, some 0),
    (.todReduceMax o, 3, some 1), (.todReduceSumsq o, 3, some 2), (.todNormRms o, 4, some 0), (.todNormLayer o, 4, some 1),
    (.todCbLoad o, 5, none), (.todAttend o, 6, none)]

theorem exec_todCommands (s : State) (o : Nat) : ∀ p ∈ todCommands o, exec p.1 s = s.startTod o p.2.1 p.2.2 := by
  simp only [todCommands, List.forall_mem_cons, List.not_mem_nil, false_implies, implies_true, and_true]
  and_intros <;> rfl

theorem todRow_iff {b : List Byte} {kind : Nat} {epi : Option Nat} : todRow b kind epi = true ↔
    (parseTod b).kindOk = false ∨ ((parseTod b).kind = kind ∧ ∀ e, epi = some e → (parseTod b).epi = e) := by
  cases epi <;> simp [todRow]

/-- A descriptor of a listed kind belongs to no row of another kind or another EPI. -/
theorem todRow_other {b : List Byte} {kind : Nat} {epi : Option Nat} (hkind : (parseTod b).kindOk = true)
    (hother : (parseTod b).kind ≠ kind ∨ ∃ e, epi = some e ∧ (parseTod b).epi ≠ e) : todRow b kind epi = false := by
  rw [Bool.eq_false_iff, ne_eq, todRow_iff]
  rintro (hbad | ⟨hsame, hepi⟩)
  · exact Bool.false_ne_true (hbad.symm.trans hkind)
  · rcases hother with hne | ⟨e, he, hne⟩
    · exact hne hsame
    · exact hne (hepi e he)

section
variable {s w : State} {o : Nat} {x : Op}

/-! ### Whether the unit starts the operation (R193) -/

section
variable {kind : Nat} {epi : Option Nat} (hop : s.work.ops.find o = some x)
include hop

theorem State.startTod_leaves (h : s.unitUp x.on = false ∨ s.nextOn x.on ≠ some o ∨ todRow x.tod kind epi = false) :
    s.startTod o kind epi = .next s := by
  simp only [State.startTod, hop]
  refine if_neg fun hstart => ?_
  simp only [Bool.and_eq_true, beq_iff_eq] at hstart
  obtain ⟨⟨⟨-, hup⟩, hnext⟩, hrow⟩ := hstart
  rcases h with hdown | hlater | hother
  · exact Bool.false_ne_true (hdown.symm.trans hup)
  · exact hlater hnext
  · exact Bool.false_ne_true (hother.symm.trans hrow)

theorem State.startTod_runs (hunit : ∀ m, x.on ≠ .me m) (hup : s.unitUp x.on = true) (hnext : s.nextOn x.on = some o)
    (hrow : todRow x.tod kind epi = true) : s.startTod o kind epi = .next (s.runTod o x) := by
  simp only [State.startTod, hop]
  exact if_pos (by simp [hup, hnext, hrow])

end

/-! ### What a start does (R179, R187) -/

/-- An operation that its unit has begun. -/
def Op.begun (x : Op) (now : Nat) : Op := { x with phase := .running, startedAt := now, progressAt := now }

/-- An operation that holds a codebook: CB_LOAD, and a MATMUL of vector-quantised weights. -/
def Tod.usesBook (t : Tod) : Prop := t.kind = 5 ∨ (t.kind = 1 ∧ fmtVq t.fmtW = true)

theorem State.runTod_unbooked (hcheck : todCheck x.tod = 0) (hbook : ¬ (parseTod x.tod).usesBook) :
    s.runTod o x = s.updOp o (fun _ => x.begun s.now) := by
  unfold State.runTod
  rw [hcheck]
  exact if_neg hbook

section
variable (hcheck : todCheck x.tod = 0) (hbook : (parseTod x.tod).usesBook)
include hcheck hbook

theorem State.runTod_booked : s.runTod o x =
    match (s.updOp o (fun _ => x.begun s.now)).cbHold (s.tenAt x) x.te o (parseTod x.tod) with
    | (.error e, w) => s.stopOrWait w o (x.begun s.now) e
    | (.ok b, w) => (w.dropCurs x.on.number).updOp o (fun z => { z with run := { z.run with slot := some b.1, loaded := b.2 } }) := by
  unfold State.runTod
  rw [hcheck]
  exact if_pos hbook

theorem State.runTod_held {k : Nat} {new : Bool}
    (hhold : (s.updOp o (fun _ => x.begun s.now)).cbHold (s.tenAt x) x.te o (parseTod x.tod) = (.ok (k, new), w)) :
    s.runTod o x = (w.dropCurs x.on.number).updOp o (fun z => { z with run := { z.run with slot := some k, loaded := new } }) := by
  rw [State.runTod_booked hcheck hbook, hhold]

theorem State.runTod_unheld {e : TenStop}
    (hhold : (s.updOp o (fun _ => x.begun s.now)).cbHold (s.tenAt x) x.te o (parseTod x.tod) = (.error e, w)) :
    s.runTod o x = s.stopOrWait w o (x.begun s.now) e := by
  rw [State.runTod_booked hcheck hbook, hhold]

end

theorem State.runTod_refused (hcheck : todCheck x.tod ≠ 0) : s.runTod o x = s.badTod o x (todCheck x.tod) 0 := by
  unfold State.runTod
  split
  · contradiction
  · rfl

/-- A refused descriptor's record, when its item is still open. -/
theorem State.badTod_open {check seqId : Nat} {z : Item}
    (hitem : (((s.setF .TEN_LAST_CHECK x.te check).setF .TEN_LAST_SLICE x.te x.slice).releaseOp o x).itemNow x.item = some z) :
    s.badTod o x check seqId =
      let v := ((s.setF .TEN_LAST_CHECK x.te check).setF .TEN_LAST_SLICE x.te x.slice).releaseOp o x
      let r := { v.recordOf z 0x0003 1 (unitDomain x.on.number) with
        te := x.te, addr := x.todWin, aux0 := seqId, aux1 := check, status := 3, creason := 2 }
      (v.fault (match x.on with | .att k => { r with unit := k } | _ => r)).endContext x.item ⟨3, 2, true, some v.nextIndex, none⟩ := by
  simp only [State.badTod, hitem] <;> rfl

end

/-! ### The statement -/

/-- Settles O38: each command is a start of its row; the unit either leaves the operation, or runs it by its check and its codebook. -/
theorem tensorOperations : Obligations.TensorOperations := by
  intro s o x hop hunit p hp
  have hexec : exec p.1 s = s.startTod o p.2.1 p.2.2 := exec_todCommands s o p hp
  dsimp only
  rw [hexec]
  refine ⟨fun hidle => State.startTod_leaves hop (hidle.imp_right .inl), fun hkind hother =>
    State.startTod_leaves hop (.inr (.inr (todRow_other hkind hother))), fun hup hnext => ⟨fun hkind hepi hcheck => ?_, fun hrow hcheck z hz => ?_⟩⟩
  · have hruns := State.startTod_runs hop hunit hup hnext (todRow_iff.2 (.inr ⟨hkind, hepi⟩))
    exact ⟨fun hbook => hruns.trans (congrArg _ (State.runTod_unbooked hcheck hbook)),
      fun k new w hbook hhold => hruns.trans (congrArg _ (State.runTod_held hcheck hbook hhold)),
      fun e w hbook hhold => hruns.trans (congrArg _ (State.runTod_unheld hcheck hbook hhold))⟩
  · have hruns := State.startTod_runs hop hunit hup hnext (todRow_iff.2 hrow.symm)
    exact hruns.trans (congrArg _ ((State.runTod_refused hcheck).trans (State.badTod_open hz)))

end Sys2Proof.Machine
end

section
/-!
SUPPORT. Model loads and pins: what PIN_MODEL does by its checks, and how a load begins and ends (R203, R205, R206).
-/

namespace Sys2Proof.Machine

/-! ### What a load takes (R203, R205) -/

/-- Evictions leave the register store in order and the work as it is. -/
theorem State.each_evict_keeps {s : State} (hr : s.regs.rising = true) (l : List Nat) :
    (s.each l State.evict).regs.rising = true ∧ (s.each l State.evict).work = s.work :=
  State.each_keeps (P := fun t => t.regs.rising = true ∧ t.work = s.work) (f := State.evict)
    (fun _ _ h => ⟨State.rising_setF h.1 _ _ _, h.2⟩) l ⟨hr, rfl⟩

/-- A load that is committed shows in SRV_STATUS, and waits to begin with no pin behind it. -/
theorem State.commitLoad_load {s : State} (hr : s.regs.rising = true) (m : Nat) (w : Window) (sg : Nat) :
    ∃ (u : State) (l : Load), s.commitLoad m w none sg = (u.setF .SRV_STATUS_LOAD_BUSY 0 1).setF .SRV_STATUS_LOAD_MODEL 0 m ∧ u.serve.load = some l ∧
      l.model = m ∧ l.begun = false ∧ l.pinAfter = [] ∧ u.regs.rising = true ∧ u.work.items = s.work.items := by
  obtain ⟨hrising, hwork⟩ := State.each_evict_keeps hr w.evict
  refine ⟨_, _, rfl, rfl, rfl, rfl, rfl, ?_, ?_⟩
  · show ((s.each w.evict State.evict).setF .SRV_MDL_CTRL_STATE m 1).regs.rising = true
    exact State.rising_setF hrising _ _ _
  · show (s.each w.evict State.evict).work.items = s.work.items
    rw [hwork]

theorem State.load_of_newLoad {s : State} {m : Nat} {slice : Option Nat} {w : Window} (h : s.newLoad m slice = some w) : s.serve.load = none := by
  unfold State.newLoad at h
  split at h
  · cases h
  · rename_i hfree
    rw [Bool.or_eq_true, not_or] at hfree
    exact Option.not_isSome_iff_eq_none.1 hfree.1

/-! ### PIN_MODEL and UNPIN_MODEL (R206) -/

/-- The state with a load in progress, and an operation behind it that waits for its end. -/
def State.pinWaits (s : State) (l : Load) (i : Nat) : State :=
  { s with serve := { s.serve with load := some { l with pinAfter := l.pinAfter ++ [i] } } }

@[simp] theorem State.pinWaits_regs (s : State) (l : Load) (i : Nat) : (s.pinWaits l i).regs = s.regs := rfl
@[simp] theorem State.pinWaits_work (s : State) (l : Load) (i : Nat) : (s.pinWaits l i).work = s.work := rfl
@[simp] theorem State.getF_pinWaits (s : State) (l : Load) (i : Nat) (f : Fld) (j : Nat) : (s.pinWaits l i).getF f j = s.getF f j := rfl

@[simp] theorem State.pinModel_work (s : State) (m : Nat) : (s.pinModel m).work = s.work := rfl

theorem State.pinned_pinModel {s : State} (hr : s.regs.rising = true) (m : Nat) : (s.pinModel m).bitF .SRV_MDL_CTRL_PINNED m = true :=
  beq_of_eq (State.getF_setF_same hr _ _ _)

theorem State.getF_pinModel (s : State) (m : Nat) {f : Fld} (hf : f ≠ .SRV_MDL_CTRL_PINNED) (j : Nat) : (s.pinModel m).getF f j = s.getF f j :=
  State.getF_setF_ne _ _ _ _ _ _ (fun h => hf h.1)

section
variable {s : State} {i : Nat} {x : Item}
variable (hx : s.live i 0xA0 = some x) (hnew : ∀ l, s.serve.load = some l → i ∉ l.pinAfter)
include hx hnew

theorem execPinModel_refused (hbad : s.modelValid (x.inl % 2 ^ 10) = false ∨ s.bitF .SRV_MDL_CTRL_PINNED (x.inl % 2 ^ 10) = true) :
    execPinModel i s = .next (s.finishItem i 7 8 none 0) := by
  have hbad' : (!s.modelValid (x.inl % 2 ^ 10) || s.bitF .SRV_MDL_CTRL_PINNED (x.inl % 2 ^ 10)) = true := by simpa using hbad
  cases hload : s.serve.load <;>
    simp only [execPinModel, hx, hload, hnew, hbad', List.contains_iff_mem, Bool.false_eq_true, if_false, if_true, State.badDesc]

variable (hvalid : s.modelValid (x.inl % 2 ^ 10) = true) (hunpinned : s.bitF .SRV_MDL_CTRL_PINNED (x.inl % 2 ^ 10) = false)
include hvalid hunpinned

theorem execPinModel_resident (hres : s.resident (x.inl % 2 ^ 10) = true) :
    execPinModel i s = .next ((s.setF .SRV_MDL_CTRL_PINNED (x.inl % 2 ^ 10) 1).finishItem i 0 0 none 0) := by
  cases hload : s.serve.load <;>
    simp only [execPinModel, hx, hload, hnew, hvalid, hunpinned, hres, List.contains_iff_mem, Bool.not_true, Bool.or_self, Bool.false_eq_true,
      if_false, if_true, State.pinModel, State.finishOk]

variable (habsent : s.resident (x.inl % 2 ^ 10) = false) (hidle : s.modelState (x.inl % 2 ^ 10) ≠ 1)
include habsent hidle

/-- An operation that no load can serve completes STATE (log entry 112). -/
theorem execPinModel_unloadable (hnone : s.newLoad (x.inl % 2 ^ 10) none = none) : execPinModel i s = .next (s.finishItem i 7 8 none 0) := by
  cases hload : s.serve.load <;>
    simp only [execPinModel, hx, hload, hnew, hvalid, hunpinned, habsent, hidle, hnone, List.contains_iff_mem, Bool.not_true, Bool.or_self,
      Bool.false_eq_true, if_false, State.badDesc]

omit hnew in
/-- An operation whose model can be loaded commits the load, and waits behind it with the model pinned. -/
theorem execPinModel_commits (hnone : s.serve.load = none) {w : Window} {l : Load} (hload : s.newLoad (x.inl % 2 ^ 10) none = some w)
    (hcommitted : (s.commitLoad (x.inl % 2 ^ 10) w none s.sg).serve.load = some l) :
    execPinModel i s = .next (((s.commitLoad (x.inl % 2 ^ 10) w none s.sg).pinWaits l i).pinModel (x.inl % 2 ^ 10)) := by
  simp only [execPinModel, hx, hnone, hvalid, hunpinned, habsent, hidle, hload, Bool.not_true, Bool.or_self, Bool.false_eq_true, if_false]
  rw [hcommitted]
  rfl

omit hnew in
theorem execPinModel_loads (hr : s.regs.rising = true) {w : Window} (hload : s.newLoad (x.inl % 2 ^ 10) none = some w) :
    ∃ t l, execPinModel i s = .next t ∧ t.serve.load = some l ∧ l.model = x.inl % 2 ^ 10 ∧ l.begun = false ∧ l.pinAfter = [i] ∧
      t.bitF .SRV_MDL_CTRL_PINNED (x.inl % 2 ^ 10) = true ∧ t.getF .SRV_STATUS_LOAD_MODEL 0 = x.inl % 2 ^ 10 ∧ t.work.items = s.work.items := by
  obtain ⟨u, l, hcommit, hserve, hmodel, hbegun, hafter, hrising, hitems⟩ := State.commitLoad_load hr (x.inl % 2 ^ 10) w s.sg
  have hbusy := State.rising_setF hrising .SRV_STATUS_LOAD_BUSY 0 1
  have hexec := execPinModel_commits hx hvalid hunpinned habsent hidle (State.load_of_newLoad hload) hload
    (by rw [hcommit, State.setF_serve, State.setF_serve, hserve])
  refine ⟨_, _, hexec, rfl, hmodel, hbegun, by rw [hafter]; rfl, ?_, ?_, ?_⟩
  · refine State.pinned_pinModel ?_ _
    rw [State.pinWaits_regs, hcommit]
    exact State.rising_setF hbusy _ _ _
  · rw [State.getF_pinModel _ _ (by simp), State.getF_pinWaits, hcommit, State.getF_setF_same hbusy]
    exact Nat.mod_mod _ _
  · rw [State.pinModel_work, State.pinWaits_work, hcommit, State.setF_work, State.setF_work, hitems]

end

section
variable {s : State} {i : Nat} {x : Item}
variable (hx : s.live i 0xA1 = some x)
include hx

theorem execUnpinModel_pinned (hpin : s.bitF .SRV_MDL_CTRL_PINNED (x.inl % 2 ^ 10) = true) :
    execUnpinModel i s = .next ((s.setF .SRV_MDL_CTRL_PINNED (x.inl % 2 ^ 10) 0).finishItem i 0 0 none 0) := by
  simp only [execUnpinModel, hx, hpin, if_true, State.finishOk]

theorem execUnpinModel_unpinned (hpin : s.bitF .SRV_MDL_CTRL_PINNED (x.inl % 2 ^ 10) = false) :
    execUnpinModel i s = .next (s.finishItem i 7 8 none 0) := by
  simp only [execUnpinModel, hx, hpin, Bool.false_eq_true, if_false, State.badDesc]

end

/-! ### The load in progress (R203, R205) -/

theorem execModelLoad_none {s : State} (hnone : s.serve.load = none) :
    execModelLoadStart s = .next s ∧ execModelLoadComplete s = .next s ∧ ∀ p, execModelLoadPoison p s = .next s := by
  simp only [execModelLoadStart, execModelLoadComplete, execModelLoadPoison, hnone, implies_true, and_self]

section
variable {s : State} {l : Load} (hload : s.serve.load = some l)
include hload

theorem execModelLoadStart_early (hearly : s.now < l.startAt) : execModelLoadStart s = .next s := by
  simp only [execModelLoadStart, hload, hearly, if_true]

theorem execModelLoadStart_due (hdue : l.startAt ≤ s.now) :
    execModelLoadStart s = .next { s with serve := { s.serve with load := some { l with begun := true } } } := by
  simp only [execModelLoadStart, hload, Nat.not_lt.2 hdue, if_false]

theorem execModelLoadComplete_waiting (hbegun : l.begun = false) : execModelLoadComplete s = .next s := by
  simp only [execModelLoadComplete, hload, hbegun, Bool.not_false, if_true]

variable (hbegun : l.begun = true)
include hbegun

/-- Lines that holders outside the block may have changed are asked for first (R271). -/
theorem execModelLoadComplete_asks (hneeds : s.loadNeeds l.model ≠ []) :
    execModelLoadComplete s = .next (s.askLines .rdCur loadTag 0 0 (s.loadNeeds l.model)) := by
  simp only [execModelLoadComplete, hload, hbegun, Bool.not_true, Bool.false_eq_true, if_false, if_pos hneeds]

theorem execModelLoadComplete_copied (hneeds : s.loadNeeds l.model = []) (hafter : l.pinAfter = []) {w : State}
    (hcopy : s.copyPages (s.modelSrc l.model % 2 ^ 48) (s.modelX l.model).frames = .ok w) :
    execModelLoadComplete s = .next (((w.setF .SRV_MDL_CTRL_STATE l.model 2).incF .SRV_MDL_LOADS_COUNT l.model).loadOver) := by
  simp only [execModelLoadComplete, hload, hbegun, Bool.not_true, Bool.false_eq_true, if_false, hneeds, ne_eq, not_true_eq_false, hcopy, hafter,
    State.setModelState, State.each, List.foldl_nil]

theorem execModelLoadPoison_page {p : Nat} (hp : p < s.modelPages l.model) :
    execModelLoadPoison p s = .next (s.loadPoisoned l (s.modelSrc l.model % 2 ^ 48 + p * 0x200000)) := by
  simp only [execModelLoadPoison, hload, hbegun, hp, and_self, if_true]

end

/-! ### The statement -/

/-- Settles O36: the pin by its checks, then the load by whether it has begun and what its source still needs. -/
theorem modelLoads : Obligations.ModelLoads := by
  intro s i x hr
  refine ⟨fun hx hnew => ⟨execPinModel_refused hx hnew, fun hvalid hunpinned => ⟨execPinModel_resident hx hnew hvalid hunpinned,
      execPinModel_unloadable hx hnew hvalid hunpinned, fun w habsent hidle => execPinModel_loads hx hvalid hunpinned habsent hidle hr⟩⟩,
    fun hx => ⟨execUnpinModel_pinned hx, execUnpinModel_unpinned hx⟩, execModelLoad_none, fun l hload => ?_⟩
  exact ⟨execModelLoadStart_early hload, execModelLoadStart_due hload, execModelLoadComplete_waiting hload, execModelLoadComplete_asks hload,
    fun w hbegun hneeds hafter => execModelLoadComplete_copied hload hbegun hneeds hafter, fun p hbegun => execModelLoadPoison_page hload hbegun⟩

end Sys2Proof.Machine
end

section
/-!
SUPPORT. Steps and the registers of serving: how a step starts and ends, the counters of Table 8-6, and a model's control word (R213, R215, R225, R226).
-/

namespace Sys2Proof.Machine

/-! ### A step starts (R213) -/

section
variable {s u : State} {m c i : Nat} {x : Item} {a : Bool} (hcore : s.coreOfModel m = some c)
include hcore

theorem execStepStart_busy (hbusy : s.idleCore c = false) : execStepStart m s = .next s := by
  simp only [execStepStart, hcore, hbusy, Bool.false_eq_true, if_false]

theorem execStepStart_chosen (hidle : s.idleCore c = true) (hchosen : (s.stageSteps c).choose c = (some (i, a), u)) (hx : u.item i = some x)
    (hstep : x.step = true) (hmodel : x.model = some m) : execStepStart m s = .next ((u.loadCtx c i a).unstage s.work.nextItem) := by
  simp only [execStepStart, hcore, hidle, hchosen, hx, hstep, hmodel, Option.any_some, beq_self_eq_true, Bool.and_self, if_true]

end

/-! ### A step ends (R215) -/

theorem execStepEnd_none {s : State} {m : Nat} (hnone : (s.chain m).steps.find? (fun k => k.started) = none) (o : StepOutcome) :
    execStepEnd m o s = .next s := by
  simp only [execStepEnd, hnone]

/-- The state that the running step has left: its context's item is gone, and its members were the last that its model's chain served. -/
def State.stepLeaves (s : State) (m i : Nat) (members : List Nat) : State :=
  let d := s.dropItem i
  d.setChain m { d.chain m with steps := (d.chain m).steps.filter (fun k => !k.started), last := (d.chain m).last ++ members }

section
variable {s : State} {m i k : Nat} {x : Item} {st : Step} {rest : List (Nat × Item)} {r : Runner}
variable (hstep : (s.chain m).steps.find? (fun k => k.started) = some st)
  (hcontext : s.itemsWhere (fun y => y.step && y.model == some m) = (i, x) :: rest) (hcause : x.cause = none) (hreleased : s.released i = true)
  (hrunner : x.runner = some r) (hfinished : r.finished (s.nodesOf x) = true) (hmembers : st.members = [k]) (hcut : s.isCut k = false)
include hstep hcontext hcause hreleased hrunner hfinished hmembers hcut

/-- Lines of the output that holders outside the block have are asked for first (R281). -/
theorem execStepEnd_asks (hheld : s.outHeld (secOfCore x.core) [k] ≠ []) :
    execStepEnd m .done s = .next (s.askLines .wrFull stepTag 0 0 (s.outHeld (secOfCore x.core) [k])) := by
  have hrest : [k].filter (fun m => !s.isCut m) = [k] := by simp [hcut]
  simp only [execStepEnd, hstep, hcontext, hcause, hreleased, hrunner, hfinished, hmembers, hrest, Option.isSome_none, Bool.not_true, Bool.or_self,
    Bool.and_false, Bool.false_eq_true, if_false, if_true, if_pos hheld]

theorem execStepEnd_done (hheld : s.outHeld (secOfCore x.core) [k] = []) {y : Item} {z : Word}
    (hresult : (s.collectMember (secOfCore x.core) st k).1 = .ok z)
    (hy : ((s.collectMember (secOfCore x.core) st k).2.stepLeaves m i st.members).item k = some y) :
    execStepEnd m .done s = .next ((((((s.collectMember (secOfCore x.core) st k).2.stepLeaves m i st.members).memberDone k y z).each st.dropped
      State.unreserve).closeMarked.freeClosed m).dispatch x.core) := by
  have hrest : [k].filter (fun m => !s.isCut m) = [k] := by simp [hcut]
  have hnone : [k].filter s.isCut = [] := by simp [hcut]
  have hgive : (((s.collectMember (secOfCore x.core) st k).2.stepLeaves m i st.members).giveMember k (.ok z)) =
      ((s.collectMember (secOfCore x.core) st k).2.stepLeaves m i st.members).memberDone k y z := by
    simp only [State.giveMember, hy]
  rw [← hgive, ← hresult, hmembers]
  simp only [execStepEnd, hstep, hcontext, hcause, hreleased, hrunner, hfinished, hmembers, hrest, hnone, hheld, Option.isSome_none, Bool.not_true,
    Bool.or_self, Bool.and_false, Bool.false_eq_true, if_false, if_true, ne_eq, not_true_eq_false]
  rfl

end

/-- A member's RESULT stands in its entry of the batch table (R213). -/
theorem State.collectMember_result {s : State} {sec k tab o : Nat} {st : Step} {y : Item} (hy : s.item k = some y) (htable : st.table = some tab)
    (hseats : st.seats = [⟨k, o⟩]) (hcopied : (s.copyOut sec k y ⟨k, o⟩).1 = none) :
    (s.collectMember sec st k).1 = .ok (BitVec.ofNat 64 (fieldLE (s.stageRead (tab + 64 + 0x30) 8) 0 8)) := by
  rcases hcopy : s.copyOut sec k y ⟨k, o⟩ with ⟨e, u⟩
  rw [hcopy] at hcopied
  obtain rfl : e = none := hcopied
  have hseat : st.seats.findIdx? (fun z => z.item == k) = some 0 := by simp [hseats]
  have hout : st.seats.getD 0 ⟨k, 0⟩ = ⟨k, o⟩ := by rw [hseats]; rfl
  simp only [State.collectMember, hy, htable, hseat, hout, hcopy, Nat.zero_add, Nat.mul_one]

/-! ### The counters of Table 8-6 (R225) -/

theorem acctFields_reset {f : Fld} (hf : f ∈ acctFields) : f.reset = 0 := by
  revert f
  decide

/-- Exact counters cleared for one unit: they hold 0, and no other field changes. -/
theorem State.getF_each_clearNs (l : List Fld) (n : Nat) {s : State} (hr : s.regs.rising = true) (f : Fld) (j : Nat) :
    (s.each l (fun s g => s.clearNs g n)).getF f j = if f ∈ l ∧ j = n then 0 else s.getF f j := by
  induction l generalizing s with
  | nil => simp [State.each]
  | cons g l ih =>
    have hcleared : (s.clearNs g n).getF f j = if f = g ∧ j = n then 0 else s.getF f j := by
      rw [← Nat.zero_mod (2 ^ g.width)]
      exact State.getF_setF hr g f n j 0
    show ((s.clearNs g n).each l (fun s g => s.clearNs g n)).getF f j = _
    have hrising : (s.clearNs g n).regs.rising = true := State.rising_setF hr g n 0
    rw [ih hrising, hcleared]
    simp only [List.mem_cons]
    grind

theorem State.each_clearNs_rest (l : List Fld) (n : Nat) (s : State) :
    (s.each l (fun s g => s.clearNs g n)).work.items = s.work.items ∧ (s.each l (fun s g => s.clearNs g n)).mem = s.mem :=
  State.each_keeps (P := fun t => t.work.items = s.work.items ∧ t.mem = s.mem) (fun t g (h : (t.clearNs g n).work.items = _ ∧ _) => h) l ⟨rfl, rfl⟩

theorem execSrvAcctClr_one {s : State} (hr : s.regs.rising = true) (n : Nat) :
    ∃ t, execSrvAcctClr false n s = .next t ∧ (∀ f, f ∈ acctFields → t.getF f (n % 4096) = 0) ∧ t.work.items = s.work.items ∧ t.mem = s.mem ∧
      ∀ f j, ¬ (f ∈ acctFields ∧ j = n % 4096) → t.getF f j = s.getF f j := by
  have hget := State.getF_each_clearNs acctFields (n % 4096) hr
  obtain ⟨hitems, hmem⟩ := State.each_clearNs_rest acctFields (n % 4096) s
  exact ⟨_, rfl, fun f hf => (hget f _).trans (if_pos ⟨hf, rfl⟩), hitems, hmem, fun f j hother => (hget f j).trans (if_neg hother)⟩

theorem fkey_mod (f : Fld) (j : Nat) : fkey f j % 1024 = f.ctorIdx := by
  have hlt := f.ctorIdx_lt
  unfold fkey
  omega

theorem ctorIdx_mem_map {f : Fld} {l : List Fld} : f.ctorIdx ∈ l.map (fun g => g.ctorIdx) ↔ f ∈ l := by
  rw [List.mem_map]
  exact ⟨fun ⟨_, hg, heq⟩ => Fld.ctorIdx_inj heq ▸ hg, fun hf => ⟨f, hf, rfl⟩⟩

theorem execSrvAcctClr_all {s : State} (hr : s.regs.rising = true) (n : Nat) :
    ∃ t, execSrvAcctClr true n s = .next t ∧ (∀ f j, f ∈ acctFields → t.getF f j = 0) ∧ t.work.items = s.work.items ∧ t.mem = s.mem ∧
      ∀ f j, f ∉ acctFields → t.getF f j = s.getF f j := by
  have hkeys (f : Fld) (j : Nat) : (acctFields.map (fun g => g.ctorIdx)).contains (fkey f j % 1024) = decide (f ∈ acctFields) := by
    rw [fkey_mod, List.contains_eq_mem]
    exact decide_eq_decide.2 ctorIdx_mem_map
  refine ⟨_, rfl, fun f j hf => ?_, rfl, rfl, fun f j hf => ?_⟩
  · simp only [State.getF, Tbl.findD, Tbl.find_keep hr, hkeys, hf, decide_true, Bool.not_true, acctFields_reset hf]
    cases s.regs.find (fkey f j) <;> rfl
  · simp only [State.getF, Tbl.findD, Tbl.find_keep hr, hkeys, hf, decide_false, Bool.not_false]
    cases s.regs.find (fkey f j) <;> rfl

/-! ### A model's control word (R226) -/

/-- STEP_CAST as a write of the control word leaves it, before its VALID acts. -/
def State.putStepCast (s : State) (m v : Nat) : State :=
  if s.bitF .SRV_MDL_CTRL_VALID m then s else s.setF .SRV_MDL_CTRL_STEP_CAST m (v % 65536)

section
variable (s : State) (m v : Nat)

@[simp] theorem State.putStepCast_work : (s.putStepCast m v).work = s.work := by
  unfold State.putStepCast
  split <;> rfl

@[simp] theorem State.putStepCast_serve : (s.putStepCast m v).serve = s.serve := by
  unfold State.putStepCast
  split <;> rfl

theorem State.getF_putStepCast {f : Fld} (hf : f ≠ .SRV_MDL_CTRL_STEP_CAST) (n : Nat) : (s.putStepCast m v).getF f n = s.getF f n := by
  unfold State.putStepCast
  split
  · rfl
  · exact State.getF_setF_ne _ _ _ _ _ _ (fun h => hf h.1)

/-- VALID is all that a write of the control word may change beside STEP_CAST. -/
theorem State.writeModelCtrl_cases : s.writeModelCtrl m v = s.putStepCast m v ∨
    ∃ b, s.writeModelCtrl m v = (s.putStepCast m v).setF .SRV_MDL_CTRL_VALID m b := by
  unfold State.writeModelCtrl
  extract_lets want u hot
  have hput : s.putStepCast m v = u := rfl
  rw [hput]
  split <;> split
  · exact .inl rfl
  · exact .inr ⟨1, rfl⟩
  · exact .inl rfl
  · exact .inr ⟨0, rfl⟩

end

section
variable {s : State} {m v : Nat}

theorem State.writeModelCtrl_work : (s.writeModelCtrl m v).work = s.work := by
  rcases s.writeModelCtrl_cases m v with h | ⟨b, h⟩
  · rw [h, State.putStepCast_work]
  · rw [h, State.setF_work, State.putStepCast_work]

theorem State.writeModelCtrl_stepCast (hvalid : s.bitF .SRV_MDL_CTRL_VALID m = true) :
    (s.writeModelCtrl m v).getF .SRV_MDL_CTRL_STEP_CAST m = s.getF .SRV_MDL_CTRL_STEP_CAST m := by
  have hput : s.putStepCast m v = s := if_pos hvalid
  rcases s.writeModelCtrl_cases m v with h | ⟨b, h⟩
  · rw [h, hput]
  · rw [h, hput, State.getF_setF_ne _ _ _ _ _ _ (by simp)]

theorem State.bitF_putStepCast : (s.putStepCast m v).bitF .SRV_MDL_CTRL_VALID m = s.bitF .SRV_MDL_CTRL_VALID m := by
  unfold State.bitF
  rw [State.getF_putStepCast _ _ _ (by simp)]

theorem State.writeModelCtrl_noPages (hset : v.testBit 31 = true) (hpages : s.modelPages m = 0) :
    (s.writeModelCtrl m v).bitF .SRV_MDL_CTRL_VALID m = s.bitF .SRV_MDL_CTRL_VALID m := by
  have hnone : (s.putStepCast m v).modelPages m = 0 := (State.getF_putStepCast s m v (by simp) m).trans hpages
  have hkept : s.writeModelCtrl m v = s.putStepCast m v := (if_pos hset).trans (if_pos (.inl hnone))
  rw [hkept, State.bitF_putStepCast]

variable (hclear : v.testBit 31 = false)
include hclear

theorem State.writeModelCtrl_loaded (hstate : s.modelState m ≠ 0) :
    (s.writeModelCtrl m v).bitF .SRV_MDL_CTRL_VALID m = s.bitF .SRV_MDL_CTRL_VALID m := by
  have hput : (s.putStepCast m v).modelState m = s.modelState m := State.getF_putStepCast s m v (by simp) m
  have hkept : s.writeModelCtrl m v = s.putStepCast m v :=
    (if_neg (Bool.eq_false_iff.1 hclear)).trans (if_pos (.inl (fun h => hstate (hput.symm.trans h))))
  rw [hkept, State.bitF_putStepCast]

theorem State.writeModelCtrl_absent (hr : s.regs.rising = true) (hstate : s.modelState m = 0) (hseqs : s.modelSeqs m = []) :
    (s.writeModelCtrl m v).bitF .SRV_MDL_CTRL_VALID m = false := by
  have hput : (s.putStepCast m v).modelState m = 0 := (State.getF_putStepCast s m v (by simp) m).trans hstate
  have hnoSeqs : (s.putStepCast m v).modelSeqs m = [] := by rw [State.modelSeqs, State.putStepCast_serve]; exact hseqs
  have hrising : (s.putStepCast m v).regs.rising = true := by
    unfold State.putStepCast
    split
    · exact hr
    · exact State.rising_setF hr _ _ _
  have hcleared : s.writeModelCtrl m v = (s.putStepCast m v).setF .SRV_MDL_CTRL_VALID m 0 :=
    (if_neg (Bool.eq_false_iff.1 hclear)).trans (if_neg (not_or.2 ⟨fun h => h hput, fun h => h hnoSeqs⟩))
  rw [hcleared, State.bitF, State.getF_setF_same hrising]
  rfl

end

/-! ### The statement -/

/-- Settles O37: the step's start and end by what holds them, then the counters and the control word. -/
theorem stepsAndServingRegisters : Obligations.StepsAndServingRegisters := by
  intro s u m c i x v hr
  refine ⟨fun hcore => ⟨execStepStart_busy hcore, fun a => execStepStart_chosen hcore⟩, execStepEnd_none,
    fun st rest k y r hstep hcontext hcause hreleased hrunner hfinished hmembers hcut =>
      ⟨execStepEnd_asks hstep hcontext hcause hreleased hrunner hfinished hmembers hcut, fun hheld hy z hresult =>
        execStepEnd_done hstep hcontext hcause hreleased hrunner hfinished hmembers hcut hheld hresult hy⟩,
    fun st k y tab o => State.collectMember_result, execSrvAcctClr_one hr m, execSrvAcctClr_all hr m, _, rfl, State.writeModelCtrl_work,
    State.writeModelCtrl_stepCast, State.writeModelCtrl_noPages, fun hclear => State.writeModelCtrl_absent hclear hr, State.writeModelCtrl_loaded⟩

end Sys2Proof.Machine
end

section
/-!
SUPPORT. The memory map, CXL.mem ranges, and the invalidation of translations: what the lock and an enable do by their checks, and which
entries of the section TLBs an invalidation drops (R241, R250, R251, R257, R258).
-/

namespace Sys2Proof.Machine

/-! ### The map lock (R250, R251) -/

section
variable {s : State}

theorem execMemMapLock_ignored (h : s.bitF .MEM_MAP_LOCK 0 = true ∨ s.mapOk = false) : execMemMapLock s = .next s :=
  congrArg _ (if_pos (h.imp_right (Bool.not_eq_true' _).mpr))

theorem execMemMapLock_locks (hopen : s.bitF .MEM_MAP_LOCK 0 = false) (hok : s.mapOk = true) :
    execMemMapLock s = .next ((s.setF .MEM_MAP_LOCK 0 1).setF .MEM_STATUS_MAPPED 0 1) :=
  congrArg _ (if_neg (by simp [hopen, hok]))

end

/-! ### CXL.mem ranges (R241) -/

section
variable {s : State} {d : Nat} (hd : d < 8) (hoff : s.bitF .MEM_HDM_CTRL_EN d = false)
include hd hoff

theorem execMemHdmEnable_durable (hmeets : s.hdmClear d = false) : execMemHdmEnable d s = .next (s.setF .TMP_STATUS_DUR_ERR 0 1) := by
  simp only [execMemHdmEnable, State.hdmEnable, hd, hoff, hmeets, Bool.not_false, Bool.false_eq_true, if_true, if_false]

variable (hclear : s.hdmClear d = true)
include hclear

theorem execMemHdmEnable_mapped (hmapped : s.poolRange ((s.hdmRange d).1 % 2 ^ 48) (s.hdmRange d).2 = true) :
    execMemHdmEnable d s = .next (s.setF .MEM_HDM_CTRL_EN d 1) := by
  simp only [execMemHdmEnable, State.hdmEnable, hd, hoff, hclear, hmapped, Bool.not_true, Bool.false_eq_true, if_true, if_false]

theorem execMemHdmEnable_unmapped (hunmapped : s.poolRange ((s.hdmRange d).1 % 2 ^ 48) (s.hdmRange d).2 = false) :
    execMemHdmEnable d s = .next s := by
  simp only [execMemHdmEnable, State.hdmEnable, hd, hoff, hclear, hunmapped, Bool.not_true, Bool.false_eq_true, if_true, if_false]

end

/-! ### Dropping TLB entries (R257, R258) -/

@[simp] theorem State.tlbDrop_regs (s : State) (pick : TlbEnt → Bool) (page pages : Nat) : (s.tlbDrop pick page pages).regs = s.regs := rfl
@[simp] theorem State.tlbDrop_work (s : State) (pick : TlbEnt → Bool) (page pages : Nat) : (s.tlbDrop pick page pages).work = s.work := rfl
@[simp] theorem State.tlbDrop_out (s : State) (pick : TlbEnt → Bool) (page pages : Nat) : (s.tlbDrop pick page pages).out = s.out := rfl
@[simp] theorem State.tlbDrop_cells (s : State) (pick : TlbEnt → Bool) (page pages : Nat) :
    (s.tlbDrop pick page pages).mem.cells = s.mem.cells := rfl

@[simp] theorem State.contextChanged_regs (s : State) (slice : Nat) : (s.contextChanged slice).regs = s.regs := rfl
@[simp] theorem State.contextChanged_mem (s : State) (slice : Nat) : (s.contextChanged slice).mem = s.mem := rfl

/-- An entry that was held is dropped exactly where the test picks it and its pages meet the range. -/
theorem State.mem_tlbDrop {s : State} {x : TlbEnt} (hx : x ∈ s.mem.tlb) (pick : TlbEnt → Bool) (page pages : Nat) :
    x ∈ (s.tlbDrop pick page pages).mem.tlb ↔
      ¬ (pick x = true ∧ page * 4096 < (x.page + 1) * 2 ^ x.bits ∧ x.page * 2 ^ x.bits < (page + pages) * 4096) := by
  simp only [State.tlbDrop, List.mem_filter, hx, true_and, Bool.not_eq_true', Bool.eq_false_iff, ne_eq, Bool.and_eq_true, decide_eq_true_eq, and_assoc]

/-- The pages below 2^36 are the 48-bit addresses: of those entries that the test picks, each that begins in them is dropped. -/
theorem State.mem_tlbDrop_all {s : State} {x : TlbEnt} (hx : x ∈ s.mem.tlb) (pick : TlbEnt → Bool) :
    x ∈ (s.tlbDrop pick 0 (2 ^ 36)).mem.tlb ↔ ¬ (pick x = true ∧ x.page * 2 ^ x.bits < 2 ^ 48) := by
  have hbegins : 0 * 4096 < (x.page + 1) * 2 ^ x.bits := by
    rw [Nat.zero_mul]
    exact Nat.mul_pos x.page.succ_pos (Nat.two_pow_pos _)
  have hends : (0 + 2 ^ 36) * 4096 = 2 ^ 48 := by decide
  rw [State.mem_tlbDrop hx, hends]
  simp only [hbegins, true_and]

/-! ### An invalidation of the manager (R257) -/

/-- The state with GO and BUSY of MEM_INV_CTRL set. -/
def State.invBusy (s : State) : State := (s.setF .MEM_INV_CTRL_GO 0 1).setF .MEM_INV_CTRL_BUSY 0 1

theorem State.bitF_congr {s t : State} (h : t.regs = s.regs) (f : Fld) (i : Nat) : t.bitF f i = s.bitF f i := by
  unfold State.bitF State.getF
  rw [h]

theorem State.getF_invBusy (s : State) {f : Fld} (hgo : f ≠ .MEM_INV_CTRL_GO) (hbusy : f ≠ .MEM_INV_CTRL_BUSY) (i : Nat) :
    s.invBusy.getF f i = s.getF f i :=
  (State.getF_setF_ne _ _ _ _ _ _ (fun h => hbusy h.1)).trans (State.getF_setF_ne _ _ _ _ _ _ (fun h => hgo h.1))

theorem State.busy_invBusy {s : State} (hr : s.regs.rising = true) : s.invBusy.bitF .MEM_INV_CTRL_BUSY 0 = true :=
  beq_of_eq (State.getF_setF_same (State.rising_setF hr _ _ _) _ _ _)

/-- A slice bound to no function has no TDI to stop. -/
theorem State.tdiEvent_unbound {s : State} {slice : Nat} (hunbound : s.bitF .SLC_HOST_BOUND slice = false) : s.tdiEvent slice = s := by
  simp only [State.tdiEvent, hunbound, Bool.false_eq_true, if_false]

section
variable {s : State}

theorem execTlbInvalidate_busy (hbusy : s.bitF .MEM_INV_CTRL_BUSY 0 = true) : execTlbInvalidate s = .next s :=
  congrArg _ (if_pos hbusy)

section
variable (hidle : s.bitF .MEM_INV_CTRL_BUSY 0 = false) (hunbound : s.bitF .SLC_HOST_BOUND (s.getF .MEM_INV_CTRL_SLICE 0) = false)
include hidle hunbound

theorem State.invGo_starts : s.invGo =
    if s.invBusy.bitF .MEM_INV_CTRL_ALL 0 then
      (s.invBusy.tlbDrop (fun x => x.slice == s.getF .MEM_INV_CTRL_SLICE 0) 0 (2 ^ 36)).contextChanged (s.getF .MEM_INV_CTRL_SLICE 0)
    else s.invBusy.tlbDrop (fun x => x.slice == s.getF .MEM_INV_CTRL_SLICE 0) (s.invBusy.getF .MEM_INV_VA 0) (s.invBusy.getF .MEM_INV_CTRL_PAGES 0) := by
  unfold State.invGo
  rw [if_neg (Bool.eq_false_iff.1 hidle)]
  dsimp only
  rw [State.tdiEvent_unbound hunbound]
  rfl

theorem State.invGo_all (hall : s.bitF .MEM_INV_CTRL_ALL 0 = true) : s.invGo =
    (s.invBusy.tlbDrop (fun x => x.slice == s.getF .MEM_INV_CTRL_SLICE 0) 0 (2 ^ 36)).contextChanged (s.getF .MEM_INV_CTRL_SLICE 0) := by
  have hall' : s.invBusy.bitF .MEM_INV_CTRL_ALL 0 = true := (congrArg (· == 1) (s.getF_invBusy (by simp) (by simp) 0)).trans hall
  rw [State.invGo_starts hidle hunbound, if_pos hall']

theorem State.invGo_range (hall : s.bitF .MEM_INV_CTRL_ALL 0 = false) : s.invGo =
    s.invBusy.tlbDrop (fun x => x.slice == s.getF .MEM_INV_CTRL_SLICE 0) (s.getF .MEM_INV_VA 0) (s.getF .MEM_INV_CTRL_PAGES 0) := by
  have hall' : s.invBusy.bitF .MEM_INV_CTRL_ALL 0 = false := (congrArg (· == 1) (s.getF_invBusy (by simp) (by simp) 0)).trans hall
  rw [State.invGo_starts hidle hunbound, if_neg (Bool.eq_false_iff.1 hall'), s.getF_invBusy (by simp) (by simp), s.getF_invBusy (by simp) (by simp)]

theorem State.invGo_regs : s.invGo.regs = s.invBusy.regs := by
  rw [State.invGo_starts hidle hunbound]
  split <;> rfl

theorem State.invGo_cells : s.invGo.mem.cells = s.mem.cells := by
  rw [State.invGo_starts hidle hunbound]
  split <;> rfl

theorem State.busy_invGo (hr : s.regs.rising = true) : s.invGo.bitF .MEM_INV_CTRL_BUSY 0 = true :=
  (State.bitF_congr (State.invGo_regs hidle hunbound) _ _).trans (State.busy_invBusy hr)

/-- GO drops the slice's entries in the range, or with ALL every entry of the slice that begins in its 48-bit addresses. -/
theorem State.mem_invGo {x : TlbEnt} (hx : x ∈ s.mem.tlb) : x ∈ s.invGo.mem.tlb ↔
    ¬ (x.slice = s.getF .MEM_INV_CTRL_SLICE 0 ∧ (s.bitF .MEM_INV_CTRL_ALL 0 = false →
        s.getF .MEM_INV_VA 0 * 4096 < (x.page + 1) * 2 ^ x.bits ∧
        x.page * 2 ^ x.bits < (s.getF .MEM_INV_VA 0 + s.getF .MEM_INV_CTRL_PAGES 0) * 4096) ∧
      (s.bitF .MEM_INV_CTRL_ALL 0 = true → x.page * 2 ^ x.bits < 2 ^ 48)) := by
  have hx' : x ∈ s.invBusy.mem.tlb := hx
  cases hall : s.bitF .MEM_INV_CTRL_ALL 0 with
  | true =>
    rw [State.invGo_all hidle hunbound hall, State.contextChanged_mem, State.mem_tlbDrop_all hx']
    simp only [beq_iff_eq, Bool.true_eq_false, false_implies, true_implies, true_and]
  | false =>
    rw [State.invGo_range hidle hunbound hall, State.mem_tlbDrop hx']
    simp only [beq_iff_eq, Bool.false_eq_true, false_implies, true_implies, and_true]

end

theorem execTlbInvalidateDone_waits (hcrossed : s.invCrossed = true) : execTlbInvalidateDone s = .next s :=
  congrArg _ (if_neg (by simp [hcrossed]))

theorem execTlbInvalidateDone_idle (hidle : s.bitF .MEM_INV_CTRL_BUSY 0 = false) : execTlbInvalidateDone s = .next s :=
  congrArg _ (if_neg (by simp [hidle]))

theorem execTlbInvalidateDone_ends (hr : s.regs.rising = true) (hbusy : s.bitF .MEM_INV_CTRL_BUSY 0 = true) (hperformed : s.invCrossed = false) :
    ∃ t, execTlbInvalidateDone s = .next t ∧ t.bitF .MEM_INV_CTRL_BUSY 0 = false ∧ t.work = s.work ∧ t.mem = s.mem := by
  have hends : execTlbInvalidateDone s = .next ((s.setF .MEM_INV_CTRL_BUSY 0 0).setF .MEM_INV_CTRL_GO 0 0) :=
    congrArg _ (if_pos ⟨hbusy, (Bool.not_eq_true' _).mpr hperformed⟩)
  refine ⟨_, hends, ?_, rfl, rfl⟩
  rw [State.bitF, State.getF_setF_ne _ _ _ _ _ _ (by simp), State.getF_setF_same hr]
  rfl

end

/-! ### An ATS invalidation (R258) -/

section
variable {s : State} {port vf : Nat}

theorem execAtsInvalidation_unbound (hvf : s.sliceOfVf port vf = none) (page pages : Nat) :
    execAtsInvalidation port vf page pages s = .next (s.emit (.atsInvalidated port vf)) := by
  simp only [execAtsInvalidation, hvf]

theorem execAtsInvalidation_bound {slice : Nat} (hvf : s.sliceOfVf port vf = some slice) (page pages : Nat) :
    execAtsInvalidation port vf page pages s =
      .next ((s.tlbDrop (fun x => x.slice == slice && x.host) page pages).emit (.atsInvalidated port vf)) := by
  simp only [execAtsInvalidation, hvf]

theorem execAtsInvalidation_drops {slice : Nat} (hvf : s.sliceOfVf port vf = some slice) (page pages : Nat) :
    ∃ t, execAtsInvalidation port vf page pages s = .next t ∧ t.regs = s.regs ∧ t.work = s.work ∧ t.out = s.out ++ [.atsInvalidated port vf] ∧
      t.mem.cells = s.mem.cells ∧ ∀ x ∈ s.mem.tlb, (x ∈ t.mem.tlb ↔ ¬ (x.slice = slice ∧ x.host = true ∧
        page * 4096 < (x.page + 1) * 2 ^ x.bits ∧ x.page * 2 ^ x.bits < (page + pages) * 4096)) := by
  refine ⟨_, execAtsInvalidation_bound hvf page pages, rfl, rfl, rfl, rfl, fun x hx => ?_⟩
  rw [State.emit_mem, State.mem_tlbDrop hx, Bool.and_eq_true, beq_iff_eq, and_assoc]

end

/-! ### The statement -/

/-- Settles O41: the lock and the enable by their checks, then GO, DONE and an ATS invalidation by what their drop leaves. -/
theorem mapAndInvalidation : Obligations.MapAndInvalidation := by
  intro s d port vf page pages k hr
  exact ⟨execMemMapLock_ignored, execMemMapLock_locks, fun hd hoff => ⟨execMemHdmEnable_durable hd hoff, execMemHdmEnable_mapped hd hoff,
      execMemHdmEnable_unmapped hd hoff⟩, execTlbInvalidate_busy, fun _ => execTlbInvalidateDone_waits, execTlbInvalidateDone_ends hr,
    execTlbInvalidateDone_idle, fun hidle hunbound => ⟨s.invGo, rfl, State.busy_invGo hidle hunbound hr, State.invGo_cells hidle hunbound,
      fun _ => State.mem_invGo hidle hunbound⟩,
    fun hvf => execAtsInvalidation_unbound hvf page pages, fun hvf => execAtsInvalidation_drops hvf page pages⟩

end Sys2Proof.Machine
end

section
/-!
SUPPORT. Stacks: what a patrol read, the end of a row's move, and the end or the lapse of a training step do (R262–R267).
-/

namespace Sys2Proof.Machine

/-! ### Patrol (R262, R265) -/

section
variable {s : State} {offset : Nat}

theorem execPatrolScrub_unread {found : EccRead} (h : found = .clean ∨ s.holeLost (offset / 64 * 64) = true) :
    execPatrolScrub offset found s = .next s := if_pos h

variable (hheld : s.holeLost (offset / 64 * 64) = false) {found : EccRead} (hfound : found ≠ .clean)
include hheld hfound

theorem execPatrolScrub_part {k b : Nat} (hdirect : s.region (offset / 64 * 64) = .direct k b) : execPatrolScrub offset found s =
    .next (if found = .corrected then (s.bumpF .MEM_HT_ERR_CORRECTED k).correctedAt (partUnit k) (b / 4096)
      else ((s.bumpF .MEM_HT_ERR_UNCORRECTED k).uncorrectableAt (offset / 64 * 64)).startMove (partUnit k) (b / 4096)) := by
  simp only [execPatrolScrub, hheld, hfound, hdirect, Bool.false_eq_true, or_self, if_false]

theorem execPatrolScrub_stack {st ch r : Nat} (hpool : ∀ k b, s.region (offset / 64 * 64) ≠ .direct k b)
    (hplace : s.place (offset / 64 * 64) = some (st, ch, r)) : execPatrolScrub offset found s =
    .next (if found = .corrected then (s.bumpF .MEM_STK_ERR_CORRECTED st).correctedAt st (rowKey ch r)
      else ((s.bumpF .MEM_STK_ERR_UNCORRECTED st).uncorrectableAt (offset / 64 * 64)).startMove st (rowKey ch r)) := by
  cases hregion : s.region (offset / 64 * 64) with
  | direct k b => exact absurd hregion (hpool k b)
  | none | global | localTo | lcOf | hotView =>
    simp only [execPatrolScrub, hheld, hfound, hregion, hplace, Bool.false_eq_true, or_self, if_false]

end

/-! ### The end of a move (R265) -/

/-- The stack, or the hot-tier part, without the move of a row, and with the row's errors forgotten. -/
def State.moveEnded (s : State) (st row : Nat) : State :=
  s.updStack st (fun x => { x with moves := x.moves.filter (· != row), rowCe := x.rowCe.del row })

section
variable {s : State} {st row : Nat}

theorem execSpareMoveComplete_leaves (h : (s.stackX st).moves.contains row = false ∨ (s.mapped = false ∧ st < 32)) :
    execSpareMoveComplete st row s = .next s := by
  refine if_neg fun ⟨hopen, hready⟩ => ?_
  rcases h with hnone | ⟨hunmapped, hstack⟩
  · exact Bool.false_ne_true (hnone.symm.trans hopen)
  · exact hready.elim (fun hmapped => Bool.false_ne_true (hunmapped.symm.trans hmapped)) (Nat.not_le.2 hstack)

variable (hopen : (s.stackX st).moves.contains row = true)
include hopen

theorem execSpareMoveComplete_stack (hmapped : s.mapped = true) (hstack : st < 32) :
    execSpareMoveComplete st row s = .next ((s.moveEnded st row).commitMove st row) :=
  (if_pos ⟨hopen, .inl hmapped⟩).trans (congrArg _ (if_neg (Nat.not_le.2 hstack)))

theorem execSpareMoveComplete_part (hpart : 32 ≤ st) : execSpareMoveComplete st row s = .next ((s.moveEnded st row).commitPart (st - 32) row) :=
  (if_pos ⟨hopen, .inr hpart⟩).trans (congrArg _ (if_pos hpart))

end

/-! ### What a step of training drives (Table 10-7) -/

@[simp] theorem State.stackX_setF (s : State) (f : Fld) (i v st : Nat) : (s.setF f i v).stackX st = s.stackX st := rfl

@[simp] theorem State.getF_updStack (s : State) (st : Nat) (g : StackX → StackX) (f : Fld) (i : Nat) : (s.updStack st g).getF f i = s.getF f i := rfl

/-- Driving a step sends, and may draw a free value; nothing else changes. -/
theorem State.driveStep_rest (s : State) (st step : Nat) :
    s.driveStep st step = { s with free := (s.driveStep st step).free, out := (s.driveStep st step).out } := by
  unfold State.driveStep
  split <;> rfl

theorem State.driveStep_out_request (s : State) (st : Nat) {step : Nat} (hstep : step ≠ 4) :
    (s.driveStep st step).out = s.out ++ [.trnReq st step] := by
  rw [State.driveStep, if_neg hstep, State.emit_out]

theorem State.driveStep_out_repair (s : State) (st : Nat) : ∃ code, (s.driveStep st 4).out = s.out ++ [.lrep st code, .wsp st true] :=
  ⟨_, List.append_assoc _ _ _⟩

section
variable (s : State) (st step : Nat)

theorem State.trainStep_work : (s.trainStep st step).work = s.work := by
  rw [State.trainStep, State.driveStep_rest]
  rfl

theorem State.trainStep_cells : (s.trainStep st step).mem.cells = s.mem.cells := by
  rw [State.trainStep, State.driveStep_rest]
  rfl

theorem State.getF_trainStep (f : Fld) (i : Nat) : (s.trainStep st step).getF f i = (s.setF .MEM_STK_STAT_LAST_STEP st step).getF f i := by
  rw [State.trainStep, State.driveStep_rest]
  rfl

end

/-! ### The end of a training step (R264) -/

section
variable {s : State} {st : Nat}

theorem execTrnDone_untrained (hidle : s.getF .MEM_STK_STAT_STATE st ≠ 1) (ok : Bool) (stat : TrnStat) : execTrnDone st ok stat s = .next s :=
  if_pos hidle

theorem execStackTrainTimeout_untrained (hidle : s.getF .MEM_STK_STAT_STATE st ≠ 1) : execStackTrainTimeout st s = .next s :=
  if_neg fun ⟨htraining, _⟩ => hidle htraining

variable (htraining : s.getF .MEM_STK_STAT_STATE st = 1)
include htraining

theorem execTrnDone_five (hstep : s.getF .MEM_STK_STAT_LAST_STEP st = 5) (stat : TrnStat) : execTrnDone st true stat s =
    .next ((s.each stat.failing (fun s row => s.startMove st row)).setF .MEM_STK_STAT_STATE st 2) := by
  simp [execTrnDone, htraining, hstep]

theorem execTrnDone_four (hstep : s.getF .MEM_STK_STAT_LAST_STEP st = 4) (stat : TrnStat) : execTrnDone st true stat s =
    .next ((s.each ((List.range s.chans).filter stat.lost.testBit) (fun s ch => s.retireChannel st ch)).trainStep st 5) := by
  simp [execTrnDone, htraining, hstep]

theorem execTrnDone_early (hstep : s.getF .MEM_STK_STAT_LAST_STEP st < 4) (stat : TrnStat) :
    execTrnDone st true stat s = .next (s.trainStep st (s.getF .MEM_STK_STAT_LAST_STEP st + 1)) := by
  have hfour : s.getF .MEM_STK_STAT_LAST_STEP st ≠ 4 := Nat.ne_of_lt hstep
  have hfive : ¬ 5 ≤ s.getF .MEM_STK_STAT_LAST_STEP st := by omega
  simp only [execTrnDone, htraining, hfour, hfive, ne_eq, not_true_eq_false, if_false, if_true]

/-- A good step before the fourth begins the next, with its request, or with the lanes' repair in step 4. -/
theorem execTrnDone_next (hr : s.regs.rising = true) (hstep : s.getF .MEM_STK_STAT_LAST_STEP st < 4) (stat : TrnStat) :
    ∃ t, execTrnDone st true stat s = .next t ∧
      t.getF .MEM_STK_STAT_LAST_STEP st = s.getF .MEM_STK_STAT_LAST_STEP st + 1 ∧ t.getF .MEM_STK_STAT_STATE st = 1 ∧
      (s.getF .MEM_STK_STAT_LAST_STEP st < 3 → t.out = s.out ++ [.trnReq st (s.getF .MEM_STK_STAT_LAST_STEP st + 1)]) ∧
      (s.getF .MEM_STK_STAT_LAST_STEP st = 3 → ∃ code, t.out = s.out ++ [.lrep st code, .wsp st true]) ∧
      t.work = s.work ∧ t.mem.cells = s.mem.cells := by
  refine ⟨_, execTrnDone_early htraining hstep stat, ?_, ?_, fun hbefore => ?_, fun hthree => ?_, s.trainStep_work _ _, s.trainStep_cells _ _⟩
  · have hwidth : s.getF .MEM_STK_STAT_LAST_STEP st + 1 < 2 ^ Fld.width .MEM_STK_STAT_LAST_STEP := by
      show _ < 2 ^ 3
      omega
    rw [State.getF_trainStep, State.getF_setF_same hr, Nat.mod_eq_of_lt hwidth]
  · rw [State.getF_trainStep, State.getF_setF_ne _ _ _ _ _ _ (by simp), htraining]
  · exact State.driveStep_out_request _ st (by omega)
  · rw [hthree]
    exact State.driveStep_out_repair _ st

theorem execTrnDone_thirdFailure (hfails : (s.stackX st).fails = 2) (stat : TrnStat) : execTrnDone st false stat s =
    .next (((s.setF .MEM_STK_STAT_TRN_STAT st stat.stat.toNat).updStack st (fun x => { x with fails := 3 })).stackFailed st) := by
  simp [execTrnDone, htraining, hfails]

theorem execStackTrainTimeout_lapsed
    (hlapsed : (s.stackX st).stepAt + trainBound s.recov.warm.isSome (s.getF .MEM_STK_STAT_LAST_STEP st) ≤ s.now) :
    execStackTrainTimeout st s = .next (s.stackFailed st) := if_pos ⟨htraining, hlapsed⟩

end

/-! ### The statement -/

/-- Settles O42: a patrol read by what holds the line, a move by whether it can be committed, and a training step by its number. -/
theorem stackEvents : Obligations.StackEvents := by
  intro s off st row k f lost failing stat hr
  refine ⟨execPatrolScrub_unread (offset := off) (.inl rfl), fun hlost _ => execPatrolScrub_unread (.inr hlost),
    fun hheld hdirect => ⟨(execPatrolScrub_part hheld (by simp) hdirect).trans (congrArg _ (if_pos rfl)),
      (execPatrolScrub_part hheld (by simp) hdirect).trans (congrArg _ (if_neg (by simp)))⟩,
    fun a b hpool hplace hheld => ⟨(execPatrolScrub_stack hheld (by simp) hpool hplace).trans (congrArg _ (if_pos rfl)),
      (execPatrolScrub_stack hheld (by simp) hpool hplace).trans (congrArg _ (if_neg (by simp)))⟩,
    execSpareMoveComplete_leaves, fun hopen => ⟨execSpareMoveComplete_stack hopen, execSpareMoveComplete_part hopen⟩,
    fun hidle ok => ⟨execTrnDone_untrained hidle ok _, execStackTrainTimeout_untrained hidle⟩, fun htraining => ?_⟩
  exact ⟨fun hstep => execTrnDone_five htraining hstep _, fun hstep => execTrnDone_four htraining hstep _,
    fun hstep => execTrnDone_next htraining hr hstep _, fun hfails => execTrnDone_thirdFailure htraining hfails _, execStackTrainTimeout_lapsed htraining⟩

end Sys2Proof.Machine
end

section
/-!
SUPPORT. Port states (R301, R309, R311, R324, R326, Table 12-6).
-/

namespace Sys2Proof.Machine

/-! ### A port's link layer and the fields of its state -/

@[simp] theorem State.port_setPort (s : State) (p : Nat) (x : Port) : (s.setPort p x).port p = x := by
  unfold State.port State.setPort
  dsimp only
  rw [Tbl.findD_put, if_pos rfl]

@[simp] theorem State.getF_setPort (s : State) (p : Nat) (x : Port) (f : Fld) (i : Nat) : (s.setPort p x).getF f i = s.getF f i := rfl
@[simp] theorem State.bitF_setPort (s : State) (p : Nat) (x : Port) (f : Fld) (i : Nat) : (s.setPort p x).bitF f i = s.bitF f i := rfl
@[simp] theorem State.portState_setPort (s : State) (p : Nat) (x : Port) (q : Nat) : (s.setPort p x).portState q = s.portState q := rfl
@[simp] theorem State.port_setF (s : State) (f : Fld) (i v p : Nat) : (s.setF f i v).port p = s.port p := rfl

theorem State.portState_setF_ne (s : State) {f : Fld} (hf : f ≠ .FIL_PORT_STAT_STATE) (i v p : Nat) :
    (s.setF f i v).portState p = s.portState p := State.getF_setF_ne _ _ _ _ _ _ fun ⟨hstate, _⟩ => hf hstate.symm

theorem State.portLive_setF_ne (s : State) {f : Fld} (hf : f ≠ .FIL_PORT_STAT_STATE) (i v p : Nat) :
    (s.setF f i v).portLive p = s.portLive p := by
  unfold State.portLive
  rw [State.getF_setF_ne _ _ _ _ _ _ fun ⟨hstate, _⟩ => hf hstate.symm]

theorem State.bitF_setF_ne (s : State) {f g : Fld} (hf : g ≠ f) (i j v : Nat) : (s.setF f i v).bitF g j = s.bitF g j := by
  unfold State.bitF
  rw [State.getF_setF_ne _ _ _ _ _ _ fun ⟨hfield, _⟩ => hf hfield]

theorem State.bitF_setF_one {s : State} (hr : s.regs.rising = true) {f : Fld} (hwidth : 0 < f.width) (i : Nat) :
    (s.setF f i 1).bitF f i = true := by
  unfold State.bitF
  rw [State.getF_setF_same hr, Nat.mod_eq_of_lt (Nat.one_lt_two_pow (by omega)), beq_self_eq_true]

section
variable {s : State} {p : Nat}

/-- No echo leaves a port whose channel is closed (R310). -/
theorem State.trainFlits_closed (hclosed : s.channelOpen p = false) : s.trainFlits p = s := if_neg (by simp [hclosed])

/-! ### ENABLE set and cleared (Table 12-6) -/

theorem execPortEnable_reset (hdown : s.edgeUp = false) : execPortEnable p s = .next s := by
  simp [execPortEnable, State.enablePort, hdown]

/-- ENABLE of a present DORMANT port starts its training. -/
theorem execPortEnable_dormant (hup : s.edgeUp = true) (hpresent : s.portPresent p = true) (hdormant : s.portState p = 0) :
    execPortEnable p s = .next ((s.setF .FIL_PORT_CTRL_ENABLE p 1).startTraining p) := by
  have hstate : (s.setF .FIL_PORT_CTRL_ENABLE p 1).portState p = 0 := (s.portState_setF_ne (by decide) _ _ _).trans hdormant
  have hbuilt : (s.setF .FIL_PORT_CTRL_ENABLE p 1).portPresent p = true := hpresent
  simp [execPortEnable, State.enablePort, hup, hbuilt, hstate]

/-- A port that starts training on a closed channel changes its state, its cause and its link layer, and sends nothing. -/
theorem State.startTraining_closed (hclosed : s.channelOpen p = false) : s.startTraining p =
    ((s.setF .FIL_PORT_STAT_STATE p 1).setF .FIL_PORT_STAT_FENCE_CAUSE p 0).setPort p
      { Port.fresh with egress := (s.port p).egress, trainAt := s.now } := State.trainFlits_closed (by exact hclosed)

theorem State.portState_startTraining (hr : s.regs.rising = true) (hclosed : s.channelOpen p = false) : (s.startTraining p).portState p = 1 := by
  rw [State.startTraining_closed hclosed, State.portState_setPort, State.portState_setF_ne _ (by decide)]
  exact State.getF_setF_same hr _ _ _

theorem State.enable_startTraining (hclosed : s.channelOpen p = false) :
    (s.startTraining p).bitF .FIL_PORT_CTRL_ENABLE p = s.bitF .FIL_PORT_CTRL_ENABLE p := by
  rw [State.startTraining_closed hclosed, State.bitF_setPort, State.bitF_setF_ne _ (by decide), State.bitF_setF_ne _ (by decide)]

theorem execPortEnable_trains (hr : s.regs.rising = true) (hup : s.edgeUp = true) (hpresent : s.portPresent p = true) (hdormant : s.portState p = 0)
    (hclosed : s.channelOpen p = false) :
    ∃ t, execPortEnable p s = .next t ∧ t.portState p = 1 ∧ t.bitF .FIL_PORT_CTRL_ENABLE p = true ∧ t.mem = s.mem ∧ t.work = s.work := by
  have hquiet : (s.setF .FIL_PORT_CTRL_ENABLE p 1).channelOpen p = false := hclosed
  refine ⟨_, execPortEnable_dormant hup hpresent hdormant, State.portState_startTraining (State.rising_setF hr _ _ _) hquiet,
    (State.enable_startTraining hquiet).trans (State.bitF_setF_one hr (by decide) p), ?_, ?_⟩ <;>
  rw [State.startTraining_closed hquiet] <;> rfl

theorem execPortDisable_dormant (hdormant : s.portState p = 0) : execPortDisable p s = .next (s.setF .FIL_PORT_CTRL_ENABLE p 0) := by
  unfold execPortDisable State.disablePort
  dsimp only
  rw [State.portState_setF_ne _ (by decide), if_pos hdormant]

theorem execPortDisable_down (hstate : s.portState p ≠ 0) :
    execPortDisable p s = .next (((s.setF .FIL_PORT_CTRL_ENABLE p 0).portDown p 0).setF .FIL_PORT_STAT_FENCE_CAUSE p 0) := by
  unfold execPortDisable State.disablePort
  dsimp only
  rw [State.portState_setF_ne _ (by decide), if_neg hstate]

/-! ### Fences (Table 12-6) -/

theorem State.fencePort_down (hdown : s.portLive p = false) (cause : Nat) : s.fencePort p cause = s := by
  simp [State.fencePort, hdown]

theorem State.fencePort_live (hlive : s.portLive p = true) (cause : Nat) : s.fencePort p cause =
    (((s.portDown p 4).setF .FIL_PORT_STAT_FENCE_CAUSE p cause).fault { FaultRec.blank 0x0014 8 7 with unit := p, aux1 := cause }).lostOn p
      ((s.portDown p 4).setF .FIL_PORT_STAT_FENCE_CAUSE p cause).nextIndex := by
  simp [State.fencePort, hlive]

/-! ### The steps of training (R310, R311) -/

/-- A failure and a retry do nothing at a port that is not in TRAINING. -/
theorem execPortTraining_other (hstate : s.portState p ≠ 1) : execPortTrainingFail p s = .next s ∧ execPortTrainingRetry p s = .next s :=
  ⟨congrArg _ (if_pos (.inl hstate)), congrArg _ (if_neg fun ⟨htraining, _⟩ => hstate htraining)⟩

/-- What ends a backoff on a closed channel: it is counted, and nothing is sent. -/
theorem execPortTrainingRetry_due (htraining : s.portState p = 1) {a : Nat} (hretry : (s.port p).retryAt = some a) (hdue : a ≤ s.now)
    (hclosed : s.channelOpen p = false) : execPortTrainingRetry p s =
      .next ((s.setPort p { s.port p with retryAt := none, trainFails := (s.port p).trainFails + 1, trainAt := s.now }).bumpF
        .FIL_PORT_ERR_TRAIN_FAILS p) := by
  unfold execPortTrainingRetry
  dsimp only
  rw [if_pos ⟨htraining, by simp [hretry, hdue]⟩, State.trainFlits_closed (by exact hclosed)]

section
variable (htraining : s.portState p = 1) (hattempt : (s.port p).retryAt = none)
include htraining hattempt

theorem execPortTrainingFail_backoff : execPortTrainingFail p s =
    .next (s.setPort p { s.port p with retryAt := some (s.now + trainBackoff (s.port p).trainFails) }) :=
  congrArg _ (if_neg (by simp [htraining, hattempt]))

/-- A partner of another major version fails the attempt (R311). -/
theorem execPortTrainingDone_version {major : Nat} (hmajor : major ≠ 2) (trips : List Nat) (minor partner : Nat) :
    execPortTrainingDone p trips major minor partner s = execPortTrainingFail p s := by
  simp [execPortTrainingDone, execPortTrainingFail, State.trainDone, htraining, hattempt, hmajor]

end

/-- The port with its training over: a fresh link layer, its flight term, what its partner told, and its state by the width of its module. -/
def State.trained (s : State) (p : Nat) (trips : List Nat) (minor partner : Nat) : State :=
  ((((s.setPort p { Port.fresh with egress := (s.port p).egress, unnumbered := s.node == 0xFFFF }).setF .FIL_PORT_FLIGHT_NS p
    (min (flightTerm trips) 0xFFFF)).setF .FIL_PORT_STAT_MINOR p (min minor 0)).setF .FIL_PORT_STAT_PARTNER p partner).setF
    .FIL_PORT_STAT_STATE p (if s.portModule p = .half then 3 else 2)

theorem execPortTrainingDone_trained (htraining : s.portState p = 1) (hattempt : (s.port p).retryAt = none) (hopen : s.channelOpen p = true)
    {trips : List Nat} (hechoes : 16 ≤ trips.length) (minor partner : Nat) :
    execPortTrainingDone p trips 2 minor partner s = .next (s.trained p trips minor partner) := by
  have hstep : ¬ (s.portState p ≠ 1 ∨ (s.port p).retryAt.isSome) := by simp [htraining, hattempt]
  have hgood : ¬ (!s.channelOpen p ∨ 2 ≠ 2 ∨ trips.length < 16) := by simp [hopen, hechoes]
  unfold execPortTrainingDone State.trainDone
  rw [if_neg hstep, if_neg hgood]
  rfl

section
variable (trips : List Nat) (minor partner : Nat)

@[simp] theorem State.trained_mem : (s.trained p trips minor partner).mem = s.mem := rfl

@[simp] theorem State.egress_trained : ((s.trained p trips minor partner).port p).egress = (s.port p).egress := by
  unfold State.trained
  simp only [State.port_setF, State.port_setPort]

theorem State.portState_trained (hr : s.regs.rising = true) :
    (s.trained p trips minor partner).portState p = if s.portModule p = .half then 3 else 2 := by
  refine (State.getF_setF_same (State.rising_setF (State.rising_setF (State.rising_setF (by exact hr) _ _ _) _ _ _) _ _ _) _ _ _).trans ?_
  split <;> rfl

theorem State.flight_trained (hr : s.regs.rising = true) :
    (s.trained p trips minor partner).getF .FIL_PORT_FLIGHT_NS p = min (ceilDiv (trips.foldl max 0) 2) 0xFFFF := by
  have hfits : min (flightTerm trips) 0xFFFF < 2 ^ Fld.width .FIL_PORT_FLIGHT_NS := by
    show _ < 2 ^ 16
    omega
  unfold State.trained
  rw [State.getF_setF_ne _ _ _ _ _ _ (by simp), State.getF_setF_ne _ _ _ _ _ _ (by simp), State.getF_setF_ne _ _ _ _ _ _ (by simp),
    State.getF_setF_same (by exact hr), Nat.mod_eq_of_lt hfits]
  rfl

end

/-! ### Keys and fault injection (R309, R324) -/

theorem execPortRekey_live (hlive : s.portLive p = true) (henc : s.bitF .FIL_PORT_STAT_ENCRYPTED p = true) :
    execPortRekey p s = .next ((s.setF .FIL_PORT_CTRL_REKEY p 1).setPort p { s.port p with rekeyNext := true }) := by
  unfold execPortRekey State.rekey
  dsimp only
  rw [State.portLive_setF_ne _ (by decide), State.bitF_setF_ne _ (by decide), if_pos ⟨hlive, henc⟩, State.port_setF]

theorem execFaultInject_unstrapped (hboth : s.edge.straps.bothEnds = false) (htest : s.edge.straps.testEn = false) :
    execFaultInject s = .next s := congrArg _ (if_neg (by simp [hboth, htest]))

/-- GO takes the count of the flits that it acts on. -/
theorem execFaultInject_test (htest : s.edge.straps.testEn = true) :
    ∃ t, execFaultInject s = .next t ∧ t.fil.inject = s.getF .FIL_INJ_COUNT 0 ∧ t.mem = s.mem ∧ t.work = s.work :=
  ⟨_, congrArg Host.Outcome.next (if_pos (.inr htest)), rfl, rfl, rfl⟩

end

/-! ### The statement -/

/-- Settles O47: each port command by its own rule, by the state of the port that it meets. -/
theorem portStates : Obligations.PortStates := by
  intro s p hr
  refine ⟨execPortEnable_reset, execPortEnable_trains hr, execPortDisable_dormant, execPortDisable_down, fun c => ?fence,
    fun trips minor partner htraining hattempt hopen hechoes => ⟨?trained, ?version⟩, fun htraining hattempt => ?failed, execPortTraining_other,
    fun a htraining hretry hdue hclosed => ?retry, fun hlive henc => ?rekey, rfl, fun k v => rfl, execFaultInject_unstrapped, execFaultInject_test⟩
  case fence =>
    exact ⟨fun hdown => congrArg _ (State.fencePort_down hdown c), fun hlive => congrArg _ (State.fencePort_live hlive c)⟩
  case trained =>
    exact ⟨_, execPortTrainingDone_trained htraining hattempt hopen (Nat.le_of_eq hechoes.symm) minor partner, State.portState_trained _ _ _ hr,
      State.flight_trained _ _ _ hr, State.egress_trained _ _ _, State.trained_mem _ _ _⟩
  case version => exact execPortTrainingDone_version htraining hattempt (by decide) trips minor partner
  case failed => exact ⟨_, execPortTrainingFail_backoff htraining hattempt, by rw [State.port_setPort], rfl, rfl⟩
  case retry =>
    exact ⟨_, execPortTrainingRetry_due htraining hretry hdue hclosed, congrArg Port.retryAt (State.port_setPort s p _),
      congrArg Port.trainFails (State.port_setPort s p _), rfl, rfl⟩
  case rekey =>
    exact ⟨_, execPortRekey_live hlive henc, (State.bitF_setPort _ _ _ _ _).trans (State.bitF_setF_one hr (by decide) p),
      by rw [State.port_setPort], rfl, rfl⟩

end Sys2Proof.Machine
end

section
/-!
SUPPORT. Every command answers a next state (R381): the commands whose meaning is one state, those that branch on the state, and those
that go through a meaning which they share.
-/

namespace Sys2Proof.Machine

/-! ### Instructions read from their words (R121, R146) -/

/-- A meaning that two words may spell answers a next state. -/
def SpellsNext (o : Option (State → Result)) : Prop := ∀ f ∈ o, ∀ s, ∃ t, f s = .next t

theorem spellsNext_none : SpellsNext none := nofun

theorem spellsNext_some {f : State → Result} (hf : ∀ s, ∃ t, f s = .next t) : SpellsNext (some f) := by
  rintro g ⟨⟩
  exact hf

/-- An encoding whose reserved fields must be zero. -/
theorem spellsNext_checked {p : Prop} [Decidable p] {o : Option (State → Result)} (ho : SpellsNext o) : SpellsNext (if p then o else none) := by
  split
  · exact ho
  · exact spellsNext_none

section
variable {c fn : Nat} {g : Guard}

theorem spellsNext_cueAlu {rd ra rb : BitVec 5} : SpellsNext (cueAlu c g rd ra rb fn) := by
  unfold cueAlu
  dsimp only
  split
  case h_17 | h_18 | h_19 | h_20 | h_21 => exact spellsNext_checked (spellsNext_some fun _ => ⟨_, rfl⟩)
  case h_22 => exact spellsNext_none
  all_goals exact spellsNext_some fun _ => ⟨_, rfl⟩

theorem spellsNext_cueCmp {pd : BitVec 3} {ra rb : BitVec 5} : SpellsNext (cueCmp c g pd ra rb fn) := by
  unfold cueCmp
  split
  case h_7 => exact spellsNext_none
  all_goals exact spellsNext_some fun _ => ⟨_, rfl⟩

theorem spellsNext_cuePset {pd pa pb : BitVec 3} : SpellsNext (cuePset c g pd pa pb fn) := by
  unfold cuePset
  split
  case h_5 => exact spellsNext_none
  all_goals exact spellsNext_some fun _ => ⟨_, rfl⟩

theorem spellsNext_cueAmo {rd ra rb : BitVec 5} {e : Ext} : SpellsNext (cueAmo c g rd ra rb fn e) := by
  unfold cueAmo
  dsimp only
  split
  case h_8 => exact spellsNext_none
  all_goals exact spellsNext_some fun _ => ⟨_, rfl⟩

end

/-- Whatever two words spell answers a next state: by the opcode, a group with its own FN, a form with fields to check, or one without. -/
theorem spellsNext_cueOf (c w0 w1 : Nat) (e : Ext) : SpellsNext (cueOf c w0 w1 e) := by
  unfold cueOf
  dsimp only
  split
  case h_1 => exact spellsNext_cueAlu
  case h_10 => exact spellsNext_checked spellsNext_cueCmp
  case h_11 => split <;> exact spellsNext_some fun _ => ⟨_, rfl⟩
  case h_12 => exact spellsNext_checked spellsNext_cuePset
  case h_32 => exact spellsNext_cueAmo
  case h_39 =>
    split
    case h_3 => exact spellsNext_none
    all_goals exact spellsNext_checked (spellsNext_some fun _ => ⟨_, rfl⟩)
  case h_6 | h_7 | h_8 | h_15 | h_33 | h_34 | h_35 | h_37 | h_38 | h_40 | h_41 | h_42 | h_43 | h_44 | h_45 | h_46 | h_47 | h_48 =>
    exact spellsNext_checked (spellsNext_some fun _ => ⟨_, rfl⟩)
  case h_49 => exact spellsNext_none
  all_goals exact spellsNext_some fun _ => ⟨_, rfl⟩

theorem State.stepCore_next (s : State) (c : Nat) (answer : Ext) : ∃ t, s.stepCore c answer = .next t := by
  unfold State.stepCore
  extract_lets pc runs u
  split
  · exact ⟨_, rfl⟩
  split
  · exact ⟨_, rfl⟩
  split
  · extract_lets w0
    split
    split
    · split
      · rename_i f hf
        exact spellsNext_cueOf _ _ _ _ f hf _
      · exact ⟨_, rfl⟩
    · exact ⟨_, rfl⟩
  · exact ⟨_, rfl⟩

theorem execCueStep_next (c : Nat) (answer : Ext) (s : State) : ∃ t, execCueStep c answer s = .next t := by
  obtain ⟨t, ht⟩ := (s.setF .CUE_DBG_CTRL_HALTED c 0).stepCore_next c answer
  unfold execCueStep
  rw [ht]
  split <;> exact ⟨_, rfl⟩

/-! ### Meanings that commands share -/

theorem State.takeCast_next (s : State) (i opc : Nat) (patch : Bool) (reads : List Ext) : ∃ t, s.takeCast i opc patch reads = .next t := by
  unfold State.takeCast
  split
  · exact ⟨_, rfl⟩
  · split <;> exact ⟨_, rfl⟩

theorem State.startTod_next (s : State) (o kind : Nat) (epi : Option Nat) : ∃ t, s.startTod o kind epi = .next t := by
  unfold State.startTod
  split
  · extract_lets
    split <;> exact ⟨_, rfl⟩
  · exact ⟨_, rfl⟩

theorem execImageFetchComplete_next (image : Ext) (ok : Bool) (s : State) : ∃ t, execImageFetchComplete image ok s = .next t := by
  unfold execImageFetchComplete
  extract_lets n got
  clear_value got
  split
  · cases got with
    | none => exact ⟨_, rfl⟩
    | some b =>
      dsimp only
      split <;> exact ⟨_, rfl⟩
  · exact ⟨_, rfl⟩

/-! ### The statements -/

/-- Settles O1: a step with a command waiting is that command's meaning on the state without it. -/
theorem stepRunsFrontCommand : Obligations.StepRunsFrontCommand := by
  intro s c rest hpending
  unfold step
  rw [hpending]

/-- Settles O2: a command's meaning is one state, or a tree of tests on the state with one at every leaf, or a meaning shown above to be so. -/
theorem everyCommandCompletes : Obligations.EveryCommandCompletes := by
  intro i s
  cases i
  case cueStep c e => exact execCueStep_next c e s
  case imageFetchComplete image ok => exact execImageFetchComplete_next image ok s
  case registerCast | patchCast => exact s.takeCast_next ..
  case todMatmul | todVectorAdd | todVectorMul | todVectorMax | todVectorMin | todVectorFma | todVectorExp | todVectorSilu | todVectorGelu |
      todVectorRsqrt | todVectorConvert | todReduceSum | todReduceMax | todReduceSumsq | todNormRms | todNormLayer | todCbLoad | todAttend =>
    exact s.startTod_next ..
  case porstNRise | coreLeavesReset | iaModuleDegrade | iaLinkPowerState | tlmRecord | tlmStaleFault | vidAckRise | vidAckFall | vidAckLate |
      pstPersisted | pstFailed | pstEpochSend | trefLoss | trefRestored | trefLostTimeout | burnishReading | temperWindow | descriptorFetch |
      ringAccessFailure | admission | fence | nop | createSlice | resizeSlice | freezeSlice | freezeDrainDone | saveIngot | restoreIngot | thaw |
      retireSlice | retireKeyZeroise | createQueue | destroyQueue | queueReleaseDone | releaseLimitExpiry | pauseQueue | resumeQueue |
      qcxActivate | castVersionSwitch | registerBackend | pinModel | unpinModel | touchstone | itemTimeout | runLimitExpiry | interruptEntry |
      stretchExpiry | cueDbgDataWrite | castNodeStart | backendWboundExpiry | engineUnitEnd | engineOpComplete | engineHangExpiry |
      moveHangExpiry | moveOpComplete | engineRemoteRefusal | modelLoadStart | modelLoadComplete | modelLoadPoison | stepStart | stepEnd |
      srvAcctClr | patrolScrub | trnDone | stackTrainTimeout | spareMoveComplete | stakeLapse | dead | recallDone | snoopTimeout | cohDeadWrite |
      recallWindowClose | flitMsg | filSignal | functionLevelReset | sliceResetDone | keyQuarantineExpiry | scrubComplete | pageMoverDone |
      moderatorTimerExpiry | dumpTimeout | dumpUnitTimeout | heartbeatLapse | hopAllowanceExpiry | hostLinkUp | iaModuleTrained | mbxRxLastRead |
      mbxTxLen | recoveryScrub | sectionResetDone | sectionResetTimeout | startStageFail | startStageRetry | touchstoneBorrow |
      touchstoneDeadline | touchstoneTestDone | unitResetDone | unitResetTimeout =>
    unfold exec
    dsimp only
    delta execPorstNRise execCoreLeavesReset execIaModuleDegrade execIaLinkPowerState execTlmRecord execTlmStaleFault execVidAckRise execVidAckFall
      execVidAckLate execPstPersisted execPstFailed execPstEpochSend execTrefLoss execTrefRestored execTrefLostTimeout execBurnishReading
      execTemperWindow execDescriptorFetch execRingAccessFailure execAdmission execFence execNop execCreateSlice execResizeSlice
      execFreezeSlice execFreezeDrainDone execSaveIngot execRestoreIngot execThaw execRetireSlice execRetireKeyZeroise execCreateQueue
      execDestroyQueue execQueueReleaseDone execReleaseLimitExpiry execPauseQueue execResumeQueue execQcxActivate execCastVersionSwitch
      execRegisterBackend execPinModel execUnpinModel execTouchstone execItemTimeout execRunLimitExpiry execInterruptEntry execStretchExpiry
      execCueDbgDataWrite execCastNodeStart execBackendWboundExpiry execEngineUnitEnd execEngineOpComplete execEngineHangExpiry
      execMoveHangExpiry execMoveOpComplete execEngineRemoteRefusal execModelLoadStart execModelLoadComplete execModelLoadPoison execStepStart
      execStepEnd execSrvAcctClr execPatrolScrub execTrnDone execStackTrainTimeout execSpareMoveComplete execStakeLapse execDead execRecallDone
      execSnoopTimeout execCohDeadWrite execRecallWindowClose execFlitMsg execFilSignal execFunctionLevelReset execSliceResetDone
      execKeyQuarantineExpiry execScrubComplete execPageMoverDone execModeratorTimerExpiry execDumpTimeout execDumpUnitTimeout
      execHeartbeatLapse execHopAllowanceExpiry execHostLinkUp execIaModuleTrained execMbxRxLastRead execMbxTxLen execRecoveryScrub
      execSectionResetDone execSectionResetTimeout execStartStageFail execStartStageRetry execTouchstoneBorrow execTouchstoneDeadline
      execTouchstoneTestDone execUnitResetDone execUnitResetTimeout
    repeat' (first | split | extract_lets)
    all_goals exact ⟨_, rfl⟩
  all_goals exact ⟨_, rfl⟩

end Sys2Proof.Machine
end

section
/-!
SUPPORT. Mailbox channels (R356–R360): a direction of a channel after a change, and that notices leave every direction.
-/

namespace Sys2Proof.Machine

/-! ### Notices leave the mailbox directions -/

theorem State.sendMsix_dirs (s : State) (port : Nat) (vf : Option Nat) (entry : Nat) : (s.sendMsix port vf entry).mbx.dirs = s.mbx.dirs := by
  unfold State.sendMsix
  dsimp only
  split <;> rfl

theorem State.signalVector_dirs (s : State) (port : Option Nat) (v : Nat) : (s.signalVector port v).mbx.dirs = s.mbx.dirs := by
  unfold State.signalVector
  split <;> rfl

theorem State.managerVector_dirs (s : State) (v : Nat) : (s.managerVector v).mbx.dirs = s.mbx.dirs := by
  unfold State.managerVector
  split
  · exact s.signalVector_dirs _ v
  · split
    · exact s.sendMsix_dirs 0 none v
    · exact s.signalVector_dirs _ v
    · rfl
    · rfl

theorem State.managerCause_dirs (s : State) (v : Nat) : (s.managerCause v).mbx.dirs = s.mbx.dirs := by
  unfold State.managerCause
  dsimp only
  split
  · rfl
  · split
    · exact State.managerVector_dirs _ v
    · rfl

theorem State.notifies_mbxNotify (s : State) (ch : Nat) (b : Bool) : s.Notifies (s.mbxNotify ch b) := by
  unfold State.mbxNotify
  dsimp only
  split
  · exact s.notifies_cicEvent _ 2
  · exact s.notifies_cicEvent _ 2
  · exact s.notifies_managerCause 7
  · exact .refl s

theorem State.mbxNotify_dirs (s : State) (ch : Nat) (b : Bool) : (s.mbxNotify ch b).mbx.dirs = s.mbx.dirs := by
  have hevent (c : Nat) : (s.cicEvent c 2).mbx.dirs = s.mbx.dirs := by
    unfold State.cicEvent
    split <;> rfl
  unfold State.mbxNotify
  dsimp only
  split
  · exact hevent _
  · exact hevent _
  · exact s.managerCause_dirs 7
  · rfl

theorem State.mbxNotify_mem (s : State) (ch : Nat) (b : Bool) : (s.mbxNotify ch b).mem = s.mem := by rw [(s.notifies_mbxNotify ch b).rest]

@[simp] theorem State.mbxDir_mbxNotify (s : State) (ch : Nat) (b : Bool) (n : Nat) (d : Bool) : (s.mbxNotify ch b).mbxDir n d = s.mbxDir n d := by
  unfold State.mbxDir
  rw [State.mbxNotify_dirs]

/-! ### Directions -/

@[simp] theorem State.mbxDir_setMbxDir (s : State) (ch : Nat) (b : Bool) (d : MbxDir) : (s.setMbxDir ch b d).mbxDir ch b = d := by
  unfold State.mbxDir State.setMbxDir
  rw [Tbl.findD_put, if_pos rfl]

theorem State.mbxDir_setMbxDir_not (s : State) (ch : Nat) (b : Bool) (d : MbxDir) : (s.setMbxDir ch b d).mbxDir ch (!b) = s.mbxDir ch (!b) := by
  have hne : 2 * ch + b2n (!b) ≠ 2 * ch + b2n b := by cases b <;> simp [b2n]
  unfold State.mbxDir State.setMbxDir
  rw [Tbl.findD_put, if_neg hne]

section
variable {s : State} {party : Party} {ch : Nat} {b : Bool}

theorem execMbx_refused {k : Nat} (h : s.mbxAccess ch party = .inr k) (v : W32) :
    execMbxTxLen party ch v s = .next ((s.mbxErr ch k).emit (.mbxRefused party ch k)) ∧
      execMbxRxLastRead party ch s = .next ((s.mbxErr ch k).emit (.mbxRefused party ch k)) := by
  unfold execMbxTxLen execMbxRxLastRead
  rw [h]
  exact ⟨rfl, rfl⟩

theorem execMbxTxLen_bound (h : s.mbxAccess ch party = .inl b) (v : W32) : execMbxTxLen party ch v s = .next (s.mbxPost ch b (v.toNat % 16)) := by
  unfold execMbxTxLen
  rw [h]

theorem State.mbxPost_ignored {len : Nat} (h : (s.mbxDir ch b).full = true ∨ len = 0 ∨ 8 < len) : s.mbxPost ch b len = s.mbxErr ch 3 := if_pos h

theorem State.mbxPost_posts {len : Nat} (hempty : (s.mbxDir ch b).full = false) (hlo : 1 ≤ len) (hhi : len ≤ 8) :
    s.mbxPost ch b len = (s.setMbxDir ch b { s.mbxDir ch b with len := len, full := true }).mbxNotify ch (!b) := by
  refine if_neg ?_
  rw [hempty]
  rintro (h | h | h)
  · cases h
  all_goals omega

theorem execMbxRxLastRead_full (h : s.mbxAccess ch party = .inl b) (hfull : (s.mbxDir ch (!b)).full = true) :
    execMbxRxLastRead party ch s = .next (((s.setMbxDir ch (!b) { s.mbxDir ch (!b) with full := false }).mbxNotify ch (!b)).emit
      (.mbxWord party ch ((s.mbxDir ch (!b)).words.toList.getD ((s.mbxDir ch (!b)).len - 1) 0).toNat)) := by
  unfold execMbxRxLastRead State.mbxTake
  rw [h]
  dsimp only
  rw [if_pos hfull]

theorem State.mbxAccess_unbound (h : s.sideOf ch party = none) : s.mbxAccess ch party = .inr 2 := by
  unfold State.mbxAccess
  rw [h]

theorem State.mbxAccess_farOff (hside : s.sideOf ch party = some b) (hoff : s.farOff ch b = true) : s.mbxAccess ch party = .inr 1 := by
  unfold State.mbxAccess
  rw [hside]
  exact if_pos hoff

theorem State.mbxDir_mbxClear (s : State) (ch : Nat) (b : Bool) : (s.mbxClear ch).mbxDir ch b = MbxDir.fresh := by
  show ((s.setMbxDir ch false MbxDir.fresh).setMbxDir ch true MbxDir.fresh).mbxDir ch b = _
  cases b with
  | false => exact (State.mbxDir_setMbxDir_not _ ch true _).trans (State.mbxDir_setMbxDir ..)
  | true => exact State.mbxDir_setMbxDir ..

end

/-! ### The statement -/

/-- Settles O50: an access to a channel by what it meets there, and a post and the last read by the direction's FULL. -/
theorem mailboxes : Obligations.Mailboxes := by
  intro s party ch b v _
  refine ⟨fun k h => execMbx_refused h v, State.mbxAccess_unbound, State.mbxAccess_farOff, fun h => ⟨?ignored, ?posted, ?read⟩, rfl, ?returned⟩
  case ignored =>
    intro hbad
    exact (execMbxTxLen_bound h v).trans (congrArg _ (State.mbxPost_ignored hbad))
  case posted =>
    intro hempty hlo hhi
    refine ⟨_, (execMbxTxLen_bound h v).trans (congrArg _ (State.mbxPost_posts hempty hlo hhi)), ?_, ?_, ?_, State.mbxNotify_mem _ _ _⟩
    all_goals rw [State.mbxDir_mbxNotify, State.mbxDir_setMbxDir]
  case read =>
    intro hfull
    refine ⟨_, execMbxRxLastRead_full h hfull, ?_, State.mbxNotify_mem _ _ _, List.mem_append_right _ (List.mem_singleton_self _)⟩
    exact congrArg MbxDir.full ((State.mbxDir_mbxNotify ..).trans (State.mbxDir_setMbxDir ..))
  case returned =>
    exact ⟨_, rfl, congrArg MbxDir.full (s.mbxDir_mbxClear ch false), congrArg MbxDir.full (s.mbxDir_mbxClear ch true), rfl, rfl, rfl⟩

end Sys2Proof.Machine
end

section
/-!
SUPPORT. The interrupt controller's registers (R350, R351, R354, R355): what a write of ones clears or sets, and that a queue's vector is a
notice.
-/

namespace Sys2Proof.Machine

/-! ### A queue's vector (R354) -/

theorem State.notifies_send? {s t : State} {sub : Nat} {m : Msg} (h : s.send? sub m = some t) : s.Notifies t := by
  obtain ⟨p, -, rfl⟩ := Option.map_eq_some_iff.1 h
  exact s.notifies_toPort p sub m

theorem State.notifies_sendQueueVector (s : State) (q : Nat) : s.Notifies (s.sendQueueVector q) := by
  unfold State.sendQueueVector
  split
  · exact s.notifies_managerVector 0
  · extract_lets slice m
    split
    · split
      · rename_i hsent
        exact (State.notifies_send? hsent).trans (State.notifies_setF _ (by decide) _ _)
      · exact s.notifies_setF (by decide) _ _
    · split
      · exact s.notifies_managerVector _
      · exact s.notifies_sendMsix _ _ _

/-! ### Bits of a field that a write of ones changes -/

theorem testBit_not_toNat (v : W32) (b : Nat) (hb : b < 32) : (~~~v).toNat.testBit b = !v.getLsbD b := by
  rw [BitVec.testBit_toNat, BitVec.getLsbD_not, decide_eq_true hb, Bool.true_and]

section
variable {s : State}

theorem State.bitOf_setF_and (h : s.regsOk) {f : Fld} (hreset : f.reset < 2 ^ f.width) (i m b : Nat) :
    (s.setF f i (s.getF f i &&& m)).bitOf f i b = (s.bitOf f i b && m.testBit b) := by
  have hfits : s.getF f i &&& m < 2 ^ f.width := Nat.lt_of_le_of_lt Nat.and_le_left (State.getF_lt h hreset i)
  unfold State.bitOf
  rw [State.getF_setF_same h.1, Nat.mod_eq_of_lt hfits, Nat.testBit_and]

theorem State.bitOf_above_width (h : s.regsOk) {f : Fld} (hreset : f.reset < 2 ^ f.width) (i : Nat) {b : Nat} (hb : f.width ≤ b) :
    s.bitOf f i b = false :=
  Nat.testBit_lt_two_pow ((State.getF_lt h hreset i).trans_le (Nat.pow_le_pow_right (by decide) hb))

theorem execCicPendClear_bit (h : s.regsOk) (c w : Nat) (v : W32) (b : Nat) :
    (s.setF .CIC_PEND (c * 4 + w) (s.getF .CIC_PEND (c * 4 + w) &&& (~~~v).toNat)).bitOf .CIC_PEND (c * 4 + w) b =
      (s.bitOf .CIC_PEND (c * 4 + w) b && !v.getLsbD b) := by
  rw [State.bitOf_setF_and h (by decide)]
  by_cases hb : b < 32
  · rw [testBit_not_toNat v b hb]
  · rw [State.bitOf_above_width h (by decide) _ (Nat.le_of_not_lt hb), Bool.false_and, Bool.false_and]

theorem execCicMcauseClear_bit (h : s.regsOk) (v : W32) {b : Nat} (hb : b < 8) :
    (s.setF .CIC_MCAUSE_CAUSE 0 (s.getF .CIC_MCAUSE_CAUSE 0 &&& (~~~v).toNat >>> 1)).bitOf .CIC_MCAUSE_CAUSE 0 b =
      (s.bitOf .CIC_MCAUSE_CAUSE 0 b && !v.getLsbD (b + 1)) := by
  rw [State.bitOf_setF_and h (by decide), Nat.testBit_shiftRight, Nat.add_comm 1 b, testBit_not_toNat v (b + 1) (by omega)]

theorem execCicSet_zero (c w : Nat) : execCicSet c w 0 s = .next s := by
  have hnone : (List.range 32).filter (fun i => (0 : W32).toNat.testBit i && cicSettable (32 * w + i)) = [] := by simp
  unfold execCicSet
  rw [hnone]
  rfl

/-- The sources named by a word with one bit set. -/
theorem filter_oneBit {b : Nat} (hb : b < 32) (p : Nat → Bool) :
    (List.range 32).filter (fun i => (BitVec.ofNat 32 (2 ^ b)).toNat.testBit i && p i) = if p b then [b] else [] := by
  have hword : (BitVec.ofNat 32 (2 ^ b)).toNat = 2 ^ b := Nat.mod_eq_of_lt (Nat.pow_lt_pow_right (by decide) hb)
  have hbit : ∀ i, ((BitVec.ofNat 32 (2 ^ b)).toNat.testBit i && p i) = (p b && i == b) := by
    intro i
    rw [hword, Nat.testBit_two_pow]
    by_cases hi : b = i
    · subst hi
      simp
    · simp [hi, Ne.symm hi]
  simp only [hbit]
  cases p b with
  | false => simp
  | true => simp [List.filter_beq, List.count_range, hb]

theorem execCicSet_one (c w : Nat) {b : Nat} (hb : b < 32) :
    execCicSet c w (BitVec.ofNat 32 (2 ^ b)) s = .next (if cicSettable (32 * w + b) then s.cicEvent c (32 * w + b) else s) := by
  unfold execCicSet
  rw [filter_oneBit hb (fun i => cicSettable (32 * w + i))]
  split <;> rfl

/-! ### Moderator timers and masks (R355) -/

theorem execModeratorTimerExpiry_idle {q : Nat} (h : (s.qx q).timer = none) : execModeratorTimerExpiry q s = .next s := by
  unfold execModeratorTimerExpiry
  dsimp only
  rw [h]

theorem execModeratorTimerExpiry_early {q a : Nat} (h : (s.qx q).timer = some a) (hearly : s.now < a) :
    execModeratorTimerExpiry q s = .next s := by
  unfold execModeratorTimerExpiry
  dsimp only
  rw [h]
  exact if_neg (Nat.not_le_of_lt hearly)

/-- A queue's vector after the message of its timer, if events were counted. -/
def State.timerMessage (s : State) (q : Nat) : State := if (s.qx q).count > 0 then s.sendQueueVector q else s

theorem execModeratorTimerExpiry_due {q a : Nat} (h : (s.qx q).timer = some a) (hdue : a ≤ s.now) : execModeratorTimerExpiry q s =
    .next ((s.timerMessage q).setQx q { (s.timerMessage q).qx q with count := 0, timer := none }) := by
  unfold execModeratorTimerExpiry
  dsimp only
  rw [h]
  exact if_pos hdue

theorem State.notifies_timerMessage (s : State) (q : Nat) : s.Notifies (s.timerMessage q) := by
  unfold State.timerMessage
  split
  · exact s.notifies_sendQueueVector q
  · exact .refl s

/-- A vector without its mask. -/
theorem State.msix_unmask (s : State) (port : Nat) (vf : Option Nat) (entry : Nat) :
    ∃ x, (s.unmask port vf entry).mbx.msix.find (msixKey port vf entry) = some x ∧ x.masked = false := by
  let y : MsixVec := { s.mbx.msix.findD (msixKey port vf entry) MsixVec.fresh with masked := false, pba := false }
  let t := s.setMsix port vf entry (fun v => { v with masked := false, pba := false })
  have hfind : t.mbx.msix.find (msixKey port vf entry) = some y := Tbl.find_put_same _ _ _
  have hsent : (t.sendMsix port vf entry).mbx = t.mbx := by
    unfold State.sendMsix Tbl.findD
    dsimp only
    rw [hfind]
    rfl
  refine ⟨y, ?_, rfl⟩
  show (if _ then t.sendMsix port vf entry else t).mbx.msix.find _ = _
  split
  · rw [hsent, hfind]
  · exact hfind

theorem State.unmask_rest (s : State) (port : Nat) (vf : Option Nat) (entry : Nat) :
    (s.unmask port vf entry).work = s.work ∧ (s.unmask port vf entry).mem = s.mem := by
  have hsend := State.notifies_sendMsix (s.setMsix port vf entry (fun v => { v with masked := false, pba := false })) port vf entry
  unfold State.unmask
  dsimp only
  split
  · rw [hsend.rest]
    exact ⟨rfl, rfl⟩
  · exact ⟨rfl, rfl⟩

end

/-! ### The statement -/

/-- Settles O49: the bits that a write of ones leaves, the one source that a word with one bit sets, and the vector's timer and mask. -/
theorem interruptRegisters : Obligations.InterruptRegisters := by
  intro s c w q v hregs _
  refine ⟨?pend, ?mcause, fun hv => hv ▸ execCicSet_zero c w, ?set, execModeratorTimerExpiry_idle,
    fun a htimer => ⟨execModeratorTimerExpiry_early htimer, ?due⟩, ?unmask⟩
  case pend =>
    exact ⟨_, rfl, execCicPendClear_bit hregs c w v, fun f i hne => State.getF_setF_ne s _ f _ i _ hne, rfl, rfl, rfl⟩
  case mcause =>
    exact ⟨_, rfl, fun b hb => execCicMcauseClear_bit hregs v hb, rfl, rfl, rfl⟩
  case set =>
    rintro b hb rfl
    exact ⟨fun hset => (execCicSet_one c w hb).trans (by rw [if_pos hset]),
      fun hclear => (execCicSet_one c w hb).trans (by rw [if_neg (by simp [hclear])])⟩
  case due =>
    intro hdue
    refine ⟨_, execModeratorTimerExpiry_due htimer hdue, ?_, ?_, ?_⟩
    · rw [State.qx_setQx_same]
    · rw [State.qx_setQx_same]
    · show (s.timerMessage q).mem = s.mem
      rw [(s.notifies_timerMessage q).rest]
  case unmask =>
    intro port vf entry
    obtain ⟨x, hfind, hmask⟩ := s.msix_unmask port (some vf) entry
    obtain ⟨hwork, hmem⟩ := s.unmask_rest port (some vf) entry
    exact ⟨_, x, rfl, hfind, hmask, hwork, hmem⟩

end Sys2Proof.Machine
end

section
/-!
SUPPORT. TOUCHSTONE items (R409–R411): the checks, the borrow of a unit, the end of a test, and DEADLINE.
-/

namespace Sys2Proof.Machine

/-- A field reads as a value that it can hold, whatever the store was, unless the value is its reset. -/
theorem State.getF_setF_stored (s : State) {f : Fld} {v : Nat} (hfits : v < 2 ^ f.width) (hreset : v ≠ f.reset) (i : Nat) :
    (s.setF f i v).getF f i = v := by
  unfold State.getF State.setF Tbl.findD
  dsimp only
  rw [Nat.mod_eq_of_lt hfits, if_neg hreset, Tbl.find_put_same]
  rfl

section
variable {s : State} {i u : Nat} {x : Item} {y : Touch}

/-! ### The checks (R410) -/

/-- What an item asks for, as it waits for its first unit. -/
def Touch.asked (inl now : Nat) : Touch := ⟨bits inl 0 8, bits inl 16 16, now + (allowNs (bits inl 32 32)).getD 0, none, 0xFFFF, 0, 0⟩

section
variable (hx : s.live i 0xB0 = some x)
include hx

theorem execTouchstone_open (hy : s.work.touches.find i = some y) : execTouchstone i s = .next s := by
  unfold execTouchstone
  rw [hx, hy]
  rfl

section
variable (hnone : s.work.touches.find i = none)
include hnone

theorem execTouchstone_badArg (hbad : touchArgBad x.inl = true) : execTouchstone i s = .next (s.finishItem i 7 5 none 0) := by
  unfold execTouchstone
  rw [hx, hnone]
  dsimp only
  rw [if_neg (by decide), if_pos hbad]
  rfl

theorem execTouchstone_unfenced (hok : touchArgBad x.inl = false) (htest : bits x.inl 4 2 ≠ 0) (hblk : s.blkState ≠ 5) :
    execTouchstone i s = .next (s.finishItem i 7 8 none 0) := by
  unfold execTouchstone
  rw [hx, hnone]
  dsimp only
  rw [if_neg (by decide), if_neg (by simp [hok]), if_pos ⟨htest, hblk⟩]
  rfl

theorem execTouchstone_waits (hok : touchArgBad x.inl = false) (hmay : bits x.inl 4 2 = 0 ∨ s.blkState = 5) : execTouchstone i s =
    .next { s with work := { s.work with touches := s.work.touches.put i (Touch.asked x.inl s.now) } } := by
  have hpass : ¬ (bits x.inl 4 2 ≠ 0 ∧ s.blkState ≠ stFenced) := fun h => hmay.elim h.1 h.2
  unfold execTouchstone
  rw [hx, hnone]
  dsimp only
  rw [if_neg (by decide), if_neg (by simp [hok]), if_neg hpass]
  rfl

theorem execTouchstone_unopened : execTouchstoneBorrow i u s = .next s ∧ execTouchstoneDeadline i s = .next s := by
  unfold execTouchstoneBorrow execTouchstoneDeadline
  rw [hx, hnone]
  exact ⟨rfl, rfl⟩

end

/-! ### Borrowing (R411) -/

section
variable (hy : s.work.touches.find i = some y)
include hy

theorem execTouchstoneBorrow_eq (u : Nat) : execTouchstoneBorrow i u s = .next (if u ≤ 160 ∧ s.borrows y u then
    { s with work := { s.work with touches := s.work.touches.put i { y with borrowed := some u } } } else s) := by
  unfold execTouchstoneBorrow
  rw [hx, hy]

theorem execTouchstoneDeadline_eq : execTouchstoneDeadline i s =
    .next (if y.borrowed.isNone ∧ y.left ≠ 0 ∧ y.deadlineAt ≤ s.now then (s.bumpF .TCH_COUNT_DEFERRED 0).finishItem i 13 0 none 0 else s) := by
  unfold execTouchstoneDeadline
  rw [hx, hy]

theorem execTouchstoneTestDone_unit (hu : u < 160) (chk : TestResult) : execTouchstoneTestDone i u chk s = .next (s.touchTest i u chk.failed y) := by
  unfold execTouchstoneTestDone
  rw [hx, hy]
  exact congrArg _ (if_pos (Nat.le_of_lt hu))

end
end

/-! ### The end of a test (R409, Table 17-4) -/

theorem State.touchTest_unborrowed (hu : u < 160) (h : y.borrowed ≠ some u) (failed : Nat) : s.touchTest i u failed y = s :=
  (if_neg (Nat.ne_of_lt hu)).trans (if_neg h)

theorem kindTest_mask_lt (u : Nat) : 2 ^ (kindTest u - 1) < 2 ^ Fld.width .TCH_UNIT_LAST_TESTS := by
  refine Nat.pow_lt_pow_right (by decide) ?_
  unfold kindTest
  split_ifs <;> decide

/-- The state in which an item's last test leaves the unit that it borrowed and TCH_LAST. -/
def State.lastTested (s : State) (u passed failed : Nat) : State :=
  ((((s.clearTested u).noteTest u (2 ^ (kindTest u - 1)) 0).setF .TCH_LAST_PASSED 0 passed).setF .TCH_LAST_FAILED 0 failed).setF .TCH_LAST_UNIT 0 u
    |>.bumpF .TCH_COUNT_RUNS 0

theorem State.touchTest_last (hu : u < 160) (hborrowed : y.borrowed = some u)
    (hlast : ({ y with passed := y.passed ||| 2 ^ (kindTest u - 1) } : Touch).left = 0) : s.touchTest i u 0 y =
      (s.lastTested u (y.passed ||| 2 ^ (kindTest u - 1)) y.failed).finishItem i 0 0 none
        (BitVec.ofNat 64 (u + (y.passed ||| 2 ^ (kindTest u - 1)) * 2 ^ 16 + y.failed * 2 ^ 24)) := by
  refine (if_neg (Nat.ne_of_lt hu)).trans ((if_pos hborrowed).trans ?_)
  simp only [ne_eq, not_true_eq_false, decide_false, Bool.false_eq_true, if_false, Nat.or_zero]
  exact if_neg (not_not_intro hlast)

theorem State.tests_lastTested (s : State) (u passed failed : Nat) :
    (s.lastTested u passed failed).getF .TCH_UNIT_LAST_TESTS u = 2 ^ (kindTest u - 1) := by
  have hother (s : State) {f : Fld} (hf : .TCH_UNIT_LAST_TESTS ≠ f) (j v : Nat) :
      (s.setF f j v).getF .TCH_UNIT_LAST_TESTS u = s.getF .TCH_UNIT_LAST_TESTS u := State.getF_setF_ne s _ _ _ _ _ (fun h => hf h.1)
  unfold State.lastTested State.noteTest State.bumpF
  rw [hother _ (by decide), hother _ (by decide), hother _ (by decide), hother _ (by decide), hother _ (by decide), hother _ (by decide)]
  exact State.getF_setF_stored _ (kindTest_mask_lt u) (Nat.ne_of_gt (Nat.two_pow_pos _)) u

end

/-! ### The statement -/

/-- Settles O59: an item by its operands while none of its tests has begun, then by the unit that it borrows and by DEADLINE. -/
theorem touchstoneItems : Obligations.TouchstoneItems := by
  intro s i u x y chk hx
  refine ⟨fun hnone => ⟨execTouchstone_badArg hx hnone, execTouchstone_unfenced hx hnone, ?waits, execTouchstone_unopened hx hnone⟩,
    fun hy => ⟨execTouchstone_open hx hy, ?borrows, ?idle, ?last, ?unborrowed, ?early, ?deadline⟩⟩
  case waits =>
    exact fun hok hmay => ⟨_, _, execTouchstone_waits hx hnone hok hmay, Tbl.find_put_same _ _ _, rfl, rfl, rfl, rfl, rfl⟩
  case borrows =>
    exact fun hu hborrows => (execTouchstoneBorrow_eq hx hy u).trans (congrArg _ (if_pos ⟨hu, hborrows⟩))
  case idle =>
    exact fun hborrows => (execTouchstoneBorrow_eq hx hy u).trans (congrArg _ (if_neg (by simp [hborrows])))
  case last =>
    intro hu hborrowed hpass hlast
    refine ⟨s.lastTested u (y.passed ||| 2 ^ (kindTest u - 1)) y.failed, ?_, State.tests_lastTested _ _ _ _⟩
    rw [← State.touchTest_last hu hborrowed hlast, ← hpass]
    exact execTouchstoneTestDone_unit hx hy hu chk
  case unborrowed =>
    exact fun hu hborrowed => (execTouchstoneTestDone_unit hx hy hu chk).trans (congrArg _ (State.touchTest_unborrowed hu hborrowed _))
  case early =>
    exact fun hearly => (execTouchstoneDeadline_eq hx hy).trans (congrArg _ (if_neg fun h => Nat.not_le_of_lt hearly h.2.2))
  case deadline =>
    intro hborrowed hleft hdue
    exact (execTouchstoneDeadline_eq hx hy).trans (congrArg _ (if_pos ⟨by rw [hborrowed]; rfl, hleft, hdue⟩))

end Sys2Proof.Machine
end

section
/-!
SUPPORT. Register writes of PF0 of a host port (R414–R418, R421): the path, the refusals, and a write of 4 or of 8 bytes by the register at its
offset.
-/

namespace Sys2Proof.Machine

/-- The state in which an access of a path acts: the half that the path held before is let go (R416). -/
def State.letGo (s : State) (p : Path) : State := { s with edge := { s.edge with splitW := s.edge.splitW.del (pathKey p) } }

section
variable {s : State} {d off : Nat}

theorem State.pathWrite_shut (h : s.edge.pins.porstN = false ∨ s.edge.pins.edgePwrOk = false) (p : Path) (size v : Nat) :
    s.pathWrite p off size v = s := by
  have hdown : s.edgeUp = false := by
    unfold State.edgeUp
    rcases h with h | h <;> simp [h]
  unfold State.pathWrite
  rw [hdown]
  rfl

section
variable (hporst : s.edge.pins.porstN = true) (hedge : s.edge.pins.edgePwrOk = true) (hoff : off < 2 ^ 31)
include hporst hedge hoff

theorem State.pathWrite_hostPf (size v : Nat) : s.pathWrite (.hostPf d) off size v = s.mgmtWrite (.hostPf d) off size v := by
  have hup : s.edgeUp = true := by
    unfold State.edgeUp
    rw [hporst, hedge]
    rfl
  unfold State.pathWrite
  rw [hup]
  dsimp only
  rw [if_neg (by decide), if_pos hoff]

theorem execRegisterWrite_word (v : Word) :
    execRegisterWrite (.hostPf d) off 4 v s = .next (s.mgmtWrite (.hostPf d) off 4 (v.toNat % 2 ^ 32)) :=
  congrArg _ (State.pathWrite_hostPf hporst hedge hoff _ _)

theorem execRegisterWrite_double (v : Word) : execRegisterWrite (.hostPf d) off 8 v s = .next (s.mgmtWrite (.hostPf d) off 8 v.toNat) := by
  unfold execRegisterWrite
  rw [State.pathWrite_hostPf hporst hedge hoff, Nat.mod_eq_of_lt v.isLt]

theorem execSplitWriteHigh_word (w : W32) : execSplitWriteHigh (.hostPf d) off w s = .next (s.mgmtWrite (.hostPf d) off 4 w.toNat) :=
  congrArg _ (State.pathWrite_hostPf hporst hedge hoff _ _)

end

/-! ### The management space (R415–R418) -/

theorem State.mgmtWrite_refused {p : Path} {size k : Nat} (h : (s.letGo p).refusal p off size true = some k) (v : Nat) :
    s.mgmtWrite p off size v = (s.letGo p).refusePath p k := by
  unfold State.letGo at h
  unfold State.mgmtWrite
  dsimp only
  rw [h]
  rfl

/-- An access that its path does not refuse, by its alignment, the alloy and its size. -/
theorem State.mgmtWrite_allowed {p : Path} {size : Nat} (h : (s.letGo p).refusal p off size true = none) (v : Nat) : s.mgmtWrite p off size v =
    if !sizeOk p off size then (s.letGo p).countAccess off
    else if (s.letGo p).toSecondary off then (s.letGo p).emit (.secondWrite off size v)
    else if size = 8 then (s.letGo p).write8 p off v
    else (s.letGo p).write4 p (s.edge.splitW.find (pathKey p)) off v := by
  unfold State.letGo at h
  unfold State.mgmtWrite
  dsimp only
  rw [h]
  rfl

theorem sizeOk_four (p : Path) (off : Nat) : sizeOk p off 4 = (off % 4 == 0) := by simp [sizeOk]

theorem State.mgmtWrite_misaligned {p : Path} (h : (s.letGo p).refusal p off 4 true = none) (halign : off % 4 ≠ 0) (v : Nat) :
    s.mgmtWrite p off 4 v = (s.letGo p).countAccess off := by
  rw [State.mgmtWrite_allowed h, sizeOk_four, if_pos (by simp [halign])]

theorem State.mgmtWrite_secondary {p : Path} (h : (s.letGo p).refusal p off 4 true = none) (halign : off % 4 = 0)
    (hsecond : (s.letGo p).toSecondary off = true) (v : Nat) : s.mgmtWrite p off 4 v = (s.letGo p).emit (.secondWrite off 4 v) := by
  rw [State.mgmtWrite_allowed h, sizeOk_four, if_neg (by simp [halign]), if_pos hsecond]

theorem State.mgmtWrite_four {p : Path} (h : (s.letGo p).refusal p off 4 true = none) (halign : off % 4 = 0)
    (hsecond : (s.letGo p).toSecondary off = false) (v : Nat) :
    s.mgmtWrite p off 4 v = (s.letGo p).write4 p (s.edge.splitW.find (pathKey p)) off v := by
  rw [State.mgmtWrite_allowed h, sizeOk_four, if_neg (by simp [halign]), if_neg (by simp [hsecond]), if_neg (by decide)]

theorem State.mgmtWrite_eight (h : (s.letGo (.hostPf d)).refusal (.hostPf d) off 8 true = none) (halign : off % 8 = 0)
    (hsecond : (s.letGo (.hostPf d)).toSecondary off = false) (v : Nat) :
    s.mgmtWrite (.hostPf d) off 8 v = (s.letGo (.hostPf d)).write8 (.hostPf d) off v := by
  have hsize : sizeOk (.hostPf d) off 8 = true := by simp [sizeOk, halign]
  rw [State.mgmtWrite_allowed h, hsize, if_neg (by decide), if_neg (by simp [hsecond]), if_pos rfl]

/-! ### The register at an offset (R415, R416) -/

section
variable {p : Path} {held : Option Split} (hmbx : mbxWindow off = false)
include hmbx

section
variable (hlog : logWindow off = false)
include hlog

theorem State.write4_unlisted (hreg : regAt off = none) (v : Nat) : s.write4 p held off v = s.countAccess off := by
  unfold State.write4
  rw [hmbx, hlog, hreg]
  rfl

variable {r : RegDesc} {i b : Nat} (hreg : regAt off = some (r, i, b))
include hreg

theorem State.write4_listed (v : Nat) : s.write4 p held off v =
    if r.bits ≠ 64 then s.writeReg r i v
    else if b = 0 then s.holdLow p off v
    else match held with
      | some h => s.writeReg r i ((if h.offset + 4 = off then h.value else s.lowKept r i) + v * 2 ^ 32)
      | none => s.writeReg r i (s.lowKept r i + v * 2 ^ 32) := by
  unfold State.write4
  rw [hmbx, hlog, hreg]
  rfl

theorem State.write4_short (hbits : r.bits ≠ 64) (v : Nat) : s.write4 p held off v = s.writeReg r i v :=
  (State.write4_listed hmbx hlog hreg v).trans (if_pos hbits)

theorem State.write4_low (hbits : r.bits = 64) (hb : b = 0) (v : Nat) : s.write4 p held off v = s.holdLow p off v := by
  rw [State.write4_listed hmbx hlog hreg, if_neg (not_not_intro hbits), if_pos hb]

theorem State.write4_high (hbits : r.bits = 64) (hb : b ≠ 0) (v : Nat) : s.write4 p held off v =
    match held with
    | some h => s.writeReg r i ((if h.offset + 4 = off then h.value else s.lowKept r i) + v * 2 ^ 32)
    | none => s.writeReg r i (s.lowKept r i + v * 2 ^ 32) := by
  rw [State.write4_listed hmbx hlog hreg, if_neg (not_not_intro hbits), if_neg hb]

end

theorem State.write8_whole {r : RegDesc} {i : Nat} (hreg : regAt off = some (r, i, 0)) (hbits : r.bits = 64) (v : Nat) :
    s.write8 p off v = s.writeReg r i v := by
  unfold State.write8
  rw [hmbx, hreg]
  exact if_pos hbits

end
end

/-! ### The statement -/

/-- Settles O60: by the path, the refusal, the alignment, the alloy, and the register at the offset with the half that is held. -/
theorem registerWrites : Obligations.RegisterWrites := by
  intro s d off v w hoff p u
  refine ⟨fun hshut => ⟨congrArg _ (State.pathWrite_shut hshut _ _ _), congrArg _ (State.pathWrite_shut hshut _ _ _)⟩,
    fun hporst hedge => ?_⟩
  have hword := execRegisterWrite_word (d := d) hporst hedge hoff v
  have hhigh := execSplitWriteHigh_word (d := d) hporst hedge hoff w
  refine ⟨fun k hrefused => ⟨hword.trans (congrArg _ (State.mgmtWrite_refused hrefused _)), hhigh.trans (congrArg _ (State.mgmtWrite_refused hrefused _))⟩,
    fun hfour height => ⟨?misaligned, ?secondary, fun halign hsecond hmbx hlog => ?register⟩⟩
  case misaligned =>
    exact fun halign => hword.trans (congrArg _ (State.mgmtWrite_misaligned hfour halign _))
  case secondary =>
    exact fun halign hsecond => hword.trans (congrArg _ (State.mgmtWrite_secondary hfour halign hsecond _))
  case register =>
    rw [State.mgmtWrite_four hfour halign hsecond] at hword hhigh
    refine ⟨fun hnone => hword.trans (congrArg _ (State.write4_unlisted hmbx hlog hnone _)), fun r i b hreg => ⟨?short, ?low, ?whole, ?high⟩⟩
    case short =>
      exact fun hbits => hword.trans (congrArg _ (State.write4_short hmbx hlog hreg hbits _))
    case low =>
      exact fun hbits hb => hword.trans (congrArg _ (State.write4_low hmbx hlog hreg hbits hb _))
    case whole =>
      rintro hbits rfl halign8
      refine (execRegisterWrite_double hporst hedge hoff v).trans (congrArg _ ?_)
      exact (State.mgmtWrite_eight height halign8 hsecond _).trans (State.write8_whole hmbx hreg hbits _)
    case high =>
      intro hbits hb
      rw [State.write4_high hmbx hlog hreg hbits hb] at hhigh
      refine ⟨fun hnone => ?_, fun h hheld => ?_⟩
      · rw [hnone] at hhigh
        exact hhigh
      · rw [hheld] at hhigh
        refine ⟨fun hnext => ?_, fun hother => ?_⟩
        · dsimp only at hhigh
          rwa [if_pos hnext] at hhigh
        · dsimp only at hhigh
          rwa [if_neg hother] at hhigh

end Sys2Proof.Machine
end

section
/-!
SUPPORT. Register fields that an operation leaves: the relation of two states that agree on a list of fields, and the operations that many
commands share.
-/

namespace Sys2Proof.Machine

/-- `t` shows what `s` shows in every field of `l`, and a register store that was in order is in order. -/
structure State.Keeps (l : List Fld) (s t : State) : Prop where
  rising : s.regs.rising = true → t.regs.rising = true
  getF : ∀ f, f ∈ l → ∀ i, t.getF f i = s.getF f i

section
variable {l : List Fld}

theorem State.Keeps.refl (s : State) : s.Keeps l s := ⟨id, fun _ _ _ => rfl⟩

theorem State.Keeps.trans {s t u : State} (h : s.Keeps l t) (k : t.Keeps l u) : s.Keeps l u :=
  ⟨k.rising ∘ h.rising, fun f hf i => (k.getF f hf i).trans (h.getF f hf i)⟩

theorem State.Keeps.of_regs {s t : State} (h : t.regs = s.regs) : s.Keeps l t :=
  ⟨fun hr => by rw [h]; exact hr, fun f _ i => by unfold State.getF; rw [h]⟩

theorem State.Keeps.bitF {s t : State} (h : s.Keeps l t) {f : Fld} (hf : f ∈ l) (i : Nat) : t.bitF f i = s.bitF f i := by
  unfold State.bitF
  rw [h.getF f hf i]

theorem State.keeps_setF (s : State) {f : Fld} (hf : f ∉ l) (i v : Nat) : s.Keeps l (s.setF f i v) :=
  ⟨fun hr => State.rising_setF hr f i v, fun g hg j => State.getF_setF_ne s f g i j v fun e => hf (e.1 ▸ hg)⟩

theorem State.keeps_bumpF (s : State) {f : Fld} (hf : f ∉ l) (i n : Nat) : s.Keeps l (s.bumpF f i n) := s.keeps_setF hf i _

theorem State.keeps_setBit (s : State) {f : Fld} (hf : f ∉ l) (i b : Nat) (x : Bool) : s.Keeps l (s.setBit f i b x) := s.keeps_setF hf i _

theorem State.keeps_each {α : Type} {g : State → α → State} (hg : ∀ (s : State) a, s.Keeps l (g s a)) (as : List α) (s : State) :
    s.Keeps l (s.each as g) := by
  induction as generalizing s with
  | nil => exact .refl s
  | cons a as ih => exact (hg s a).trans (ih (g s a))

theorem State.keeps_ite {p : Prop} [Decidable p] {s t u : State} (ht : p → s.Keeps l t) (hu : ¬ p → s.Keeps l u) : s.Keeps l (if p then t else u) := by
  split
  · exact ht ‹_›
  · exact hu ‹_›

section
variable (hnotice : ∀ f ∈ l, f ∉ noticeFields)
include hnotice

theorem State.Notifies.keeps {s t : State} (h : s.Notifies t) : s.Keeps l t := ⟨h.rising, fun f hf i => h.getF f (hnotice f hf) i⟩

theorem State.keeps_fault (s : State) (r : FaultRec) : s.Keeps l (s.fault r) :=
  .trans (.of_regs (show (s.withRecord r).regs = s.regs from rfl)) ((s.notifies_fault r).keeps hnotice)

theorem State.keeps_setBlkState (hblk : .BLK_STATE_STATE ∉ l) (s : State) (v : Nat) : s.Keeps l (s.setBlkState v) := by
  unfold State.setBlkState
  split
  · exact .refl s
  · exact (s.keeps_setF hblk 0 v).trans ((State.notifies_managerCause _ 3).keeps hnotice)

end
end

/-! ### The block state (R401) -/

theorem State.blkState_setBlkState {s : State} (hr : s.regs.rising = true) {v : Nat} (hv : v < 8) : (s.setBlkState v).blkState = v := by
  unfold State.setBlkState
  split
  · assumption
  · unfold State.blkState
    rw [(State.notifies_managerCause _ 3).getF _ (by decide), State.getF_setF_same hr]
    exact Nat.mod_eq_of_lt hv

/-- A change of the block state is that field and notices. -/
theorem State.setBlkState_rest (s : State) (v : Nat) :
    s.setBlkState v = { s with regs := (s.setBlkState v).regs, fil := (s.setBlkState v).fil, mbx := (s.setBlkState v).mbx, out := (s.setBlkState v).out } := by
  have h : ∀ t : State, t = s ∨ (s.setF .BLK_STATE_STATE 0 v).Notifies t → t = { s with regs := t.regs, fil := t.fil, mbx := t.mbx, out := t.out } := by
    rintro t (rfl | h)
    · rfl
    · rw [h.rest]
      rfl
  refine h _ ?_
  unfold State.setBlkState
  split
  · exact .inl rfl
  · exact .inr (State.notifies_managerCause _ 3)

/-! ### Bits of a field -/

/-- Adding a power of two sets a bit that is clear and carries no further. -/
theorem testBit_add_clear {v b : Nat} (hclear : v.testBit b = false) (c : Nat) : (v + 2 ^ b).testBit c = if c = b then true else v.testBit c := by
  rcases Nat.lt_trichotomy c b with hc | rfl | hc
  · rw [if_neg (Nat.ne_of_lt hc), Nat.add_comm, Nat.testBit_two_pow_add_gt hc]
  · rw [if_pos rfl, Nat.add_comm, Nat.testBit_two_pow_add_eq, hclear]
    rfl
  · have heven : v / 2 ^ b % 2 ≠ 1 := by simpa [Nat.testBit_eq_decide_div_mod_eq] using hclear
    have hsame : (v + 2 ^ b) / 2 ^ (b + 1) = v / 2 ^ (b + 1) := by
      rw [Nat.pow_succ, ← Nat.div_div_eq_div_mul, ← Nat.div_div_eq_div_mul, Nat.add_div_right v (Nat.two_pow_pos b)]
      omega
    obtain ⟨k, rfl⟩ := Nat.exists_eq_add_of_le hc
    rw [if_neg (by omega), Nat.add_comm (b.succ) k, ← Nat.testBit_div_two_pow, ← Nat.testBit_div_two_pow]
    exact congrArg (·.testBit k) hsame

theorem testBit_putBit (v b c : Nat) (x : Bool) : (putBit v b x).testBit c = if c = b then x else v.testBit c := by
  unfold putBit
  by_cases hx : v.testBit b = x
  · rw [if_pos hx]
    split
    · rename_i hc
      rw [hc, hx]
    · rfl
  · rw [if_neg hx]
    cases x with
    | true => exact testBit_add_clear (by simpa using hx) c
    | false =>
      have hset : v.testBit b = true := by simpa using hx
      have hback : v - 2 ^ b + 2 ^ b = v := Nat.sub_add_cancel (Nat.ge_two_pow_of_testBit hset)
      have hclear : (v - 2 ^ b).testBit b = false := by
        have hflip := Nat.testBit_two_pow_add_eq (v - 2 ^ b) b
        rw [Nat.add_comm, hback, hset] at hflip
        simpa using hflip.symm
      have hbits := testBit_add_clear hclear c
      rw [hback] at hbits
      rw [if_neg (by decide), hbits]
      split
      · rename_i hc
        rw [hc, hclear]
      · rfl

/-- A bit inside a field's width reads as it was put. -/
theorem State.bitOf_setBit {s : State} (hr : s.regs.rising = true) {f : Fld} {b : Nat} (hb : b < f.width) (i : Nat) (x : Bool) :
    (s.setBit f i b x).bitOf f i b = x := by
  unfold State.bitOf State.setBit
  rw [State.getF_setF_same hr, Nat.testBit_mod_two_pow, decide_eq_true hb, Bool.true_and, testBit_putBit, if_pos rfl]

end Sys2Proof.Machine
end

section
/-!
SUPPORT. Cold reset and power (R54, R56, R328, R364, R402): what a cold reset leaves, PORST_N rising, and the core leaving reset.
-/

namespace Sys2Proof.Machine

/-! ### Sending for each of a list -/

theorem State.each_emit_rest {α : Type} (l : List α) (o : α → Out) (s : State) :
    s.each l (fun s a => s.emit (o a)) = { s with out := (s.each l (fun s a => s.emit (o a))).out } := by
  induction l generalizing s with
  | nil => rfl
  | cons a l ih => exact ih (s.emit (o a))

/-! ### The cold reset (R54, R364) -/

/-- Before its state is that of reset, a cold reset only sends. -/
def State.coldSent (s : State) : State :=
  let s := if s.coreOn then s.each (List.range s.nStacks) (fun s st => s.emit (.selfRefresh st)) else s
  s.each s.edge.ia (fun s kv => s.emit (.iaPower (kv.1 / 4) (kv.1 % 4) 2))

theorem State.coldSent_rest (s : State) : s.coldSent = { s with out := s.coldSent.out } := by
  unfold State.coldSent
  extract_lets t
  have ht : t = { s with out := t.out } := by
    unfold t
    split
    · exact State.each_emit_rest ..
    · rfl
  rw [State.each_emit_rest, ht]

/-- The pins after a cold reset: those of the supplies and of the host's side stand. -/
def State.coldPins (s : State) (porstN edgePwrOk : Bool) : Pins :=
  { Edge.reset.pins with
    porstN := porstN, edgePwrOk := edgePwrOk, corePwrOk := s.edge.pins.corePwrOk, wrstN := s.edge.pins.wrstN, vidAck := s.edge.pins.vidAck }

theorem State.coldReset_eq (s : State) (porstN edgePwrOk : Bool) : s.coldReset porstN edgePwrOk = State.fillSlotZero { State.reset with
    edge := { Edge.reset with pins := s.coldPins porstN edgePwrOk, build := s.edge.build, porAt := s.now }
    slices := { State.reset.slices with drbg := s.slices.drbg, seeds := s.slices.seeds }
    work := { State.reset.work with nextItem := s.work.nextItem, nextOp := s.work.nextOp }
    out := s.coldSent.out, now := s.now, free := s.free, pending := s.pending } := by
  have h : s.coldReset porstN edgePwrOk = State.fillSlotZero { State.reset with
      edge := { Edge.reset with pins := s.coldSent.coldPins porstN edgePwrOk, build := s.coldSent.edge.build, porAt := s.coldSent.now }
      slices := { State.reset.slices with drbg := s.coldSent.slices.drbg, seeds := s.coldSent.slices.seeds }
      work := { State.reset.work with nextItem := s.coldSent.work.nextItem, nextOp := s.coldSent.work.nextOp }
      out := s.coldSent.out, now := s.coldSent.now, free := s.coldSent.free, pending := s.coldSent.pending } := rfl
  rw [h, s.coldSent_rest]
  rfl

theorem execCold_eq {s : State} {i : Instr} (h : i = .porstNLow ∨ (i = .edgePwrOkFall ∧ s.edge.pins.porstN = true)) :
    ∃ up, exec i s = .next (s.coldReset (decide (i = .edgePwrOkFall)) up) := by
  rcases h with rfl | ⟨rfl, hporst⟩
  · exact ⟨s.edge.pins.edgePwrOk, rfl⟩
  · exact ⟨false, congrArg Host.Outcome.next (if_pos hporst)⟩

/-! ### PORST_N rising (R56) -/

theorem modulesOf_find (dies n : Nat) (hn : n < 4 * dies) : Tbl.find (modulesOf dies) n = some ⟨.training, .l0⟩ := by
  have h : ∀ l : List Nat, n ∈ l → Tbl.find (l.map (fun k => (k, (⟨.training, .l0⟩ : IaModule)))) n = some ⟨.training, .l0⟩ := by
    intro l hl
    induction l with
    | nil => cases hl
    | cons k l ih =>
      show (if n = k then _ else _) = _
      split
      · rfl
      · rename_i hk
        exact ih ((List.mem_cons.1 hl).resolve_left hk)
  exact h _ (List.mem_range.2 hn)

/-- The edge as PORST_N rises: powered, the straps and the build sampled, every module in training. -/
def State.edgeRisen (s : State) (x : Straps) (b : Build) : State :=
  { s with edge := { s.edge with
    pins := { s.edge.pins with porstN := true, edgePwrOk := true }, straps := x, build := b, porAt := s.now, ia := modulesOf b.dies } }

theorem execPorstNRise_low {s : State} (hlow : s.edge.pins.porstN = false) {x : Straps} (hsrc : x.mgtSrc ≠ 1) (b : Build) :
    execPorstNRise x b s = .next ((s.edgeRisen x b).setBlkState 1) := by
  unfold execPorstNRise
  rw [if_neg (fun h => by rw [hlow] at h; cases h.1)]
  exact congrArg Host.Outcome.next (if_neg hsrc)

/-! ### The core leaves reset (R402) -/

/-- The state in which the start stages begin, before the telemetry record that the edge kept is used. -/
def State.stagesBegun (s : State) : State :=
  let s := s.setF .BLK_STAGE_DONE 0 0
  let s := (s.setF .BLK_IMG_CTRL_VALID 0 0).setF .BLK_IMG_CTRL_BUSY 0 0
  let s := ((s.setF .BLK_IMG_VER_MAJOR 0 0).setF .BLK_IMG_VER_MINOR 0 0).setF .BLK_IMG_VER_PATCH 0 0
  { s with
    edge := { s.edge with coreOut := true }
    recov := { s.recov with
      stages := [], image := none, warm := s.recov.warm.map (fun (w : WarmReset) => { w with step := .starting }) } }

theorem execCoreLeavesReset_starts {s : State} (hout : s.edge.coreOut = false) (hporst : s.edge.pins.porstN = true)
    (hcore : s.edge.pins.corePwrOk = true) (hedge : s.edge.pins.edgePwrOk = true) (hwarm : s.recov.warm = none) (hdump : s.recov.dump = none) :
    execCoreLeavesReset s = .next (match s.edge.tlm with | some r => s.stagesBegun.useTlm s.stagesBegun.stackTempsNow r | none => s.stagesBegun) := by
  unfold execCoreLeavesReset
  simp only [hdump, hwarm, hout, hporst, hcore, hedge, Option.isSome_none, Bool.false_eq_true, if_false, Bool.not_true, Bool.and_self, Bool.or_self]
  rfl

theorem State.getF_stagesBegun {s : State} (hr : s.regs.rising = true) :
    s.stagesBegun.getF .BLK_STAGE_DONE 0 = 0 ∧ s.stagesBegun.getF .BLK_IMG_CTRL_VALID 0 = 0 := by
  let t := (s.setF .BLK_STAGE_DONE 0 0).setF .BLK_IMG_CTRL_VALID 0 0
  have hlater : t.Keeps [.BLK_STAGE_DONE, .BLK_IMG_CTRL_VALID] s.stagesBegun := by
    refine .trans (t.keeps_setF (f := .BLK_IMG_CTRL_BUSY) (by decide) 0 0) ?_
    refine .trans (State.keeps_setF _ (f := .BLK_IMG_VER_MAJOR) (by decide) 0 0) ?_
    refine .trans (State.keeps_setF _ (f := .BLK_IMG_VER_MINOR) (by decide) 0 0) ?_
    exact .trans (State.keeps_setF _ (f := .BLK_IMG_VER_PATCH) (by decide) 0 0) (.of_regs rfl)
  rw [hlater.getF _ (by decide), hlater.getF _ (by decide), State.getF_setF_ne _ _ _ _ _ _ (by decide), State.getF_setF_same hr,
    State.getF_setF_same (State.rising_setF hr _ _ _)]
  exact ⟨rfl, rfl⟩

/-! ### The core's supply (R54, R381) -/

theorem execCorePwrOkRise_unheld {s : State} (hwarm : s.recov.warm = none) (hheld : s.recov.warmHeld = none) : execCorePwrOkRise s =
    .next { s with edge := { s.edge with pins := { s.edge.pins with corePwrOk := true } } } := by
  unfold execCorePwrOkRise State.warmRelease
  rw [hwarm, hheld]
  exact congrArg _ (ite_self _)

/-! ### The statement -/

/-- Settles O20: a cold reset is the state of reset beside what the model keeps outside it; each other pin event by the state that it meets. -/
theorem powerAndColdReset : Obligations.PowerAndColdReset := by
  refine ⟨fun s i hi => ?cold, fun s x b hr => ⟨fun hlow hsrc => ?risen, fun hout hporst hcore hedge hwarm hdump => ?leaves, ?fall,
    fun hwarm hheld => ⟨_, execCorePwrOkRise_unheld hwarm hheld, rfl, rfl, rfl, rfl⟩, fun ns hns => congrArg _ (if_neg (Nat.not_le_of_lt hns))⟩⟩
  case cold =>
    obtain ⟨up, hexec⟩ := execCold_eq hi
    rw [State.coldReset_eq] at hexec
    exact ⟨_, hexec, rfl, rfl, rfl, rfl, rfl, rfl, rfl, rfl, rfl, rfl, rfl, rfl, rfl, rfl, rfl, rfl, rfl, rfl, rfl, rfl, rfl, rfl, rfl, rfl⟩
  case risen =>
    have hrest := (s.edgeRisen x b).setBlkState_rest 1
    refine ⟨_, execPorstNRise_low hlow hsrc b, ?_, ?_, ?_, ?_, State.blkState_setBlkState (s := s.edgeRisen x b) hr (by decide), fun d m hd hm => ?_, ?_, ?_⟩
    case refine_5 =>
      rw [hrest]
      exact modulesOf_find b.dies _ (by omega)
    all_goals rw [hrest]; rfl
  case leaves =>
    obtain ⟨hdone, hvalid⟩ := State.getF_stagesBegun hr
    exact ⟨s.stagesBegun, rfl, rfl, rfl, hdone, hvalid, rfl, rfl, execCoreLeavesReset_starts hout hporst hcore hedge hwarm hdump⟩
  case fall => exact ⟨_, rfl, Bool.and_false _, rfl, rfl, rfl, rfl⟩

end Sys2Proof.Machine
end

section
/-!
SUPPORT. Core warm resets (R393–R395, Table 16-8): what a trigger leaves, and what stands in the block state while the reset runs.
-/

namespace Sys2Proof.Machine

/-! ### Messages to the peers -/

theorem State.notifies_send (s : State) (m : Msg) : s.Notifies (s.send m) := by
  unfold State.send
  cases h : s.send? 0xFFF m with
  | none => exact .refl s
  | some t => exact State.notifies_send? h

theorem State.notifies_tellPeers (s : State) (k : MsgKind) : s.Notifies (s.tellPeers k) :=
  State.notifies_each (fun s _ => s.notifies_send _) _ s

/-! ### A running warm reset -/

/-- The fields that show a running warm reset. -/
def warmFields : List Fld := [.BLK_CAUSE, .BLK_STATE_READY, .BLK_STATE_STATE]

/-- A warm reset of a cause runs, and no item is left of what it met (R394, R395). -/
structure State.Recovering (cause : Nat) (s : State) : Prop where
  cause_eq : s.getF .BLK_CAUSE 0 = cause
  ready : s.getF .BLK_STATE_READY 0 = 0
  blk : s.blkState = 4
  items : s.work.items = []
  ops : s.work.ops = []
  warm : s.recov.warm.isSome = true

section
variable {s t : State} {cause : Nat}

theorem State.Recovering.keep (h : s.Recovering cause) (hkeep : s.Keeps warmFields t) (hitems : t.work.items = []) (hops : t.work.ops = [])
    (hwarm : t.recov.warm.isSome = true) : t.Recovering cause where
  cause_eq := (hkeep.getF _ (by decide) 0).trans h.cause_eq
  ready := (hkeep.getF _ (by decide) 0).trans h.ready
  blk := (hkeep.getF _ (by decide) 0).trans h.blk
  items := hitems
  ops := hops
  warm := hwarm

theorem State.Recovering.notifies (h : s.Recovering cause) (hn : s.Notifies t) : t.Recovering cause := by
  refine h.keep (hn.keeps (by decide)) ?_ ?_ ?_
  all_goals rw [hn.rest]
  exacts [h.items, h.ops, h.warm]

/-! ### The core goes down (steps 5 and 6 of Table 16-8) -/

theorem State.keeps_dropFields {l : List Fld} (hkept : ∀ f ∈ l, ∀ i, warmKeeps (fkey f i) = true) (hr : s.regs.rising = true)
    (hregs : t.regs = s.regs.keep (fun k _ => warmKeeps k)) : s.Keeps l t where
  rising _ := hregs ▸ Tbl.rising_keep hr _
  getF f hf i := by
    unfold State.getF Tbl.findD
    rw [hregs, Tbl.find_keep hr, hkept f hf i]
    cases s.regs.find (fkey f i) <;> rfl

theorem warmKeeps_warmFields : ∀ f ∈ warmFields, ∀ i, warmKeeps (fkey f i) = true := by
  have hfield : ∀ f ∈ warmFields, fldOf (fkey f 0) = some f ∧ f.warm = .keep := by decide +kernel
  intro f hf i
  have hsame : fldOf (fkey f i) = fldOf (fkey f 0) := by
    unfold fldOf
    rw [fkey_mod, fkey_mod]
  unfold warmKeeps
  rw [hsame, (hfield f hf).1]
  dsimp only
  rw [(hfield f hf).2]

theorem State.keeps_mbxClear {l : List Fld} (hlost : .MBX_STAT_LOST ∉ l) (s : State) (ch : Nat) : s.Keeps l (s.mbxClear ch) :=
  .trans (.of_regs (show ((s.setMbxDir ch false MbxDir.fresh).setMbxDir ch true MbxDir.fresh).regs = s.regs from rfl)) (State.keeps_bumpF _ hlost ch _)

theorem State.keeps_showZeroised {l : List Fld} (hslot : ∀ f ∈ [Fld.SLC_STATE_KEY, .SLC_STATE_KEYST, .SLC_STATE_ZEROISED], f ∉ l) (s : State) (p : Nat × Nat) :
    s.Keeps l (s.showZeroised p) :=
  .trans (.trans (s.keeps_setF (hslot _ (by decide)) _ _) (State.keeps_setF _ (hslot _ (by decide)) _ _)) (State.keeps_setF _ (hslot _ (by decide)) _ _)

/-- What selects the stacks' self-refresh as the core goes down. -/
def State.refreshed (s : State) (st : Nat) : State :=
  (if s.getF .MEM_STK_STAT_STATE st = 1 ∨ s.getF .MEM_STK_STAT_STATE st = 2 then s.setF .MEM_STK_STAT_STATE st 3 else s).emit (.selfRefresh st)

theorem State.keeps_refreshed {l : List Fld} (hstate : .MEM_STK_STAT_STATE ∉ l) (s : State) (st : Nat) : s.Keeps l (s.refreshed st) := by
  unfold State.refreshed
  split
  · exact .trans (s.keeps_setF hstate st 3) (.of_regs rfl)
  · exact .of_regs rfl

theorem State.recov_refreshed (s : State) (st : Nat) : (s.refreshed st).recov = s.recov := by
  unfold State.refreshed
  split <;> rfl

theorem State.Recovering.coreDown (h : s.Recovering cause) (hr : s.regs.rising = true) : s.coreDown.Recovering cause := by
  unfold State.coreDown
  extract_lets s1 again s2 s3 q0 slots _ _ _ _ _ _ _ _ s4
  have hkeep1 : s.Keeps warmFields s1 := State.keeps_each (State.keeps_refreshed (by decide)) _ s
  have hrecov1 : s1.recov = s.recov := State.each_keeps (P := fun t => t.recov = s.recov) (fun t st ht => (t.recov_refreshed st).trans ht) _ rfl
  have hkeep2 : s1.Keeps warmFields s2 := .of_regs rfl
  have hrecov2 : s2.recov = s.recov := hrecov1
  have hkeep3 : s2.Keeps warmFields s3 := State.keeps_each (State.keeps_mbxClear (by decide)) _ s2
  have hrecov3 : s3.recov = s.recov :=
    State.each_keeps (P := fun t => t.recov = s.recov) (fun t ch (ht : t.recov = s.recov) => show (t.mbxClear ch).recov = s.recov from ht) _ hrecov2
  have hkeep : s.Keeps warmFields s3 := hkeep1.trans (hkeep2.trans hkeep3)
  have hlost : s4.work.items = [] ∧ s4.work.ops = [] ∧ s4.recov.warm.isSome = true := by
    refine ⟨rfl, rfl, ?_⟩
    show (s3.recov.warm.map _).isSome = true
    rw [hrecov3, Option.isSome_map]
    exact h.warm
  have hkeep4 : s3.Keeps warmFields s4 := State.keeps_dropFields warmKeeps_warmFields (hkeep.rising hr) rfl
  clear_value s4 s3
  have hshown := State.keeps_each (State.keeps_showZeroised (l := warmFields) (by decide)) slots s4
  have hwork : (s4.each slots State.showZeroised).work = s4.work ∧ (s4.each slots State.showZeroised).recov = s4.recov :=
    State.each_keeps (P := fun t => t.work = s4.work ∧ t.recov = s4.recov)
      (fun t p (ht : t.work = s4.work ∧ t.recov = s4.recov) => show (t.showZeroised p).work = s4.work ∧ _ from ht) slots ⟨rfl, rfl⟩
  refine h.keep (hkeep.trans (hkeep4.trans hshown)) ?_ ?_ ?_
  · rw [hwork.1, hlost.1]
  · rw [hwork.1, hlost.2.1]
  · rw [hwork.2, hlost.2.2]

theorem State.Recovering.warmGoOn (h : s.Recovering cause) (hr : s.regs.rising = true) : s.warmGoOn.Recovering cause := by
  unfold State.warmGoOn
  split
  · refine h.keep (.of_regs rfl) h.items h.ops ?_
    show (s.recov.warm.map _).isSome = true
    rw [Option.isSome_map]
    exact h.warm
  · exact h.coreDown hr

/-! ### Steps 1 to 4 (R394) -/

theorem State.keeps_absorbReset {l : List Fld} (htotal : .FLT_RST_TOTAL ∉ l) (s : State) (u : Nat) : s.Keeps l (s.absorbReset u) := by
  unfold State.absorbReset
  split
  · extract_lets _ s1
    exact .trans (.of_regs (show s1.regs = s.regs from rfl)) (State.keeps_setF _ htotal u _)
  · exact .refl s

theorem State.keeps_voidAll {l : List Fld} (htotal : .FLT_RST_TOTAL ∉ l) (hvoided : .PRM_VOIDED_COUNT ∉ l) (s : State) : s.Keeps l s.voidAll :=
  .trans (State.keeps_each (State.keeps_absorbReset htotal) _ s) (.trans (State.keeps_setF _ hvoided 1 _) (.of_regs rfl))

theorem State.beginWarm_recovering (hr : s.regs.rising = true) (hdump : s.bitF .FLT_DUMP_CTRL_EN 0 = false) (hcause : cause < 2 ^ 8) (aux : Nat) :
    (s.beginWarm cause aux).Recovering cause := by
  unfold State.beginWarm
  extract_lets times n excess fence ref _ s1 s2 _ s3 s4 s5 s6 want _ s7 s8
  have hkeep1 : s.Keeps [.FLT_DUMP_CTRL_EN] s1 := .of_regs rfl
  have hkeep2 : s1.Keeps [.FLT_DUMP_CTRL_EN] s2 := s1.keeps_fault (by decide) _
  have hkeep3 : s2.Keeps [.FLT_DUMP_CTRL_EN] s3 := State.keeps_ite (fun _ => s2.keeps_fault (by decide) _) (fun _ => .refl s2)
  have hkeep4 : s3.Keeps [.FLT_DUMP_CTRL_EN] s4 := .trans (s3.keeps_setF (by decide) _ _) (State.keeps_setF _ (by decide) _ _)
  have hr3 : s3.regs.rising = true := (hkeep1.trans (hkeep2.trans hkeep3)).rising hr
  have hcause4 : s4.getF .BLK_CAUSE 0 = cause := by
    show ((s3.setF .BLK_CAUSE 0 cause).setF .BLK_CAUSE_REF_INDEX 0 ref).getF .BLK_CAUSE 0 = cause
    rw [State.getF_setF_ne _ _ _ _ _ _ (by decide), State.getF_setF_same hr3]
    exact Nat.mod_eq_of_lt hcause
  have hr4 : s4.regs.rising = true := hkeep4.rising hr3
  have hkeep5 : s4.Keeps [.FLT_DUMP_CTRL_EN, .BLK_CAUSE] s5 :=
    .trans (.trans (s4.keeps_bumpF (by decide) _ _) (State.keeps_bumpF _ (by decide) _ _)) (State.keeps_setF _ (by decide) _ _)
  have hready5 : s5.getF .BLK_STATE_READY 0 = 0 := State.getF_setF_same (State.rising_setF (State.rising_setF hr4 _ _ _) _ _ _) _ _ _
  have hr5 : s5.regs.rising = true := hkeep5.rising hr4
  have hkeep6 : s5.Keeps [.FLT_DUMP_CTRL_EN, .BLK_CAUSE, .BLK_STATE_READY] s6 :=
    .trans (.trans (s5.keeps_setF (by decide) 0 0) (State.keeps_setBlkState (by decide) (by decide) _ _)) (State.keeps_voidAll (by decide) (by decide) _)
  have hblk6 : s6.blkState = 4 := by
    refine ((State.keeps_voidAll (l := [.BLK_STATE_STATE]) (by decide) (by decide) ((s5.setF .BLK_STAGE_DONE 0 0).setBlkState 4)).getF _ (by decide) 0).trans ?_
    exact State.blkState_setBlkState (State.rising_setF hr5 _ _ _) (by decide)
  have hdump6 : s6.bitF .FLT_DUMP_CTRL_EN 0 = false := by
    rw [hkeep6.bitF (by decide), hkeep5.bitF (by decide), hkeep4.bitF (by decide), hkeep3.bitF (by decide), hkeep2.bitF (by decide),
      hkeep1.bitF (by decide), hdump]
  have hwant : want = false := by
    show (_ && s6.bitF .FLT_DUMP_CTRL_EN 0) = false
    rw [hdump6, Bool.and_false]
  have hwork6 : s6.work.items = [] ∧ s6.work.ops = [] := ⟨rfl, rfl⟩
  have hcause6 : s6.getF .BLK_CAUSE 0 = cause := (hkeep6.getF .BLK_CAUSE (by decide) 0).trans ((hkeep5.getF .BLK_CAUSE (by decide) 0).trans hcause4)
  have hready6 : s6.getF .BLK_STATE_READY 0 = 0 := (hkeep6.getF .BLK_STATE_READY (by decide) 0).trans hready5
  have hr6 : s6.regs.rising = true := hkeep6.rising hr5
  clear_value s6
  have hrecovering : s7.Recovering cause := ⟨hcause6, hready6, hblk6, hwork6.1, hwork6.2, rfl⟩
  have hsent : s7.Notifies s8 := s7.notifies_tellPeers .dead
  clear_value s8 want
  rw [hwant, if_pos (by decide)]
  exact (hrecovering.notifies hsent).warmGoOn (hsent.rising hr6)

/-! ### The trigger (R393, Tables 2-10 and 16-5) -/

theorem State.warmTrigger_coldReset (h : s.edgeUp = false) (cause aux : Nat) : s.warmTrigger cause aux = s := if_pos (by simp [h])

theorem State.warmTrigger_absorbed (h : s.recov.warm.isSome = true) (hcause : cause ≠ 1) (aux : Nat) : s.warmTrigger cause aux = s := by
  unfold State.warmTrigger
  rw [if_pos h, if_neg (fun hboth : cause = 1 ∧ _ => hcause hboth.1), ite_self]

theorem State.warmTrigger_unpowered (hup : s.edgeUp = true) (hwarm : s.recov.warm = none) (hcore : s.edge.pins.corePwrOk = false)
    (hheld : s.recov.warmHeld = none) (aux : Nat) :
    s.warmTrigger cause aux = { s with recov := { s.recov with warmHeld := some (cause, aux) } } := by
  unfold State.warmTrigger
  rw [if_neg (by simp [hup]), if_neg (by simp [hwarm]), if_pos (.inr (by simp [hcore])), if_pos (by simp [hheld])]

theorem State.warmTrigger_starts (hup : s.edgeUp = true) (hwarm : s.recov.warm = none) (hcore : s.edge.pins.corePwrOk = true)
    (hflush : s.flushAhead = false) (aux : Nat) : s.warmTrigger cause aux = s.beginWarm cause aux := by
  unfold State.warmTrigger
  rw [if_neg (by simp [hup]), if_neg (by simp [hwarm]), if_neg (by simp [hflush, hcore])]

theorem execWarmResetTrigger_cause (hlo : 1 ≤ cause) (hhi : cause ≤ 6) : execWarmResetTrigger cause s = .next (s.warmTrigger cause 0) :=
  congrArg _ (if_pos ⟨hlo, hhi⟩)

theorem execWrstNLow_coldReset (h : s.edgeUp = false) (ns : Nat) : execWrstNLow ns s = .next s := by
  unfold execWrstNLow
  rw [State.warmTrigger_coldReset h, ite_self]

theorem execWrstNLow_held {ns : Nat} (hns : 1000 ≤ ns) : execWrstNLow ns s = .next (s.warmTrigger 1 0) := congrArg _ (if_pos hns)

/-- Each command that triggers a warm reset, with its cause. -/
theorem exec_warmTrigger {i : Instr} (h : (i = .blkCtrlWarm ∧ cause = 2) ∨ (i = .blkCtrlFence ∧ cause = 3) ∨
    (i = .warmResetTrigger cause ∧ 1 ≤ cause ∧ cause ≤ 6) ∨ (∃ ns, 1000 ≤ ns ∧ i = .wrstNLow ns ∧ cause = 1)) :
    exec i s = .next (s.warmTrigger cause 0) ∧ cause ≤ 6 := by
  rcases h with ⟨rfl, rfl⟩ | ⟨rfl, rfl⟩ | ⟨rfl, hlo, hhi⟩ | ⟨ns, hns, rfl, rfl⟩
  · exact ⟨rfl, by decide⟩
  · exact ⟨rfl, by decide⟩
  · exact ⟨execWarmResetTrigger_cause hlo hhi, hhi⟩
  · exact ⟨execWrstNLow_held hns, by decide⟩

end

/-! ### The statement -/

/-- Settles O21: a trigger starts the reset, or is absorbed, held or without effect, by the state that it meets. -/
theorem warmResets : Obligations.WarmResets := by
  refine ⟨fun s i cause hregs hup hcore hflush hwarm hdump hi => ?starts, fun s cause hlo hhi => ⟨fun hdown => ?cold, fun hsome hcause => ?absorbed,
    fun hup hwarm hcore hheld => ?held⟩⟩
  case starts =>
    obtain ⟨hexec, hhi⟩ := exec_warmTrigger (s := s) hi
    rw [State.warmTrigger_starts hup hwarm hcore hflush] at hexec
    obtain ⟨hcause, hready, hblk, hitems, hops, hsome⟩ := State.beginWarm_recovering hregs.1 hdump (Nat.lt_of_le_of_lt hhi (by decide)) 0
    exact ⟨_, hexec, hcause, hready, hblk, hitems, hops, hsome⟩
  case cold =>
    exact ⟨(execWarmResetTrigger_cause hlo hhi).trans (congrArg _ (State.warmTrigger_coldReset hdown cause 0)),
      congrArg _ (State.warmTrigger_coldReset hdown 2 0), congrArg _ (State.warmTrigger_coldReset hdown 3 0), execWrstNLow_coldReset hdown⟩
  case absorbed => exact (execWarmResetTrigger_cause hlo hhi).trans (congrArg _ (State.warmTrigger_absorbed hsome hcause 0))
  case held => exact (execWarmResetTrigger_cause hlo hhi).trans (congrArg _ (State.warmTrigger_unpowered hup hwarm hcore hheld 0))

end Sys2Proof.Machine
end

section

/-!
SUPPORT. O57 fails: it takes the register table in order, and not the table of resets under way. Where that table holds two entries of one unit,
a section reset takes one of them away and the other stands.
-/

namespace Sys2Proof.Machine

theorem exec_sectionReset_starts {s : State} {k : Nat} (hk : k < 8) (hreset : s.canReset (unitOfSec k) = true) :
    exec (.sectionReset k) s = .next (s.resetSection k none) :=
  have hruns : exec (.sectionReset k) s = execSectionReset k s := rfl
  hruns.trans (congrArg Host.Outcome.next (if_pos ⟨hk, hreset⟩))

/-- A powered block, its core out of reset, whose table of resets holds tensor unit 0 twice. -/
def resetTwice : State := { poweredBlock with
  edge := { poweredBlock.edge with coreOut := true }
  recov := { State.reset.recov with resets := [(0, ⟨0, false, 0⟩), (0, ⟨0, false, 0⟩)] } }

set_option maxRecDepth 100000 in
theorem resetTwice_canReset : resetTwice.canReset 152 = true := by decide

/-- Absorbing the reset of unit 0 removes one of its two entries. -/
theorem resetSection_resetTwice_find : (resetTwice.resetSection 0 none).recov.resets.find 0 ≠ none := by decide +kernel

theorem unitsOfSec_zero_has_zero : 0 ∈ unitsOfSec 0 := by decide

/-- Refutes O57: a reset of section 0 of `resetTwice` leaves the second entry of unit 0 in the table of resets. -/
theorem not_unitResets : ¬ Obligations.UnitResets := by
  intro holds
  obtain ⟨-, hsection, -⟩ := holds resetTwice 0 0 ⟨0⟩ rfl
  obtain ⟨t, hexec, habsorbed⟩ := hsection (by decide) resetTwice_canReset
  obtain rfl := Host.Outcome.next.inj ((exec_sectionReset_starts (by decide) resetTwice_canReset).symm.trans hexec)
  exact resetSection_resetTwice_find (habsorbed 0 unitsOfSec_zero_has_zero)

end Sys2Proof.Machine
end

section

/-!
SUPPORT. Interface security (R373, R374): what an IDE_KM or a TDISP message does at a port that is up and not busy, and the settling of O56.
-/

namespace Sys2Proof.Machine

/-! ### Where a request goes -/

theorem State.spdmRequest_runs {s : State} {p : SpdmPort} (hup : s.spdmUp p = true) (hbusy : s.spdmBusy = false) (f : State → State) :
    s.spdmRequest p f = .next (f s) := by
  simp [State.spdmRequest, hup, hbusy]

/-- A secure session stands at a host port. -/
def State.Secured (s : State) (d : Nat) : Prop := ∃ kv ∈ s.sessionsOn (.host d), kv.2.established = true

section
variable {s : State} {d vf : Nat}

theorem State.ideRequest_secured (hup : s.spdmUp (.host d) = true) (hbusy : s.spdmBusy = false) (hsec : s.Secured d) (f : State → State) :
    s.ideRequest d f = .next (f s) :=
  (State.spdmRequest_runs hup hbusy _).trans (congrArg _ (if_pos (List.any_eq_true.mpr hsec)))

theorem State.ideRequest_unsecured (hup : s.spdmUp (.host d) = true) (hbusy : s.spdmBusy = false) (hsec : ¬ s.Secured d) (f : State → State) :
    s.ideRequest d f = .next (s.spdmError (.host d) 4) :=
  (State.spdmRequest_runs hup hbusy _).trans (congrArg _ (if_neg fun h => hsec (List.any_eq_true.mp h)))

theorem State.tdispRequest_bound (hup : s.spdmUp (.host d) = true) (hbusy : s.spdmBusy = false) (hslice : (s.sliceOfVf d vf).isSome = true)
    (f : State → Tdi → State) : s.tdispRequest d vf f = .next (f s (s.tdi d vf)) := by
  simp [State.tdispRequest, State.spdmRequest_runs hup hbusy, hslice]

theorem State.tdispRequest_noTdi (hup : s.spdmUp (.host d) = true) (hbusy : s.spdmBusy = false) (hslice : s.sliceOfVf d vf = none)
    (hstate : (s.tdi d vf).state ≠ .error) (f : State → Tdi → State) : s.tdispRequest d vf f = .next (s.tdispError d vf 0x101) := by
  simp [State.tdispRequest, State.spdmRequest_runs hup hbusy, hslice, hstate]

end

/-! ### Streams and interfaces -/

/-- What is known of an IDE stream. -/
def State.ideStream (s : State) (k : Nat) : IdeStream := s.sec.ide.findD k ⟨false, false, none⟩

@[simp] theorem State.ideStream_updIde (s : State) (k : Nat) (f : IdeStream → IdeStream) : (s.updIde k f).ideStream k = f (s.ideStream k) := by
  simp [State.ideStream, State.updIde, Tbl.findD, Tbl.find_put_same]

@[simp] theorem State.ideStream_emit (s : State) (o : Out) (k : Nat) : (s.emit o).ideStream k = s.ideStream k := rfl

@[simp] theorem State.tdi_emit (s : State) (o : Out) (d vf : Nat) : (s.emit o).tdi d vf = s.tdi d vf := rfl

@[simp] theorem State.tdi_setTdi (s : State) (d vf : Nat) (t : Tdi) : (s.setTdi d vf t).tdi d vf = t := by
  simp [State.tdi, State.setTdi, Tbl.findD, Tbl.find_put_same]

/-- A key set of a stream is programmed. -/
def IdeStream.programmed (x : IdeStream) (ks : Nat) : Bool := if ks = 0 then x.prog0 else x.prog1

/-! ### The messages -/

section
variable {s : State} {d vf n ks slice : Nat} (hup : s.spdmUp (.host d) = true) (hbusy : s.spdmBusy = false)
include hup hbusy

theorem execIdeKmQuery_secured (hsec : s.Secured d) : execIdeKmQuery d s = .next (s.emit (.ideKm d 1 31)) :=
  State.ideRequest_secured hup hbusy hsec _

theorem execIdeKmKeyProg_outOfRange (hsec : s.Secured d) (h : 32 ≤ n ∨ 2 ≤ ks) : execIdeKmKeyProg d n ks s = .next (s.emit (.ideKm d 3 3)) :=
  (State.ideRequest_secured hup hbusy hsec _).trans (congrArg _ (if_neg (by omega)))

theorem execIdeKmKeyProg_programs (hsec : s.Secured d) (hn : n < 32) (hks : ks < 2) :
    ∃ t, execIdeKmKeyProg d n ks s = .next t ∧ t.ideStream (ideKey d n) = (if ks = 0 then { s.ideStream (ideKey d n) with prog0 := true }
      else { s.ideStream (ideKey d n) with prog1 := true }) ∧ t.regs = s.regs :=
  ⟨_, (State.ideRequest_secured hup hbusy hsec _).trans (congrArg _ (if_pos ⟨hn, hks⟩)), by simp, rfl⟩

theorem execIdeKmKSetGo_secured (hsec : s.Secured d) : execIdeKmKSetGo d n ks s =
    .next ((if (decide (n < 32 ∧ ks < 2) && (s.ideStream (ideKey d n)).programmed ks) = true then
      s.updIde (ideKey d n) (fun x => { x with active := some ks }) else s).emit (.ideKm d 6 0)) :=
  State.ideRequest_secured hup hbusy hsec _

theorem execIdeKmKSetGo_starts (hsec : s.Secured d) (hn : n < 32) (hks : ks < 2) (hprog : (s.ideStream (ideKey d n)).programmed ks = true) :
    ∃ t, execIdeKmKSetGo d n ks s = .next t ∧ t.ideStream (ideKey d n) = { s.ideStream (ideKey d n) with active := some ks } :=
  ⟨_, execIdeKmKSetGo_secured hup hbusy hsec, by simp [hn, hks, hprog]⟩

theorem execIdeKmKSetGo_unprogrammed (hsec : s.Secured d) (hprog : (s.ideStream (ideKey d n)).programmed ks = false) :
    execIdeKmKSetGo d n ks s = .next (s.emit (.ideKm d 6 0)) := by
  rw [execIdeKmKSetGo_secured hup hbusy hsec, hprog]
  simp

theorem execIdeKmKSetStop_stops (hsec : s.Secured d) (hactive : (s.ideStream (ideKey d n)).active = some ks) :
    ∃ t, execIdeKmKSetStop d n ks s = .next t ∧ t.ideStream (ideKey d n) = { s.ideStream (ideKey d n) with active := none } := by
  refine ⟨_, State.ideRequest_secured hup hbusy hsec _, ?_⟩
  dsimp only
  rw [if_pos (show (s.sec.ide.findD (ideKey d n) ⟨false, false, none⟩).active = some ks from hactive)]
  simp

/-- Each IDE_KM message. -/
theorem exec_ideKm_unsecured (hsec : ¬ s.Secured d) (i : Instr)
    (hi : i ∈ ([.ideKmQuery d, .ideKmKeyProg d n ks, .ideKmKSetGo d n ks, .ideKmKSetStop d n ks] : List Instr)) :
    exec i s = .next (s.spdmError (.host d) 4) := by
  simp only [List.mem_cons, List.not_mem_nil, or_false] at hi
  have hanswer (f : State → State) := State.ideRequest_unsecured hup hbusy hsec f
  obtain rfl | rfl | rfl | rfl := hi
  · exact (hanswer _ : execIdeKmQuery d s = _)
  · exact (hanswer _ : execIdeKmKeyProg d n ks s = _)
  · exact (hanswer _ : execIdeKmKSetGo d n ks s = _)
  · exact (hanswer _ : execIdeKmKSetStop d n ks s = _)

/-- Each TDISP message, to a function that is no TDI. -/
theorem exec_tdisp_noTdi (hslice : s.sliceOfVf d vf = none) (hstate : (s.tdi d vf).state ≠ .error) (i : Instr)
    (hi : i ∈ ([.getTdispVersion d vf, .getTdispCapabilities d vf, .lockInterfaceRequest d vf, .getDeviceInterfaceReport d vf,
      .getDeviceInterfaceState d vf, .startInterfaceRequest d vf, .stopInterfaceRequest d vf] : List Instr)) :
    exec i s = .next (s.emit (.tdisp d vf 0x7F 0x101 0)) := by
  simp only [List.mem_cons, List.not_mem_nil, or_false] at hi
  have hanswer (f : State → Tdi → State) : s.tdispRequest d vf f = .next (s.emit (.tdisp d vf 0x7F 0x101 0)) :=
    State.tdispRequest_noTdi hup hbusy hslice hstate f
  obtain rfl | rfl | rfl | rfl | rfl | rfl | rfl := hi
  · exact (hanswer _ : execGetTdispVersion d vf s = _)
  · exact (hanswer _ : execGetTdispCapabilities d vf s = _)
  · exact (hanswer _ : execLockInterfaceRequest d vf s = _)
  · exact (hanswer _ : execGetDeviceInterfaceReport d vf s = _)
  · exact (hanswer _ : execGetDeviceInterfaceState d vf s = _)
  · exact (hanswer _ : execStartInterfaceRequest d vf s = _)
  · exact (hanswer _ : execStopInterfaceRequest d vf s = _)

section
variable (hslice : s.sliceOfVf d vf = some slice)
include hslice

theorem State.tdispRequest_slice (f : State → Tdi → State) : s.tdispRequest d vf f = .next (f s (s.tdi d vf)) :=
  State.tdispRequest_bound hup hbusy (by rw [hslice]; rfl) f

theorem execGetTdispVersion_slice : execGetTdispVersion d vf s = .next (s.emit (.tdisp d vf 0x01 0 0x10)) :=
  State.tdispRequest_slice hup hbusy hslice _

theorem execGetTdispCapabilities_slice : execGetTdispCapabilities d vf s = .next (s.emit (.tdisp d vf 0x02 0 0)) :=
  State.tdispRequest_slice hup hbusy hslice _

theorem execGetDeviceInterfaceState_slice :
    execGetDeviceInterfaceState d vf s = .next (s.emit (.tdisp d vf 0x05 0 (s.tdi d vf).state.code)) :=
  State.tdispRequest_slice hup hbusy hslice _

theorem execLockInterfaceRequest_locks (hstate : (s.tdi d vf).state = .unlocked) (hslc : s.slcState slice = 1 ∨ s.slcState slice = 2) :
    ∃ t, execLockInterfaceRequest d vf s = .next t ∧
      t.tdi d vf = ⟨.locked, s.getF .MEM_XCTX_ROOT_ROOT slice * 4096, (s.sliceLeaves slice).map (fun e => e.1)⟩ ∧
      t.out = s.out ++ [.tdisp d vf 0x03 0 0] ∧ t.regs = s.regs := by
  refine ⟨_, State.tdispRequest_slice hup hbusy hslice _, ?_⟩
  rw [hslice]
  dsimp only
  rw [if_pos ⟨hstate, hslc⟩]
  exact ⟨by simp, rfl, rfl⟩

theorem execLockInterfaceRequest_notUnlocked (hstate : (s.tdi d vf).state ≠ .unlocked) :
    execLockInterfaceRequest d vf s = .next (s.emit (.tdisp d vf 0x7F 4 0)) := by
  refine (State.tdispRequest_slice hup hbusy hslice _).trans ?_
  rw [hslice]
  dsimp only
  rw [if_neg fun h => hstate h.1]
  rfl

theorem execStartInterfaceRequest_runs (hstate : (s.tdi d vf).state = .locked) :
    ∃ t, execStartInterfaceRequest d vf s = .next t ∧ t.tdi d vf = { s.tdi d vf with state := .run } :=
  ⟨_, (State.tdispRequest_slice hup hbusy hslice _).trans (congrArg _ (if_pos hstate)), by simp⟩

theorem execStartInterfaceRequest_notLocked (hstate : (s.tdi d vf).state ≠ .locked) :
    execStartInterfaceRequest d vf s = .next (s.emit (.tdisp d vf 0x7F 4 0)) :=
  (State.tdispRequest_slice hup hbusy hslice _).trans (congrArg _ (if_neg hstate))

theorem execGetDeviceInterfaceReport_reports (hstate : (s.tdi d vf).state = .locked ∨ (s.tdi d vf).state = .run) :
    execGetDeviceInterfaceReport d vf s = .next (s.emit (.tdisp d vf 0x04 0 (s.tdiReport slice (s.tdi d vf)))) := by
  refine (State.tdispRequest_slice hup hbusy hslice _).trans ?_
  rw [hslice]
  dsimp only
  rw [if_pos hstate]

theorem execStopInterfaceRequest_unlocks (hrising : s.sec.tdis.rising = true) :
    ∃ t, execStopInterfaceRequest d vf s = .next t ∧ (t.tdi d vf).state = .unlocked ∧ t.out = s.out ++ [.tdisp d vf 0x07 0 0] :=
  ⟨_, State.tdispRequest_slice hup hbusy hslice _, by simp [State.tdi, Tbl.findD, Tbl.find_del_same hrising], rfl⟩

end

end

/-! ### The statement -/

/-- Settles O56: an IDE_KM message by the session at its port and the stream's key sets, a TDISP message by the function's slice and state. -/
theorem ideAndTdisp : Obligations.IdeAndTdisp := by
  refine fun s d vf n ks slice hup hbusy hrising => ⟨fun hsec i hi => exec_ideKm_unsecured hup hbusy hsec i hi, fun hsec => ?ide,
    fun hslice hstate i hi => exec_tdisp_noTdi hup hbusy hslice hstate i hi, fun hslice => ?tdisp⟩
  case ide =>
    exact ⟨execIdeKmQuery_secured hup hbusy hsec, execIdeKmKeyProg_programs hup hbusy hsec, execIdeKmKeyProg_outOfRange hup hbusy hsec,
      execIdeKmKSetGo_starts hup hbusy hsec, execIdeKmKSetGo_unprogrammed hup hbusy hsec, execIdeKmKSetStop_stops hup hbusy hsec⟩
  case tdisp =>
    refine ⟨execGetTdispVersion_slice hup hbusy hslice, execGetTdispCapabilities_slice hup hbusy hslice,
      execGetDeviceInterfaceState_slice hup hbusy hslice,
      execLockInterfaceRequest_locks hup hbusy hslice, execLockInterfaceRequest_notUnlocked hup hbusy hslice, fun hstate => ?starts,
      execStartInterfaceRequest_notLocked hup hbusy hslice, execGetDeviceInterfaceReport_reports hup hbusy hslice,
      execStopInterfaceRequest_unlocks hup hbusy hslice hrising⟩
    obtain ⟨t, hexec, htdi⟩ := execStartInterfaceRequest_runs hup hbusy hslice hstate
    exact ⟨t, hexec, by rw [htdi], by rw [htdi], by rw [htdi]⟩

end Sys2Proof.Machine
end

section

/-!
SUPPORT. Start stages and the steward image (R402–R405): what an attempt, a failure and a completion of a stage leave alone, and the settling of O58.
-/

namespace Sys2Proof.Machine

/-! ### Writing memory -/

/-- `t` is `s` but for memory, the durable pages and the count of free values. -/
def State.WritesMem (s t : State) : Prop := t = { s with mem := t.mem, free := t.free, temper := t.temper }

theorem State.WritesMem.trans {s t u : State} (h : s.WritesMem t) (k : t.WritesMem u) : s.WritesMem u := by
  unfold State.WritesMem at *
  rw [k, h]

theorem State.WritesMem.regs {s t : State} (h : s.WritesMem t) : t.regs = s.regs := by
  rw [show t = _ from h]

theorem State.WritesMem.sec {s t : State} (h : s.WritesMem t) : t.sec = s.sec := by
  rw [show t = _ from h]

theorem State.writesMem_storeLine (s : State) (off slot : Nat) (b : List Byte) (p : Bool) : s.WritesMem (s.storeLine off slot b p) := by
  unfold State.storeLine
  dsimp only
  split <;> exact rfl

theorem State.writesMem_loadLine (s : State) (off slot : Nat) : s.WritesMem (s.loadLine off slot).2 := by
  unfold State.loadLine
  dsimp only
  repeat' split
  all_goals exact rfl

theorem State.writesMem_mergeLine (s : State) (off slot : Nat) : s.WritesMem (s.mergeLine off slot).2 := by
  unfold State.mergeLine
  split
  · exact rfl
  · exact s.writesMem_loadLine off slot

theorem State.writesMem_writeLines (slot n off : Nat) (b : List Byte) (s : State) : s.WritesMem (s.writeLines slot n off b) := by
  induction n generalizing s off b with
  | zero => exact rfl
  | succ n ih =>
    unfold State.writeLines
    split
    · exact rfl
    · dsimp only
      refine State.WritesMem.trans ?_ (ih _ _ _)
      split
      · exact .trans (s.writesMem_storeLine off slot _ false) rfl
      · have hmerge := s.writesMem_mergeLine off slot
        split <;> rename_i u hline <;> rw [hline] at hmerge
        · exact .trans (hmerge.trans (u.writesMem_storeLine off slot _ true)) rfl
        · exact .trans (hmerge.trans (State.writesMem_storeLine _ off slot _ false)) rfl

theorem State.writesMem_writeMem (s : State) (off slot : Nat) (b : List Byte) : s.WritesMem (s.writeMem off slot b) :=
  .trans (s.writesMem_writeLines slot _ off b) rfl

/-! ### Operations that leave the stages -/

/-- `t` has the start stages that `s` has. -/
def State.SameStages (s t : State) : Prop := t.recov.stages = s.recov.stages

section
variable {s t u : State}

theorem State.SameStages.trans (h : s.SameStages t) (k : t.SameStages u) : s.SameStages u := Eq.trans k h

theorem State.Notifies.sameStages (h : s.Notifies t) : s.SameStages t := by
  unfold State.SameStages
  rw [h.rest]

theorem State.sameStages_each {α : Type} {f : State → α → State} (hf : ∀ (s : State) a, s.SameStages (f s a)) (l : List α) (s : State) :
    s.SameStages (s.each l f) := State.each_keeps (P := s.SameStages) (fun t a h => h.trans (hf t a)) l rfl

theorem State.sameStages_fault (s : State) (r : FaultRec) : s.SameStages (s.fault r) :=
  .trans (t := s.withRecord r) rfl (s.notifies_fault r).sameStages

theorem State.sameStages_setBlkState (s : State) (v : Nat) : s.SameStages (s.setBlkState v) := by
  unfold State.SameStages
  rw [s.setBlkState_rest v]

theorem State.sameStages_trainStep (s : State) (st step : Nat) : s.SameStages (s.trainStep st step) := by
  unfold State.trainStep State.driveStep
  split <;> exact rfl

theorem State.sameStages_trainStacks (s : State) : s.SameStages s.trainStacks := by
  refine .trans (State.sameStages_each (by intros; rfl) _ s) (State.sameStages_each (fun s st => ?_) _ _)
  split
  · exact rfl
  · exact .trans rfl (State.sameStages_trainStep _ st 1)

theorem State.sameStages_clearFailed (s : State) : s.SameStages s.clearFailed := by
  refine .trans (State.sameStages_each (fun s st => ?_) _ s) rfl
  split <;> exact rfl

theorem State.sameStages_snoop_host (s : State) (i : Nat) (x : Txn) (own : Bool) (d : Nat) :
    s.SameStages (s.snoop i x .snpInv own (.host d)) := rfl

theorem State.sameStages_backInvalidate_host {line d : Nat} (hent : s.ent line = none) (n : Nat) :
    s.SameStages (s.backInvalidate line (.host d) n) := by
  unfold State.backInvalidate
  rw [hent]
  dsimp only
  rw [if_neg (by simp)]
  exact .trans rfl (State.sameStages_snoop_host _ _ _ _ d)

theorem State.sameStages_closeRecall (s : State) : s.SameStages s.closeRecall := by
  unfold State.closeRecall
  extract_lets late s1 _ s2
  have hbars : s.SameStages s1 := State.sameStages_each (by intros; rfl) late s
  have hrecord : s1.SameStages s2 := by
    unfold s2
    split
    · exact rfl
    · exact s1.sameStages_fault _
  exact .trans (hbars.trans hrecord) rfl

theorem State.sameStages_coh (s : State) (c : Coh) : s.SameStages { s with coh := c } := rfl

theorem State.sameStages_restartHomes (s : State) : s.SameStages s.restartHomes := by
  unfold State.restartHomes
  extract_lets s1 _ s2 s3 peers s4 _ s5
  have hlog : s.SameStages s1 := State.sameStages_each (by intros; rfl) _ s
  have hempty : s1.SameStages s2 := s1.sameStages_coh _
  have hfilter : s2.SameStages s3 := by
    refine State.sameStages_each (fun s kv => ?_) _ s2
    dsimp only
    split
    · exact rfl
    · rename_i hent
      split
      · exact rfl
      · exact .trans (State.sameStages_backInvalidate_host hent _) rfl
  have htold : s3.SameStages s4 := (s3.notifies_tellPeers _).sameStages.trans (State.notifies_tellPeers _ _).sameStages
  have hasked : s4.SameStages s5 := s4.sameStages_coh _
  clear_value s5
  have hsteps := hlog.trans (hempty.trans (hfilter.trans (htold.trans hasked)))
  split
  · exact hsteps.trans s5.sameStages_closeRecall
  · exact hsteps

theorem State.sameStages_commitLoad (s : State) (m : Nat) (w : Window) (slice : Option Nat) (sg : Nat) : s.SameStages (s.commitLoad m w slice sg) := by
  unfold State.commitLoad
  extract_lets _ s1
  have hevict : s.SameStages s1 := State.sameStages_each (by intros; rfl) _ s
  clear_value s1
  dsimp only
  split <;> exact hevict

theorem State.sameStages_seedGo (n : Nat) (s : State) : s.SameStages (s.seedGo n) := by
  induction n generalizing s with
  | zero => exact rfl
  | succ n ih =>
    have hnext : ∀ {u : State}, s.SameStages u → s.SameStages (u.seedGo n) := fun h => h.trans (ih _)
    unfold State.seedGo
    split
    · exact rfl
    · dsimp only
      split
      · exact rfl
      · split
        · exact hnext rfl
        · split
          · exact rfl
          · split
            · split <;> exact hnext rfl
            · split
              · exact hnext rfl
              · split
                · exact hnext rfl
                · exact s.sameStages_commitLoad _ _ _ _

theorem State.sameStages_seedStart (s : State) : s.SameStages s.seedStart := by
  unfold State.seedStart
  dsimp only
  split
  · exact .trans rfl (State.sameStages_seedGo 17 _)
  · exact rfl

end

/-! ### An attempt -/

@[simp] theorem State.stage_setStage (s : State) (n : Nat) (x : Stage) : (s.setStage n x).stage n = some x := Tbl.find_put_same _ _ _

theorem State.SameStages.stage {s t : State} (h : s.SameStages t) (n : Nat) : t.stage n = s.stage n := by
  unfold State.stage
  rw [h]

/-- A stage as it is before its first attempt. -/
def Stage.unbegun : Stage := ⟨false, 0, 0, none⟩

/-- A stage as an attempt starts. -/
def Stage.begun (x : Stage) (now : Nat) : Stage := { x with running := true, begunAt := now, retryAt := none }

/-- A stage as an attempt fails. -/
def Stage.failed (x : Stage) (now : Nat) : Stage :=
  { x with running := false, fails := x.fails + 1, retryAt := some (now + stageBackoff (x.fails + 1)) }

/-- An attempt shows in its stage, and leaves the others. -/
theorem State.sameStages_attempt (s : State) (n : Nat) (again : Bool) :
    (s.setStage n (((s.stage n).getD .unbegun).begun s.now)).SameStages (s.attempt n again) := by
  unfold State.attempt
  dsimp only
  split
  · split
    · exact (State.sameStages_clearFailed _).trans (State.sameStages_trainStacks _)
    · exact State.sameStages_trainStacks _
  · split <;> exact rfl
  · exact rfl
  · split
    · exact State.sameStages_restartHomes _
    · exact rfl
  · exact State.sameStages_seedStart _
  · exact rfl

theorem State.stage_attempt (s : State) (n : Nat) (again : Bool) :
    (s.attempt n again).stage n = some (((s.stage n).getD .unbegun).begun s.now) :=
  ((s.sameStages_attempt n again).stage n).trans (s.stage_setStage n _)

/-! ### A failure -/

section
variable {s : State} {n code : Nat}

theorem attemptFld_counts {f : Fld} (h : attemptFld n = some f) :
    f ∉ [Fld.BLK_STAGE_FAIL_STAGE, .BLK_STAGE_FAIL_CODE, .BLK_IMG_CTRL_BUSY] := by
  unfold attemptFld at h
  split at h <;> simp at h <;> subst h <;> decide

theorem State.stage_failStage (s : State) (n code : Nat) : (s.failStage n code).stage n =
    some (((s.stage n).getD .unbegun).failed s.now) := by
  rw [← s.stage_setStage n]
  refine State.SameStages.stage ?_ n
  unfold State.failStage
  dsimp only
  cases attemptFld n <;> split <;> exact rfl

theorem State.mem_failStage (s : State) (n code : Nat) : (s.failStage n code).mem = s.mem := by
  unfold State.failStage
  dsimp only
  cases attemptFld n <;> split <;> exact rfl

/-- The registers as a failure has recorded its stage and code. -/
theorem State.keeps_failStage (s : State) (n code : Nat) :
    ((s.setF .BLK_STAGE_FAIL_STAGE 0 n).setF .BLK_STAGE_FAIL_CODE 0 code).Keeps [.BLK_STAGE_FAIL_STAGE, .BLK_STAGE_FAIL_CODE] (s.failStage n code) := by
  unfold State.failStage
  extract_lets x fails s1 s2 s3
  have hrecorded : ((s.setF .BLK_STAGE_FAIL_STAGE 0 n).setF .BLK_STAGE_FAIL_CODE 0 code).Keeps [.BLK_STAGE_FAIL_STAGE, .BLK_STAGE_FAIL_CODE] s2 :=
    .of_regs rfl
  have hcounted : s2.Keeps [.BLK_STAGE_FAIL_STAGE, .BLK_STAGE_FAIL_CODE] s3 := by
    unfold s3
    split
    · rename_i f hf
      exact s2.keeps_bumpF (fun h => attemptFld_counts hf (by simp only [List.mem_cons, List.not_mem_nil] at h ⊢; tauto)) 0 1
    · exact .refl s2
  refine .trans (hrecorded.trans hcounted) (State.keeps_ite (fun _ => ?_) (fun _ => .refl _))
  exact .trans (State.keeps_setF s3 (f := .BLK_IMG_CTRL_BUSY) (by decide) 0 0) (.of_regs rfl)

theorem State.failRecord_failStage (hr : s.regs.rising = true) (hn : n < 2 ^ 4) (hcode : code < 2 ^ 8) :
    (s.failStage n code).getF .BLK_STAGE_FAIL_STAGE 0 = n ∧ (s.failStage n code).getF .BLK_STAGE_FAIL_CODE 0 = code := by
  have hkeeps := s.keeps_failStage n code
  have hr1 := State.rising_setF hr .BLK_STAGE_FAIL_STAGE 0 n
  constructor
  · rw [hkeeps.getF _ (by decide), State.getF_setF_ne _ _ _ _ _ _ (by decide), State.getF_setF_same hr]
    exact Nat.mod_eq_of_lt hn
  · rw [hkeeps.getF _ (by decide), State.getF_setF_same hr1]
    exact Nat.mod_eq_of_lt hcode

theorem State.bitF_imageEnds (hr : s.regs.rising = true) : s.imageEnds.bitF .BLK_IMG_CTRL_BUSY 0 = false :=
  beq_eq_false_iff_ne.mpr fun h => absurd ((State.getF_setF_same hr .BLK_IMG_CTRL_BUSY 0 0).symm.trans h) (by decide)

theorem State.imageIdle_failStage (hr : s.regs.rising = true) (code : Nat) : (s.failStage 4 code).bitF .BLK_IMG_CTRL_BUSY 0 = false := by
  unfold State.failStage
  dsimp only
  rw [if_pos rfl]
  exact State.bitF_imageEnds (State.rising_setF (State.rising_setF (State.rising_setF hr _ _ _) _ _ _) _ _ _)

end

/-! ### A completion -/

theorem State.Keeps.bitOf {l : List Fld} {s t : State} (h : s.Keeps l t) {f : Fld} (hf : f ∈ l) (i b : Nat) : t.bitOf f i b = s.bitOf f i b := by
  unfold State.bitOf
  rw [h.getF f hf i]

/-- What shows which stages are complete. -/
def doneFields : List Fld := [.BLK_STAGE_DONE]

theorem doneFields_notice : ∀ f ∈ doneFields, f ∉ noticeFields := by decide

theorem State.keeps_noteTest {l : List Fld} (htests : ∀ f ∈ [Fld.TCH_UNIT_LAST_TESTS, .TCH_UNIT_LAST_FAILED, .TCH_UNIT_RUNS], f ∉ l) (s : State)
    (u tests failed : Nat) : s.Keeps l (s.noteTest u tests failed) :=
  .trans (.trans (s.keeps_setF (htests _ (by decide)) _ _) (State.keeps_setF _ (htests _ (by decide)) _ _)) (State.keeps_bumpF _ (htests _ (by decide)) _ _)

theorem State.keeps_endStartRun (s : State) : s.Keeps doneFields s.endStartRun :=
  .trans (State.keeps_each (fun s _ => s.keeps_noteTest (by decide) _ _ _) _ s)
    (.trans (State.keeps_setF _ (by decide) _ _) (State.keeps_bumpF _ (by decide) _ _))

theorem State.sameStages_endStartRun (s : State) : s.SameStages s.endStartRun :=
  .trans (t := s.each _ _) (State.sameStages_each (by intros; rfl) _ s) rfl

theorem State.now_endStartRun (s : State) : s.endStartRun.now = s.now :=
  have htests := State.each_keeps (P := fun t => t.now = s.now) (f := fun s u => s.noteTest u (2 ^ (kindTest u - 1)) 0) (fun _ _ h => h)
    s.unitsInService rfl
  htests

theorem State.keeps_setScrub {l : List Fld} (hpages : .SLC_SCRUB_PAGES ∉ l) (s : State) (k : Nat) (r : List (Nat × Nat)) : s.Keeps l (s.setScrub k r) :=
  .trans (s.keeps_setF hpages k _) (.of_regs rfl)

theorem State.keeps_markReady {l : List Fld} (hnotice : ∀ f ∈ l, f ∉ noticeFields) (s : State) (q : Nat) : s.Keeps l (s.markReady q) := by
  unfold State.markReady
  dsimp only
  split
  · split
    · exact .trans (.of_regs (t := s.setQx q { s.qx q with readyAt := some s.now }) rfl) ((State.notifies_cicEvent _ 0 4).keeps hnotice)
    · exact .of_regs rfl
  · exact .refl s

theorem State.keeps_stepTwelve (s : State) : s.Keeps doneFields s.stepTwelve := by
  unfold State.stepTwelve
  extract_lets now later _ _ _ s1 s2
  have hcounted : s.Keeps doneFields s1 := .of_regs rfl
  have hscrubs : s1.Keeps doneFields s2 := State.keeps_each (fun s k => s.keeps_setScrub (by decide) k _) _ s1
  refine (hcounted.trans hscrubs).trans (State.keeps_ite (fun _ => .refl _) fun _ => ?_)
  exact .trans (s2.keeps_setF (f := .QCX_STATE_STATE) (by decide) 0 1) (State.keeps_markReady doneFields_notice _ 0)

theorem State.keeps_stepThirteen (s : State) : s.Keeps doneFields s.stepThirteen :=
  .trans (s.keeps_setBlkState doneFields_notice (by decide) stFenced) (.trans (State.keeps_setF _ (f := .BLK_STATE_READY) (by decide) 0 1) (.of_regs rfl))

/-- A stage up to HOMES is complete when it completes, whatever its end brings about. -/
theorem State.stageDone_completeStage {s : State} (hr : s.regs.rising = true) {n : Nat} (hn : n ≤ 6) :
    (s.completeStage n).bitOf .BLK_STAGE_DONE 0 (n - 1) = true := by
  unfold State.completeStage
  extract_lets x s1 fence
  have hwidth : n - 1 < Fld.width .BLK_STAGE_DONE := Nat.lt_of_le_of_lt (Nat.sub_le_sub_right hn 1) (by decide)
  have hstage : (s.setStage n { x with running := false }).regs.rising = true := hr
  have hdone : s1.bitOf .BLK_STAGE_DONE 0 (n - 1) = true := State.bitOf_setBit hstage hwidth 0 true
  clear_value s1
  refine (State.Keeps.bitOf (l := doneFields) (s := s1) ?_ (by decide) 0 (n - 1)).trans hdone
  split
  · exact State.keeps_each (fun s k => s.keeps_setF (by decide) k _) _ s1
  · exact State.keeps_each (fun s k => .trans (s.keeps_setF (f := .MEM_HT_STAT_STATE) (by decide) k 2) (State.keeps_setF _ (by decide) k 32)) _ s1
  · exact .of_regs rfl
  · exact State.keeps_ite
      (fun _ => s1.keeps_endStartRun.trans ((State.keeps_stepTwelve _).trans (State.keeps_stepThirteen _))) fun _ => s1.keeps_endStartRun
  · exact State.keeps_ite (fun _ => s1.keeps_stepTwelve) fun _ => .refl s1
  · omega
  · exact .refl s1

/-! ### The steward image -/

theorem natLE_lt (b : List Byte) : natLE b < 256 ^ b.length := by
  induction b with
  | nil => exact Nat.one_pos
  | cons x b ih =>
    have hx : x.toNat < 256 := x.isLt
    rw [List.length_cons, Nat.pow_succ, natLE]
    omega

theorem fieldLE_lt (b : List Byte) (o n : Nat) : fieldLE b o n < 256 ^ n :=
  Nat.lt_of_lt_of_le (natLE_lt _) (Nat.pow_le_pow_right (by decide) (List.length_take_le n _))

/-- What shows a held image. -/
def imageFields : List Fld := [.BLK_IMG_CTRL_VALID, .BLK_STEWARD_VERSION]

section
variable {s : State}

theorem State.keeps_holdImage (s : State) (b : List Byte) :
    ((s.setF .BLK_IMG_CTRL_VALID 0 1).setF .BLK_STEWARD_VERSION 0 (fieldLE b 8 4)).Keeps imageFields (s.holdImage b) := by
  unfold State.holdImage
  generalize directBase 0 + 2040 * 0x200000 = off
  extract_lets v s1 s2 s3
  have hmajor : ((s.setF .BLK_IMG_CTRL_VALID 0 1).setF .BLK_STEWARD_VERSION 0 v).Keeps imageFields s1 := State.keeps_setF _ (by decide) _ _
  have hparts : s1.Keeps imageFields s2 := .trans (s1.keeps_setF (f := .BLK_IMG_VER_MINOR) (by decide) _ _) (State.keeps_setF _ (by decide) _ _)
  have hwritten : s2.WritesMem s3 := s2.writesMem_writeMem off 0 b
  exact (hmajor.trans hparts).trans (.trans (.of_regs hwritten.regs) (.of_regs rfl))

theorem State.sec_holdImage (s : State) (b : List Byte) : (s.holdImage b).sec = s.sec := by
  simp only [State.holdImage, (State.writesMem_writeMem _ _ _ _).sec, State.setF_sec]

theorem State.keeps_imageEnds (s : State) : s.Keeps imageFields s.imageEnds :=
  .trans (s.keeps_setF (f := .BLK_IMG_CTRL_BUSY) (by decide) 0 0) (.of_regs rfl)

theorem State.keeps_completeStage_image (s : State) : s.Keeps imageFields (s.completeStage 4) := by
  unfold State.completeStage
  extract_lets x s1 fence
  have hstage : s.Keeps imageFields (s.setStage 4 { x with running := false }) := .of_regs rfl
  have hdone : s.Keeps imageFields s1 := hstage.trans (State.keeps_setBit _ (by decide) 0 3 true)
  exact .trans hdone (.of_regs rfl)

theorem State.sec_imageEnds (s : State) : s.imageEnds.sec = s.sec := rfl

theorem State.sec_completeStage_image (s : State) : (s.completeStage 4).sec = s.sec := rfl

/-- A good image is VALID with its version, measured, and completes the IMAGE stage. -/
theorem State.imageHeld (hr : s.regs.rising = true) (b : List Byte) : let t := (s.holdImage b).imageEnds.completeStage 4
    t.bitF .BLK_IMG_CTRL_VALID 0 = true ∧ t.getF .BLK_STEWARD_VERSION 0 = fieldLE b 8 4 ∧ t.bitOf .BLK_STAGE_DONE 0 3 = true ∧
      t.sec.measure2 = s.sec.measure2 := by
  have hr1 := State.rising_setF hr .BLK_IMG_CTRL_VALID 0 1
  have hhold := s.keeps_holdImage b
  have hkeeps := hhold.trans ((s.holdImage b).keeps_imageEnds.trans (State.keeps_completeStage_image _))
  have hrends := (State.keeps_imageEnds _).rising (hhold.rising (State.rising_setF hr1 _ _ _))
  refine ⟨?_, ?_, State.stageDone_completeStage hrends (by decide), ?_⟩
  · rw [hkeeps.bitF (by decide)]
    unfold State.bitF
    rw [State.getF_setF_ne _ _ _ _ _ _ (by decide), State.getF_setF_same hr]
    decide
  · rw [hkeeps.getF _ (by decide), State.getF_setF_same hr1]
    exact Nat.mod_eq_of_lt (fieldLE_lt b 8 4)
  · rw [State.sec_completeStage_image, State.sec_imageEnds, State.sec_holdImage]

end

/-! ### The commands -/

section
variable {s : State} {n code : Nat} {x : Stage}

theorem State.stage_of_stageRuns (h : s.stageRuns n = true) : s.stageDone n = false ∧ ∃ x, s.stage n = some x ∧ x.running = true := by
  unfold State.stageRuns at h
  rw [Bool.and_eq_true, Bool.not_eq_true'] at h
  refine ⟨h.1, ?_⟩
  split at h
  · exact ⟨_, ‹_›, h.2⟩
  · cases h.2

theorem execStartStageBegin_begins (hon : s.stagesOn = true) (hlo : 1 ≤ n) (hhi : n ≤ 7) (hdone : s.stageDone n = false) (hnone : s.stage n = none)
    (hout : s.stageLeftOut n = false) (hafter : ∀ m ∈ stageAfter n, s.stageDone m = true) :
    execStartStageBegin n s = .next (s.attempt n false) := by
  simp [execStartStageBegin, hon, hlo, hhi, hdone, hnone, hout, List.all_eq_true.mpr hafter]

theorem execStartStageBegin_early {m : Nat} (hm : m ∈ stageAfter n) (hdone : s.stageDone m = false) : execStartStageBegin n s = .next s := by
  have hall : (stageAfter n).all s.stageDone = false := List.all_eq_false.mpr ⟨m, hm, by simp [hdone]⟩
  simp [execStartStageBegin, hall]

theorem execStartStageComplete_met (hon : s.stagesOn = true) (hlo : 1 ≤ n) (hhi : n ≤ 6) (hruns : s.stageRuns n = true) (hmet : s.stageMet n = true) :
    execStartStageComplete n s = .next (s.completeStage n) := by
  have hne : n ≠ 7 := by omega
  have hle : n ≤ 7 := by omega
  simp [execStartStageComplete, hne, hon, hlo, hle, hruns, hmet]

theorem execStartStageComplete_unmet (hhi : n ≤ 6) (hmet : s.stageMet n = false) : execStartStageComplete n s = .next s := by
  have hne : n ≠ 7 := by omega
  simp [execStartStageComplete, hne, hmet]

theorem execStartStageComplete_idle (hne : n ≠ 7) (hruns : s.stageRuns n = false) : execStartStageComplete n s = .next s := by
  simp [execStartStageComplete, hne, hruns]

/-- MEMORY with every stack failed, and TOUCHSTONE with its code, are due to fail. -/
theorem execStartStageFail_due (hon : s.stagesOn = true) (hruns : s.stageRuns n = true)
    (hdue : (n = 3 ∧ code = 2 ∧ s.stacksAll (· == 4) = true) ∨ (n = 5 ∧ code = 7)) :
    execStartStageFail n code s = .next ((if n = 5 then s.endStartRun else s).failStage n code) := by
  rcases hdue with ⟨rfl, rfl, hall⟩ | ⟨rfl, rfl⟩
  · simp [execStartStageFail, hon, hruns, hall]
  · simp [execStartStageFail, hon, hruns]

theorem execStartStageFail_idle (hruns : s.stageRuns n = false) : execStartStageFail n code s = .next s := by
  simp [execStartStageFail, hruns]

theorem State.stageBackoff_next (fails : Nat) : stageBackoff (fails + 1) = min 10000000000 (10000000 * 2 ^ min 20 fails) := rfl

/-- A due failure is counted, recorded, and its retry set. -/
theorem execStartStageFail_records (hr : s.regs.rising = true) (hon : s.stagesOn = true) (hruns : s.stageRuns n = true)
    (hdue : (n = 3 ∧ code = 2 ∧ s.stacksAll (· == 4) = true) ∨ (n = 5 ∧ code = 7)) :
    ∃ t x, execStartStageFail n code s = .next t ∧ s.stage n = some x ∧ t.stage n = some (x.failed s.now) ∧
      t.getF .BLK_STAGE_FAIL_STAGE 0 = n ∧ t.getF .BLK_STAGE_FAIL_CODE 0 = code := by
  obtain ⟨-, x, hx, -⟩ := State.stage_of_stageRuns hruns
  have hsmall : n < 2 ^ 4 ∧ code < 2 ^ 8 := by omega
  have hrun : ∀ u : State, (u = s ∨ u = s.endStartRun) → u.regs.rising = true ∧ u.stage n = some x ∧ u.now = s.now := by
    rintro u (rfl | rfl)
    · exact ⟨hr, hx, rfl⟩
    · exact ⟨s.keeps_endStartRun.rising hr, (s.sameStages_endStartRun.stage n).trans hx, s.now_endStartRun⟩
  obtain ⟨hru, hxu, hnow⟩ := hrun (if n = 5 then s.endStartRun else s) (by split <;> simp)
  obtain ⟨hstage, hcode⟩ := State.failRecord_failStage hru hsmall.1 hsmall.2
  refine ⟨_, x, execStartStageFail_due hon hruns hdue, hx, ?_, hstage, hcode⟩
  rw [State.stage_failStage, hxu, hnow, Option.getD_some]

theorem execStartStageRetry_early {a : Nat} (hx : s.stage n = some x) (ha : x.retryAt = some a) (hearly : s.now < a) :
    execStartStageRetry n s = .next s := by
  have hlate : ¬ a ≤ s.now := Nat.not_le.mpr hearly
  simp [execStartStageRetry, hx, ha, hlate]

theorem execStartStageRetry_due {a : Nat} (hx : s.stage n = some x) (ha : x.retryAt = some a) (hon : s.stagesOn = true) (hdone : s.stageDone n = false)
    (hdue : a ≤ s.now) : execStartStageRetry n s = .next (s.attempt n true) := by
  simp [execStartStageRetry, hx, ha, hon, hdone, hdue]

/-- The state with a GO recorded. -/
def State.withGo (s : State) : State := { s with recov := { s.recov with goHeld := true } }

/-- The state with an image measured. -/
def State.measured (s : State) (b : List Byte) : State := { s with sec := { s.sec with measure2 := Config.sha384 b } }

theorem execImageGo_starts (hr : s.regs.rising = true) (hon : s.stagesOn = true) (hruns : s.stageRuns 4 = true)
    (hidle : s.bitF .BLK_IMG_CTRL_BUSY 0 = false) :
    ∃ t, execImageGo s = .next t ∧ t.bitF .BLK_IMG_CTRL_BUSY 0 = true ∧ t.recov.goHeld = false := by
  have hgo : execImageGo s = .next s.withGo.imageAttempt :=
    congrArg _ (if_pos (by
      change (s.stagesOn && s.stageRuns 4 && !s.bitF .BLK_IMG_CTRL_BUSY 0) = true
      rw [hon, hruns, hidle]
      rfl))
  exact ⟨_, hgo, beq_iff_eq.mpr (State.getF_setF_same (s := s.withGo) hr .BLK_IMG_CTRL_BUSY 0 1), rfl⟩

theorem execImageGo_held (hheld : s.stageRuns 4 = false ∨ s.bitF .BLK_IMG_CTRL_BUSY 0 = true) : execImageGo s = .next s.withGo :=
  congrArg _ (if_neg (by
    change ¬ (s.stagesOn && s.stageRuns 4 && !s.bitF .BLK_IMG_CTRL_BUSY 0) = true
    rcases hheld with h | h <;> simp [h]))

theorem execImageFetchComplete_idle (hidle : s.bitF .BLK_IMG_CTRL_BUSY 0 = false) (e : Ext) (sig : Bool) :
    execImageFetchComplete e sig s = .next s := by
  simp [execImageFetchComplete, hidle]

section
variable (hon : s.stagesOn = true) (hruns : s.stageRuns 4 = true) (hbusy : s.bitF .BLK_IMG_CTRL_BUSY 0 = true) (hfetch : s.imageFetches = true)
include hon hruns hbusy hfetch

theorem execImageFetchComplete_expired (sig : Bool) : execImageFetchComplete .expired sig s = .next (s.failStage 4 6) := by
  unfold execImageFetchComplete
  rw [if_pos (by rw [hon, hruns, hbusy]; rfl)]
  dsimp only
  rw [if_pos hfetch]

/-- An image that was fetched is measured, and checked. -/
theorem execImageFetchComplete_fetched {img b : List Byte} (hb : img.take (s.getF .BLK_IMG_CTRL_LEN 0) = b) (sig : Bool) :
    execImageFetchComplete (.ok img) sig s =
      if imageCheck b sig ≠ 0 then .next ((s.measured b).failStage 4 (imageCheck b sig))
      else .next (((s.measured b).holdImage b).imageEnds.completeStage 4) := by
  unfold execImageFetchComplete
  rw [if_pos (by rw [hon, hruns, hbusy]; rfl)]
  dsimp only
  rw [if_pos hfetch, hb]
  rfl

end

theorem imageCheck_lt (b : List Byte) (sig : Bool) : imageCheck b sig < 2 ^ 8 := by
  unfold imageCheck
  repeat' split
  all_goals decide

end

/-! ### The statement -/

/-- Settles O58: an attempt, a failure and a completion show in their stage and the stage register, whatever else they bring about. -/
theorem startStages : Obligations.StartStages := by
  refine fun s n code w img sig hr => ⟨fun hon hlo hhi hdone hnone hout => ⟨fun hafter => ?begins, ?early⟩,
    fun hon hlo hhi hruns => ⟨fun hmet => ?completes, execStartStageComplete_unmet hhi⟩,
    fun hruns hne => execStartStageComplete_idle hne hruns, fun hon hruns hdue => ?fails, execStartStageFail_idle,
    fun x a hx ha hon hdone => ⟨execStartStageRetry_early hx ha, fun hdue => ?retried⟩,
    fun hon hruns => ⟨execImageGo_starts hr hon hruns, fun hbusy => execImageGo_held (.inr hbusy)⟩, fun hruns => execImageGo_held (.inl hruns), rfl,
    fun hon hruns hbusy hfetch => ⟨execImageFetchComplete_expired hon hruns hbusy hfetch sig, fun hbad => ?bad, fun hgood => ?good⟩,
    fun hidle e => execImageFetchComplete_idle hidle e sig⟩
  case begins => exact ⟨_, _, execStartStageBegin_begins hon hlo hhi hdone hnone hout hafter, s.stage_attempt n false, rfl, rfl⟩
  case early =>
    rintro ⟨m, hm, hnot⟩
    exact execStartStageBegin_early hm hnot
  case completes => exact ⟨_, execStartStageComplete_met hon hlo hhi hruns hmet, State.stageDone_completeStage hr hhi⟩
  case fails =>
    obtain ⟨t, x, hexec, hx, hstage, hrecord⟩ := execStartStageFail_records hr hon hruns hdue
    exact ⟨t, x, _, hexec, hx, hstage, rfl, rfl, congrArg (some <| s.now + ·) (State.stageBackoff_next x.fails), hrecord⟩
  case retried =>
    refine ⟨_, _, execStartStageRetry_due hx ha hon hdone hdue, s.stage_attempt n true, rfl, rfl, rfl, ?_⟩
    rw [hx]
    rfl
  case bad =>
    have hexec := execImageFetchComplete_fetched (img := img) hon hruns hbusy hfetch rfl sig
    rw [if_pos hbad] at hexec
    obtain ⟨hstage, hcode⟩ := State.failRecord_failStage (n := 4) (s := s.measured (img.take (s.getF .BLK_IMG_CTRL_LEN 0))) hr (by decide)
      (imageCheck_lt _ sig)
    exact ⟨_, hexec, hstage, hcode, State.imageIdle_failStage hr _, State.mem_failStage _ 4 _⟩
  case good =>
    have hexec := execImageFetchComplete_fetched (img := img) hon hruns hbusy hfetch rfl sig
    rw [if_neg (not_not_intro hgood)] at hexec
    exact ⟨_, hexec, State.imageHeld (s := s.measured _) hr _⟩

end Sys2Proof.Machine
end

section

/-!
SUPPORT. Freezing, thawing and slice reset (R329, R337, R338, R343): that a slice reset keeps the register store in order, what its end and a thaw do
to a slice's queues, and the settling of O52.
-/

namespace Sys2Proof.Machine

/-! ### A slice reset keeps the order of the register store -/

/-- `t` has its register store in order if `s` has. -/
def State.KeepsOrder (s t : State) : Prop := s.Keeps [] t

section
variable {s t u : State}

theorem State.KeepsOrder.trans (h : s.KeepsOrder t) (k : t.KeepsOrder u) : s.KeepsOrder u := State.Keeps.trans h k

theorem State.KeepsOrder.of_regs (h : t.regs = s.regs) : s.KeepsOrder t := State.Keeps.of_regs h

theorem State.keepsOrder_setF (s : State) (f : Fld) (i v : Nat) : s.KeepsOrder (s.setF f i v) := s.keeps_setF (List.not_mem_nil) i v

theorem State.keepsOrder_each {α : Type} {g : State → α → State} (hg : ∀ (s : State) a, s.KeepsOrder (g s a)) (as : List α) (s : State) :
    s.KeepsOrder (s.each as g) := State.keeps_each hg as s

theorem State.keepsOrder_ite {p : Prop} [Decidable p] (ht : s.KeepsOrder t) (hu : s.KeepsOrder u) : s.KeepsOrder (if p then t else u) :=
  State.keeps_ite (fun _ => ht) (fun _ => hu)

theorem State.keepsOrder_addNs (s : State) (f : Fld) (i ns : Nat) : s.KeepsOrder (s.addNs f i ns) :=
  .trans (t := { s with work := (s.addNs f i ns).work }) (.of_regs rfl) (State.keepsOrder_setF _ f i _)

theorem State.keepsOrder_overrun (s : State) (c excess : Nat) (x : Item) : s.KeepsOrder (s.overrun c excess x) := by
  unfold State.overrun
  dsimp only
  have hcounted : s.KeepsOrder ((s.addNs .SRV_SLC_OVERRUN_COUNT x.slice excess).incF .CUE_OVERRUN_COUNT c) :=
    (s.keepsOrder_addNs _ _ _).trans (State.keepsOrder_setF _ _ _ _)
  split <;> exact .trans hcounted (.of_regs rfl)

theorem State.regs_chargeBe (s : State) (c len : Nat) (x : Item) : (s.chargeBe c len x).regs = s.regs := by
  unfold State.chargeBe
  dsimp only
  split <;> rfl

theorem State.keepsOrder_closeStretch (s : State) (c : Nat) : s.KeepsOrder (s.closeStretch c) := by
  unfold State.closeStretch
  extract_lets k
  split
  · exact .of_regs rfl
  · split
    · exact .of_regs rfl
    · rename_i len s1 _ _ _ _ _ _
      extract_lets s2 grain s3
      have hmax : s.KeepsOrder s1 := s.keepsOrder_setF _ _ _
      have hcharged : s1.KeepsOrder s2 := State.keepsOrder_ite (.of_regs (s1.regs_chargeBe c _ _)) (.of_regs rfl)
      have hreported : s2.KeepsOrder s3 := State.keepsOrder_ite (s2.keepsOrder_overrun c _ _) (.of_regs rfl)
      clear_value s3
      exact (hmax.trans hcharged).trans (hreported.trans (.of_regs rfl))

theorem State.keepsOrder_unload (s : State) (i : Nat) : s.KeepsOrder (s.unload i) := by
  unfold State.unload
  split
  · exact .trans (s.keepsOrder_closeStretch _) (.of_regs rfl)
  · exact .of_regs rfl

theorem State.regs_resumeOn (s : State) (u : UnitId) : (s.resumeOn u).regs = s.regs := by
  unfold State.resumeOn
  dsimp only
  split
  · rfl
  · split <;> rfl

theorem State.regs_cancelOps (s : State) (i : Nat) : (s.cancelOps i).regs = s.regs := by
  refine State.each_keeps (P := fun t => t.regs = s.regs) (fun t kv ht => ?_) _ rfl
  split
  · exact (State.regs_resumeOn _ _).trans ht
  · exact (State.regs_resumeOn _ _).trans ht
  · exact ht

theorem State.regs_leaveStep (s : State) (i : Nat) (d : Dropped) : (s.leaveStep i d).regs = s.regs := by
  unfold State.leaveStep State.unreserve
  split
  · rfl
  · split <;> rfl

theorem State.keepsOrder_stopItem (s : State) (i : Nat) (c : EndCause) : s.KeepsOrder (s.stopItem i c) := by
  unfold State.stopItem
  split
  · exact .of_regs rfl
  · extract_lets s1 s2 s3
    split
    · exact .of_regs rfl
    · have hcounted : s.KeepsOrder s1 := by
        unfold s1
        split
        · exact State.keepsOrder_ite (.of_regs rfl) (s.keepsOrder_setF _ _ _)
        · exact .of_regs rfl
      have hcancelled : s1.KeepsOrder s2 := .of_regs (State.regs_cancelOps _ i)
      have hleft : s2.KeepsOrder s3 := by
        unfold s3
        split
        · exact State.keepsOrder_ite (.of_regs rfl) (.of_regs (s2.regs_leaveStep i _))
        · exact .of_regs rfl
      clear_value s3
      exact hcounted.trans (hcancelled.trans (hleft.trans (State.keepsOrder_ite (.of_regs rfl) (s3.keepsOrder_unload i))))

theorem State.regs_closeSeqs (s : State) (slice : Nat) : (s.closeSeqs slice).regs = s.regs := by
  refine State.each_keeps (P := fun t => t.regs = s.regs) (fun t kv ht => ?_) _ rfl
  dsimp only
  split <;> exact ht

theorem State.keepsOrder_sliceReset (s : State) (slice : Nat) : s.KeepsOrder (s.sliceReset slice) := by
  unfold State.sliceReset
  extract_lets st s1 s2 s3
  have hresetting : s.KeepsOrder s1 := s.keepsOrder_setF _ _ _
  have hclosed : s1.KeepsOrder s2 := .of_regs (s1.regs_closeSeqs slice)
  have hstopped : s2.KeepsOrder s3 := by
    refine State.keepsOrder_each (fun s kv => ?_) _ s2
    extract_lets s4 s5
    have hgiven : s.KeepsOrder s4 := s.keepsOrder_setF _ _ _
    have hstop : s4.KeepsOrder s5 := .trans (t := s4.updItem kv.1 _) (.of_regs rfl) (State.keepsOrder_stopItem _ _ _)
    exact hgiven.trans (hstop.trans (.of_regs rfl))
  clear_value s3
  exact State.keepsOrder_ite (.of_regs rfl) (hresetting.trans (hclosed.trans (hstopped.trans (.of_regs rfl))))

theorem State.keepsOrder_secErr (s : State) (code : Nat) : s.KeepsOrder (s.secErr code) :=
  .trans (t := s.setF .SEC_ERR_LAST 0 code) (s.keepsOrder_setF _ _ _) (State.keepsOrder_setF _ .SEC_ERR_COUNT 0 _)

theorem State.keepsOrder_tdiEvent (s : State) (slice : Nat) : s.KeepsOrder (s.tdiEvent slice) := by
  unfold State.tdiEvent
  dsimp only
  split
  · refine State.keepsOrder_ite (State.KeepsOrder.trans ?_ (State.keepsOrder_sliceReset _ slice)) (.of_regs rfl)
    refine State.KeepsOrder.trans ?_ (State.keepsOrder_secErr _ 4)
    exact .of_regs rfl
  · exact .of_regs rfl

end

/-- What the step for one element of a list brings about, and every step then keeps, holds after the list. -/
theorem State.each_reaches {α : Type} {P Q : State → Prop} {f : State → α → State} (hP : ∀ s a, P s → P (f s a)) (hQ : ∀ s a, Q s → Q (f s a))
    {a : α} (hhit : ∀ s, P s → Q (f s a)) {l : List α} (ha : a ∈ l) {s : State} (hs : P s) : Q (s.each l f) := by
  induction l generalizing s with
  | nil => cases ha
  | cons b l ih =>
    rcases List.mem_cons.mp ha with rfl | hl
    · exact State.each_keeps hQ l (hhit s hs)
    · exact ih hl (hP s b hs)

/-! ### Freezing -/

/-- The fields that show how far a slice's freeze has come. -/
def freezeFields : List Fld := [.SLC_STATE_STATE, .SLC_STATE_FREEZE_DONE]

@[simp] theorem State.sliceX_setSliceX (s : State) (slice : Nat) (x : SliceX) : (s.setSliceX slice x).sliceX slice = x := by
  unfold State.sliceX State.setSliceX
  dsimp only
  rw [Tbl.findD_put, if_pos rfl]

theorem State.keeps_unfetch {l : List Fld} (hhead : .QCX_SQ_PTRS_HEAD ∉ l) (hcount : .QCX_CNT_COUNT ∉ l) (s : State) (q : Nat) : s.Keeps l (s.unfetch q) := by
  unfold State.unfetch
  dsimp only
  split
  · exact .of_regs rfl
  · exact .trans (.trans (s.keeps_setF hhead _ _) (State.keeps_setF _ hcount _ _)) (.of_regs rfl)

theorem State.keeps_freezeQueues (s : State) (slice : Nat) : s.Keeps freezeFields (s.freezeQueues slice) := by
  refine State.keeps_each (fun s q => State.keeps_ite (fun _ => ?_) fun _ => .refl s) _ s
  exact .trans (.trans (s.keeps_unfetch (by decide) (by decide) q) (State.keeps_setF _ (f := .QCX_STATE_PRIOR) (by decide) _ _))
    (State.keeps_setF _ (by decide) _ _)

/-- A slice that has been set FROZEN, without FREEZE_DONE, stays so while its queues freeze. -/
theorem State.frozen_freezeQueues {s : State} (hr : s.regs.rising = true) (slice : Nat) :
    let t := ((s.setSlc slice 3).setF .SLC_STATE_FREEZE_DONE slice 0).freezeQueues slice
    t.slcState slice = 3 ∧ t.bitF .SLC_STATE_FREEZE_DONE slice = false := by
  have hkeeps := ((s.setSlc slice 3).setF .SLC_STATE_FREEZE_DONE slice 0).keeps_freezeQueues slice
  have hr1 : (s.setSlc slice 3).regs.rising = true := State.rising_setF hr _ _ _
  constructor
  · unfold State.slcState
    rw [hkeeps.getF _ (by decide), State.getF_setF_ne _ _ _ _ _ _ (by simp)]
    exact State.getF_setF_same hr _ _ _
  · rw [hkeeps.bitF (by decide)]
    unfold State.bitF
    rw [State.getF_setF_same hr1]
    rfl

section
variable {s : State} {i slice : Nat} {x : Item}

theorem execFreezeSlice_refused (hx : s.live i 0x82 = some x) (hslice : slice = x.inl % 4096) (hnew : (s.sliceX slice).freezeItem ≠ some i)
    (hbad : slice = 0 ∨ s.slcState slice ≠ 2) : execFreezeSlice i s = .next (s.finishItem i 7 8 none 0) := by
  subst hslice
  unfold execFreezeSlice
  rw [hx]
  dsimp only
  rw [if_neg hnew, if_pos hbad]
  rfl

theorem execFreezeSlice_freezes (hr : s.regs.rising = true) (hx : s.live i 0x82 = some x) (hslice : slice = x.inl % 4096)
    (hnew : (s.sliceX slice).freezeItem ≠ some i) (hzero : slice ≠ 0) (hlive : s.slcState slice = 2) :
    ∃ t, execFreezeSlice i s = .next t ∧ t.slcState slice = 3 ∧ t.bitF .SLC_STATE_FREEZE_DONE slice = false ∧
      (t.sliceX slice).freezeItem = some i := by
  subst hslice
  unfold execFreezeSlice
  rw [hx]
  dsimp only
  rw [if_neg hnew, if_neg (not_or_intro hzero (not_not_intro hlive))]
  obtain ⟨hstate, hdone⟩ := State.frozen_freezeQueues ((s.keepsOrder_tdiEvent (x.inl % 4096)).rising hr) (x.inl % 4096)
  exact ⟨_, rfl, hstate, hdone, by rw [State.sliceX_setSliceX]⟩

theorem execFreezeDrainDone_none (h : (s.sliceX slice).freezeItem = none) : execFreezeDrainDone slice s = .next s := by
  unfold execFreezeDrainDone
  rw [h]

theorem execFreezeDrainDone_open {j : Nat} (h : (s.sliceX slice).freezeItem = some j) (hopen : s.openItems slice ≠ []) :
    execFreezeDrainDone slice s = .next s := by
  unfold execFreezeDrainDone
  rw [h]
  exact if_neg fun hd => hopen hd.2.1

theorem execFreezeDrainDone_drained {j : Nat} (h : (s.sliceX slice).freezeItem = some j) (hstate : s.slcState slice = 3) (hnone : s.openItems slice = [])
    (hidle : s.bitF .SLC_STATE_RESETTING slice = false) : execFreezeDrainDone slice s =
      .next (((s.setF .SLC_STATE_FREEZE_DONE slice 1).setSliceX slice { s.sliceX slice with freezeItem := none }).finishItem j 0 0 none 0) := by
  unfold execFreezeDrainDone
  rw [h]
  exact if_pos ⟨hstate, hnone, by rw [hidle]; rfl⟩

end

/-! ### Thawing -/

/-- A queue of a slice that opens returns to PRIOR, and is marked ready. -/
def State.thawQueue (s : State) (q : Nat) : State :=
  (if s.qState q = 3 then (s.setF .QCX_STATE_STATE q (s.getF .QCX_STATE_PRIOR q)).setF .QCX_STATE_PRIOR q 0 else s).markReady q

/-- A slice's state is LIVE, before its queues open. -/
def State.opened (s : State) (slice : Nat) : State :=
  ((if s.slcState slice = 3 then s.clearMeter slice else s).setSlc slice 2).setF .SLC_STATE_FREEZE_DONE slice 0

theorem State.thaw_eq (s : State) (slice : Nat) : s.thaw slice = (s.opened slice).each ((s.opened slice).sliceQueues slice) State.thawQueue := rfl

theorem State.keeps_thawQueue {l : List Fld} (hnotice : ∀ f ∈ l, f ∉ noticeFields) (hstate : .QCX_STATE_STATE ∉ l) (hprior : .QCX_STATE_PRIOR ∉ l)
    (s : State) (q : Nat) : s.Keeps l (s.thawQueue q) :=
  .trans (State.keeps_ite (fun _ => .trans (s.keeps_setF hstate _ _) (State.keeps_setF _ hprior _ _)) fun _ => .refl s)
    (State.keeps_markReady hnotice _ q)

/-- A queue waits FROZEN for the state `p`, or has it. -/
structure State.Returns (q p : Nat) (s : State) : Prop where
  order : s.regs.rising = true
  state : (s.qState q = 3 ∧ s.getF .QCX_STATE_PRIOR q = p) ∨ s.qState q = p

/-- A queue has the state `p` again. -/
structure State.Returned (q p : Nat) (s : State) : Prop where
  order : s.regs.rising = true
  state : s.qState q = p

section
variable {s : State} {q p : Nat}

theorem State.rising_thawQueue (hr : s.regs.rising = true) (q : Nat) : (s.thawQueue q).regs.rising = true :=
  (State.keeps_thawQueue (l := []) (by simp) (by simp) (by simp) s q).rising hr

/-- The thaw of another queue, or of one that is not FROZEN, leaves a queue's state and PRIOR. -/
theorem State.getF_thawQueue_other {f : Fld} (hf : f = .QCX_STATE_STATE ∨ f = .QCX_STATE_PRIOR) {n : Nat} (hother : n ≠ q ∨ s.qState n ≠ 3) :
    (s.thawQueue n).getF f q = s.getF f q := by
  have hpend : f ≠ .CIC_PEND := by rcases hf with rfl | rfl <;> decide
  unfold State.thawQueue
  rw [State.getF_markReady _ _ hpend]
  split
  · rename_i h3
    have hne : q ≠ n := fun e => hother.elim (fun h => h e.symm) (fun h => h h3)
    rw [State.getF_setF_ne _ _ _ _ _ _ (fun e => hne e.2), State.getF_setF_ne _ _ _ _ _ _ (fun e => hne e.2)]
  · rfl

theorem State.qState_thawQueue_frozen (hr : s.regs.rising = true) (h3 : s.qState q = 3) (hp : s.getF .QCX_STATE_PRIOR q = p) (hfits : p < 2 ^ 3) :
    (s.thawQueue q).qState q = p := by
  unfold State.thawQueue State.qState
  rw [State.getF_markReady _ _ (by decide), if_pos (show s.getF .QCX_STATE_STATE q = 3 from h3), State.getF_setF_ne _ _ _ _ _ _ (by simp),
    State.getF_setF_same hr, hp]
  exact Nat.mod_eq_of_lt hfits

theorem State.Returned.thawQueue (h : s.Returned q p) (hp : p ≠ 3) (n : Nat) : (s.thawQueue n).Returned q p where
  order := State.rising_thawQueue h.order n
  state := by
    refine (State.getF_thawQueue_other (.inl rfl) ?_).trans h.state
    by_cases hn : n = q
    · exact .inr (by rw [hn, h.state]; exact hp)
    · exact .inl hn

theorem State.Returns.thawQueue_same (h : s.Returns q p) (hp : p < 3) : (s.thawQueue q).Returned q p := by
  rcases h.state with ⟨h3, hprior⟩ | hback
  · exact ⟨State.rising_thawQueue h.order q, State.qState_thawQueue_frozen h.order h3 hprior (by omega)⟩
  · exact State.Returned.thawQueue ⟨h.order, hback⟩ (by omega) q

theorem State.Returns.thawQueue (h : s.Returns q p) (hp : p < 3) (n : Nat) : (s.thawQueue n).Returns q p := by
  by_cases hn : n = q
  · subst hn
    have hback := h.thawQueue_same hp
    exact ⟨hback.order, .inr hback.state⟩
  · refine ⟨State.rising_thawQueue h.order n, ?_⟩
    unfold State.qState
    rw [State.getF_thawQueue_other (.inl rfl) (.inl hn), State.getF_thawQueue_other (.inr rfl) (.inl hn)]
    exact h.state

end

theorem State.regs_clearMeter (s : State) (slice : Nat) : (s.clearMeter slice).regs = s.regs := rfl

theorem State.regs_opened (s : State) (slice : Nat) :
    (s.opened slice).regs = ((s.setSlc slice 2).setF .SLC_STATE_FREEZE_DONE slice 0).regs := by
  unfold State.opened
  split <;> rfl

theorem State.work_queues_opened (s : State) (slice : Nat) : (s.opened slice).work.queues = s.work.queues := by
  unfold State.opened
  split <;> rfl

/-- Opening a slice leaves every field but its state and FREEZE_DONE. -/
theorem State.getF_opened (s : State) (slice : Nat) {f : Fld} (hf : f ∉ freezeFields) (i : Nat) : (s.opened slice).getF f i = s.getF f i := by
  have hstate : f ≠ .SLC_STATE_STATE := fun h => hf (h ▸ by decide)
  have hdone : f ≠ .SLC_STATE_FREEZE_DONE := fun h => hf (h ▸ by decide)
  rw [State.Keeps.getF (.of_regs (s.regs_opened slice)) f (List.mem_singleton_self f), State.getF_setF_ne _ _ _ _ _ _ (fun e => hdone e.1)]
  exact State.getF_setF_ne _ _ _ _ _ _ (fun e => hstate e.1)

theorem State.rising_opened {s : State} (hr : s.regs.rising = true) (slice : Nat) : (s.opened slice).regs.rising = true := by
  rw [s.regs_opened slice]
  exact State.rising_setF (State.rising_setF hr _ _ _) _ _ _

theorem State.sliceQueues_opened (s : State) (slice : Nat) : (s.opened slice).sliceQueues slice = s.sliceQueues slice := by
  unfold State.sliceQueues State.qState State.qSlice
  simp only [s.work_queues_opened slice, s.getF_opened slice (f := .QCX_STATE_STATE) (by decide), s.getF_opened slice (f := .QCX_OWNER_SLICE) (by decide)]

theorem State.thawed (s : State) (hr : s.regs.rising = true) (slice : Nat) : (s.thaw slice).slcState slice = 2 ∧
    (s.thaw slice).bitF .SLC_STATE_FREEZE_DONE slice = false ∧
    ∀ q ∈ s.sliceQueues slice, s.qState q = 3 → s.getF .QCX_STATE_PRIOR q = 1 ∨ s.getF .QCX_STATE_PRIOR q = 2 →
      (s.thaw slice).qState q = s.getF .QCX_STATE_PRIOR q := by
  rw [s.thaw_eq, s.sliceQueues_opened]
  have hkeeps : (s.opened slice).Keeps freezeFields ((s.opened slice).each (s.sliceQueues slice) State.thawQueue) :=
    State.keeps_each (State.keeps_thawQueue (by decide) (by decide) (by decide)) _ _
  have hr1 : (s.setSlc slice 2).regs.rising = true := State.rising_setF hr _ _ _
  refine ⟨?_, ?_, fun q hq h3 hprior => ?_⟩
  · unfold State.slcState
    rw [hkeeps.getF _ (by decide), State.Keeps.getF (.of_regs (s.regs_opened slice)) _ (List.mem_singleton_self _), State.getF_setF_ne _ _ _ _ _ _ (by simp)]
    exact State.getF_setF_same hr _ _ _
  · rw [hkeeps.bitF (by decide), State.Keeps.bitF (.of_regs (s.regs_opened slice)) (List.mem_singleton_self _)]
    unfold State.bitF
    rw [State.getF_setF_same hr1]
    rfl
  · have hp : s.getF .QCX_STATE_PRIOR q < 3 := by omega
    refine (State.each_reaches (P := State.Returns q _) (Q := State.Returned q _) (fun s n h => h.thawQueue hp n)
      (fun s n h => h.thawQueue (by omega) n) (fun s h => h.thawQueue_same hp) hq ⟨State.rising_opened hr slice, .inl ⟨?_, ?_⟩⟩).state
    · exact (s.getF_opened slice (by decide) q).trans h3
    · exact s.getF_opened slice (by decide) q

section
variable {s : State} {i slice : Nat} {x : Item}

theorem execThaw_refused (hx : s.live i 0x85 = some x) (hslice : slice = x.inl % 4096)
    (hbad : slice = 0 ∨ (s.slcState slice ≠ 1 ∧ ¬ (s.slcState slice = 3 ∧ s.bitF .SLC_STATE_FREEZE_DONE slice = true))) :
    execThaw i s = .next (s.finishItem i 7 8 none 0) := by
  subst hslice
  unfold execThaw
  rw [hx]
  dsimp only
  have hnot : ¬ (s.slcState (x.inl % 4096) = 3 ∧ s.bitF .SLC_STATE_FREEZE_DONE (x.inl % 4096) = true) →
      s.slcState (x.inl % 4096) ≠ 3 ∨ s.bitF .SLC_STATE_FREEZE_DONE (x.inl % 4096) = false := fun h => by
    rw [← Bool.not_eq_true]
    exact not_and_or.mp h
  rw [if_pos (hbad.imp_right fun h => by simpa using ⟨h.1, hnot h.2⟩)]
  rfl

theorem execThaw_opens (hx : s.live i 0x85 = some x) (hslice : slice = x.inl % 4096) (hzero : slice ≠ 0)
    (hgood : s.slcState slice = 1 ∨ (s.slcState slice = 3 ∧ s.bitF .SLC_STATE_FREEZE_DONE slice = true))
    (hidle : s.bitF .SLC_STATE_RESETTING slice = false) : execThaw i s = .next ((s.thaw slice).finishItem i 0 0 none 0) := by
  subst hslice
  unfold execThaw
  rw [hx]
  dsimp only
  rw [if_neg (not_or_intro hzero (by rcases hgood with h | ⟨h, hd⟩ <;> simp [*])), if_neg (by simp [hidle])]
  rfl

end

/-! ### Slice reset -/

section
variable {s : State} {slice : Nat}

theorem execSlcReset_unbound (hunbound : s.bitF .SLC_HOST_BOUND slice = false) : execSlcReset slice s = .next (s.sliceReset slice) := by
  unfold execSlcReset
  rw [State.tdiEvent_unbound hunbound]

theorem State.sliceReset_absorbed
    (h : slice = 0 ∨ s.slcState slice = 0 ∨ 4 ≤ s.slcState slice ∨ s.bitF .SLC_STATE_RESETTING slice = true) : s.sliceReset slice = s := if_pos h

/-- No TLB entry of a slice is left, and no codebook slot of it that is not stale. -/
structure State.Untagged (slice : Nat) (s : State) : Prop where
  tlb : ∀ e ∈ s.mem.tlb, e.slice ≠ slice
  cb : ∀ c ∈ s.work.cb, c.2.slice = slice → c.2.stale = true

theorem State.untagged_dropTags (s : State) (slice : Nat) : ((s.dropTags slice).clearTurns slice).Untagged slice where
  tlb e he := by simpa using (List.mem_filter.mp he).2
  cb c hc hslice := by
    obtain ⟨d, -, rfl⟩ := List.mem_map.mp hc
    dsimp only at hslice ⊢
    split
    · rfl
    · rename_i hne
      rw [if_neg hne] at hslice
      exact absurd hslice hne

theorem State.sliceReset_runs (hzero : slice ≠ 0) (hlive : s.slcState slice ≠ 0) (hlow : s.slcState slice < 4)
    (hidle : s.bitF .SLC_STATE_RESETTING slice = false) : ∃ u : State, s.sliceReset slice = (u.dropTags slice).clearTurns slice ∧
      (s.sliceItems slice = [] → s.sliceSeqs slice = [] → u = s.setF .SLC_STATE_RESETTING slice 1) := by
  have hruns : ¬ (slice = 0 ∨ s.slcState slice = 0 ∨ 4 ≤ s.slcState slice ∨ s.bitF .SLC_STATE_RESETTING slice = true) := by
    rw [hidle]
    simp only [Bool.false_eq_true, or_false]
    omega
  unfold State.sliceReset
  dsimp only
  rw [if_neg hruns]
  refine ⟨_, rfl, fun hitems hseqs => ?_⟩
  have hclosed : (s.setF .SLC_STATE_RESETTING slice 1).closeSeqs slice = s.setF .SLC_STATE_RESETTING slice 1 := by
    unfold State.closeSeqs
    rw [show (s.setF .SLC_STATE_RESETTING slice 1).sliceSeqs slice = [] from hseqs]
    rfl
  rw [hclosed, show (s.setF .SLC_STATE_RESETTING slice 1).sliceItems slice = [] from hitems]
  rfl

end

/-! ### The end of a slice reset -/

section
variable {s : State} {q : Nat}

theorem State.readyAt_markReady_kept (h : (s.qx q).readyAt.isSome = true) (n : Nat) : ((s.markReady n).qx q).readyAt.isSome = true := by
  unfold State.markReady
  dsimp only
  split
  · have hset : ((s.setQx n { s.qx n with readyAt := some s.now }).qx q).readyAt.isSome = true := by
      unfold State.qx State.setQx
      dsimp only
      rw [Tbl.findD_put]
      split
      · rfl
      · exact h
    split
    · rw [State.qx_congr (by rw [(State.notifies_cicEvent _ 0 4).rest])]
      exact hset
    · exact hset
  · exact h

theorem State.readyAt_markReady_ahead (hahead : s.getF .QCX_SQ_PTRS_TAIL q ≠ s.getF .QCX_SQ_PTRS_HEAD q) :
    ((s.markReady q).qx q).readyAt.isSome = true := by
  cases hready : (s.qx q).readyAt with
  | none => rw [State.readyAt_markReady hahead hready]; rfl
  | some t => exact State.readyAt_markReady_kept (by rw [hready]; rfl) q

theorem State.mem_markReady (s : State) (n : Nat) : (s.markReady n).mem = s.mem := by
  unfold State.markReady
  dsimp only
  split
  · split
    · rw [(State.notifies_cicEvent _ 0 4).rest]
      rfl
    · rfl
  · rfl

variable {slice : Nat}

theorem execSliceResetDone_held (h : s.bitF .SLC_STATE_RESETTING slice = false ∨ s.sliceHeld slice = true) :
    execSliceResetDone slice s = .next s := by
  unfold execSliceResetDone
  rw [if_neg (by rcases h with h | h <;> simp [h])]

/-- What a queue's fetch goes by: its tail and its head. -/
def ptrFields : List Fld := [.QCX_SQ_PTRS_TAIL, .QCX_SQ_PTRS_HEAD]

theorem execSliceResetDone_ends (hr : s.regs.rising = true) (hresetting : s.bitF .SLC_STATE_RESETTING slice = true) (hfree : s.sliceHeld slice = false) :
    ∃ t, execSliceResetDone slice s = .next t ∧ t.bitF .SLC_STATE_RESETTING slice = false ∧ t.mem = s.mem ∧
      ∀ q ∈ s.sliceQueues slice, s.getF .QCX_SQ_PTRS_TAIL q ≠ s.getF .QCX_SQ_PTRS_HEAD q → (t.qx q).readyAt.isSome = true := by
  unfold execSliceResetDone
  rw [if_pos ⟨hresetting, by rw [hfree]; rfl⟩]
  refine ⟨_, rfl, ?_, State.each_keeps (P := fun t => t.mem = s.mem) (fun t n h => (t.mem_markReady n).trans h) _ rfl, fun q hq hahead => ?_⟩
  · rw [(State.keeps_each (l := [.SLC_STATE_RESETTING]) (State.keeps_markReady (by decide)) _ _).bitF (List.mem_singleton_self _)]
    unfold State.bitF
    rw [State.getF_setF_same hr]
    rfl
  · have hcleared : s.Keeps ptrFields (s.setF .SLC_STATE_RESETTING slice 0) := s.keeps_setF (by decide) _ _
    refine State.each_reaches (P := fun t => s.Keeps ptrFields t) (Q := fun t => (t.qx q).readyAt.isSome = true)
      (fun t n h => h.trans (t.keeps_markReady (by decide) n)) (fun t n h => State.readyAt_markReady_kept h n) (fun t h => ?_) hq hcleared
    refine State.readyAt_markReady_ahead ?_
    rw [h.getF _ (by decide), h.getF _ (by decide)]
    exact hahead

end

/-! ### A function-level reset -/

/-- A function's MSI-X state is lost. -/
def State.dropMsix (s : State) (port vf : Nat) : State :=
  let lo := msixKey port (some vf) 0
  { s with mbx := { s.mbx with msix := s.mbx.msix.keep (fun k _ => decide (k < lo ∨ lo + 64 ≤ k)) } }

theorem State.msix_dropMsix (s : State) (port vf : Nat) {n : Nat} (hn : n < 64) :
    (s.dropMsix port vf).mbx.msix.find (msixKey port (some vf) 0 + n) = none := by
  rw [Option.eq_none_iff_forall_ne_some]
  intro v hv
  have hkept := Tbl.sat_of_find_keep (t := s.mbx.msix)
    (p := fun k _ => decide (k < msixKey port (some vf) 0 ∨ msixKey port (some vf) 0 + 64 ≤ k)) hv
  simp only [decide_eq_true_eq] at hkept
  omega

theorem State.regs_dropMsix (s : State) (port vf : Nat) : (s.dropMsix port vf).regs = s.regs := rfl

theorem State.sliceOfVf_congr {s t : State} (h : t.regs = s.regs) (port vf : Nat) : t.sliceOfVf port vf = s.sliceOfVf port vf := by
  unfold State.sliceOfVf State.slcState State.bitF State.getF
  rw [h]

theorem execFunctionLevelReset_bound {s : State} {port vf k : Nat} (hk : s.sliceOfVf port vf = some k) :
    execFunctionLevelReset port vf s = .next (((s.dropMsix port vf).sliceReset k).drawAts k) := by
  rw [← State.sliceOfVf_congr (s.regs_dropMsix port vf) port vf] at hk
  unfold execFunctionLevelReset
  unfold State.dropMsix at hk ⊢
  dsimp only at hk ⊢
  rw [hk]

theorem execFunctionLevelReset_free {s : State} {port vf : Nat} (hnone : s.sliceOfVf port vf = none) :
    execFunctionLevelReset port vf s = .next (s.dropMsix port vf) := by
  rw [← State.sliceOfVf_congr (s.regs_dropMsix port vf) port vf] at hnone
  unfold execFunctionLevelReset
  unfold State.dropMsix at hnone ⊢
  dsimp only at hnone ⊢
  rw [hnone]

/-! ### The statement -/

/-- Settles O52: a freeze, a thaw and a slice reset by the slice's state, the last through the tags that it drops at its end. -/
theorem sliceFreezeAndReset : Obligations.SliceFreezeAndReset := by
  refine fun s i slice port vf x hr => ⟨fun hx hslice hnew => ⟨execFreezeSlice_refused hx hslice hnew, execFreezeSlice_freezes hr hx hslice hnew⟩,
    fun j hj => ⟨execFreezeDrainDone_drained hj, execFreezeDrainDone_open hj⟩, execFreezeDrainDone_none, fun hx hslice => ⟨execThaw_refused hx hslice,
    fun hzero hgood hidle => ⟨s.thaw slice, execThaw_opens hx hslice hzero hgood hidle, s.thawed hr slice⟩⟩, fun hunbound => ?reset,
    ⟨s.dropMsix port vf, rfl, rfl, rfl, fun n => s.msix_dropMsix port vf, ?flr⟩, execSliceResetDone_ends hr,
    execSliceResetDone_held⟩
  case flr =>
    have hexec : exec (.functionLevelReset port vf) s = execFunctionLevelReset port vf s := rfl
    rw [hexec]
    cases hk : s.sliceOfVf port vf with
    | some k => exact execFunctionLevelReset_bound hk
    | none => exact execFunctionLevelReset_free hk
  have hexec : exec (.slcReset slice) s = execSlcReset slice s := rfl
  rw [hexec, execSlcReset_unbound hunbound]
  refine ⟨fun h => congrArg _ (State.sliceReset_absorbed h), fun hzero hlive hlow hidle => ?_⟩
  obtain ⟨u, hu, hnone⟩ := State.sliceReset_runs hzero hlive hlow hidle
  have huntagged := u.untagged_dropTags slice
  rw [← hu] at huntagged
  exact ⟨⟨_, rfl, huntagged.tlb, huntagged.cb⟩, fun hitems hseqs => by rw [hu, hnone hitems hseqs]⟩

end Sys2Proof.Machine
end

section

/-!
SUPPORT. Removal of slices (R331, R345–R348, R376, R396): what a scrub leaves of the memory that it has done, what a zeroisation and an emptied slice
show, and the settling of O53.
-/

namespace Sys2Proof.Machine

/-! ### Key slots -/

@[simp] theorem State.keySlot_setKey (s : State) (k : Nat) (f : KeySlot → KeySlot) : (s.setKey k f).keySlot k = f (s.keySlot k) := by
  unfold State.setKey State.keySlot
  dsimp only
  rw [Tbl.findD_put, if_pos rfl]

@[simp] theorem State.keySlot_setF (s : State) (f : Fld) (i v k : Nat) : (s.setF f i v).keySlot k = s.keySlot k := rfl

theorem State.sliceKey_congr {s t : State} {slice : Nat} (h : t.getF .SLC_STATE_KEY slice = s.getF .SLC_STATE_KEY slice) :
    t.sliceKey slice = s.sliceKey slice := by
  unfold State.sliceKey
  rw [h]

/-! ### A scrub (R376) -/

/-- The bytes of a range of memory are not stored. -/
def State.Scrubbed (s : State) (off n : Nat) : Prop := ∀ c ∈ s.mem.cells, c.1 < off ∨ off + n ≤ c.1

/-- `t` stores no byte that `s` does not, and is `s` but for memory, durable pages and the count of free values. -/
structure State.Scrubs (s t : State) : Prop where
  rest : s.WritesMem t
  cells : ∀ c ∈ t.mem.cells, c ∈ s.mem.cells

section
variable {s t u : State} {off n : Nat}

theorem State.Scrubs.refl (s : State) : s.Scrubs s := ⟨rfl, fun _ h => h⟩

theorem State.Scrubs.trans (h : s.Scrubs t) (k : t.Scrubs u) : s.Scrubs u := ⟨h.rest.trans k.rest, fun c hc => h.cells c (k.cells c hc)⟩

theorem State.Scrubs.scrubbed (h : s.Scrubs t) (k : s.Scrubbed off n) : t.Scrubbed off n := fun c hc => k c (h.cells c hc)

theorem State.scrubs_scrubRange (s : State) (off n : Nat) : s.Scrubs (s.scrubRange off n) := ⟨rfl, fun _ hc => (List.mem_filter.mp hc).1⟩

theorem State.scrubbed_scrubRange (s : State) (off n : Nat) : (s.scrubRange off n).Scrubbed off n := fun _ hc =>
  of_decide_eq_true (List.mem_filter.mp hc).2

theorem State.scrubs_coverStore (h : s.coverStore off n = some t) : s.Scrubs t := by
  unfold State.coverStore at h
  dsimp only at h
  split at h
  · cases h
    exact .refl s
  · split at h
    · cases h
    · cases h
      exact ⟨rfl, fun _ hc => hc⟩

theorem State.scrubPages_covered (h : s.coverStore off 4096 = some t) (n : Nat) :
    s.scrubPages (n + 1) off = (t.scrubRange off 4096).scrubPages n (off + 4096) := by
  rw [State.scrubPages, h]

theorem State.scrubPages_uncovered (h : s.coverStore off 4096 = none) (n : Nat) : s.scrubPages (n + 1) off = (n + 1, s) := by
  rw [State.scrubPages, h]

theorem State.scrubs_scrubPages (n off : Nat) (s : State) : s.Scrubs (s.scrubPages n off).2 := by
  induction n generalizing s off with
  | zero => exact .refl s
  | succ n ih =>
    cases hcover : s.coverStore off 4096 with
    | some t =>
      rw [State.scrubPages_covered hcover]
      exact ((State.scrubs_coverStore hcover).trans (t.scrubs_scrubRange off 4096)).trans (ih _ _)
    | none =>
      rw [State.scrubPages_uncovered hcover]
      exact .refl s

/-- Pages that are all done hold no byte. -/
theorem State.scrubbed_scrubPages (n off : Nat) (s : State) (hdone : (s.scrubPages n off).1 = 0) : (s.scrubPages n off).2.Scrubbed off (n * 4096) := by
  induction n generalizing s off with
  | zero =>
    intro c _
    omega
  | succ n ih =>
    cases hcover : s.coverStore off 4096 with
    | some t =>
      rw [State.scrubPages_covered hcover] at hdone ⊢
      have hfirst := (State.scrubs_scrubPages n (off + 4096) (t.scrubRange off 4096)).scrubbed (t.scrubbed_scrubRange off 4096)
      have hlater := ih (off + 4096) (t.scrubRange off 4096) hdone
      intro c hc
      have h1 := hfirst c hc
      have h2 := hlater c hc
      omega
    | none =>
      rw [State.scrubPages_uncovered hcover] at hdone
      cases hdone

theorem State.scrubs_scrubAll (l : List (Nat × Nat)) (s : State) : s.Scrubs (s.scrubAll l).2 := by
  induction l generalizing s with
  | nil => exact .refl s
  | cons r l ih =>
    have hpages := State.scrubs_scrubPages (r.2 / 4096) r.1 s
    unfold State.scrubAll
    split <;> rename_i hr <;> rw [hr] at hpages
    · exact hpages.trans (ih _)
    · exact hpages

/-- Ranges of which none is left hold no byte of a whole page. -/
theorem State.scrubbed_scrubAll (l : List (Nat × Nat)) (s : State) (hdone : (s.scrubAll l).1 = []) :
    ∀ r ∈ l, (s.scrubAll l).2.Scrubbed r.1 (r.2 / 4096 * 4096) := by
  induction l generalizing s with
  | nil => intro r hr; cases hr
  | cons r l ih =>
    have hpages := State.scrubbed_scrubPages (r.2 / 4096) r.1 s
    unfold State.scrubAll at hdone ⊢
    split at hdone
    · rename_i t hr
      rw [hr] at hpages
      intro r' hr'
      rcases List.mem_cons.mp hr' with rfl | hl
      · exact (State.scrubs_scrubAll l t).scrubbed (hpages rfl)
      · exact ih t hdone r' hl
    · cases hdone

/-- What a scrub leaves but for memory: SLC_SCRUB and the ranges still to write. -/
theorem State.scrubOn_eq {done : Bool} {slice : Nat} (h : s.scrubOn slice = (done, u)) : ∃ t l, s.Scrubs t ∧ u = t.setScrub slice l ∧
    (done = true → ∀ r ∈ s.slices.scrubLeft.findD slice [], t.Scrubbed r.1 (r.2 / 4096 * 4096)) := by
  unfold State.scrubOn at h
  dsimp only at h
  obtain ⟨rfl, rfl⟩ := Prod.mk.inj h
  exact ⟨_, _, State.scrubs_scrubAll _ s, rfl, fun hdone => State.scrubbed_scrubAll _ s (of_decide_eq_true hdone)⟩

end

/-! ### A manager cause (R354) -/

/-- The manager's cause register. -/
def causeFields : List Fld := [.CIC_MCAUSE_CAUSE]

theorem State.keeps_sendMsix_cause (s : State) (port : Nat) (vf : Option Nat) (entry : Nat) : s.Keeps causeFields (s.sendMsix port vf entry) := by
  unfold State.sendMsix
  dsimp only
  split
  · exact .of_regs rfl
  · exact .trans (t := s.emit _) (.of_regs rfl) (State.keeps_bumpF _ (by decide) _ _)

theorem State.keeps_signalVector_cause (s : State) (port : Option Nat) (v : Nat) : s.Keeps causeFields (s.signalVector port v) := by
  unfold State.signalVector
  split
  · exact .trans (t := s.toPort _ _ _) (.of_regs rfl) (State.keeps_bumpF _ (by decide) _ _)
  · exact s.keeps_bumpF (by decide) _ _

theorem State.keeps_managerVector_cause (s : State) (v : Nat) : s.Keeps causeFields (s.managerVector v) := by
  unfold State.managerVector
  split
  · exact s.keeps_signalVector_cause _ v
  · split
    · exact s.keeps_sendMsix_cause 0 none v
    · exact s.keeps_signalVector_cause _ v
    · exact .trans (t := s.emit _) (.of_regs rfl) (State.keeps_bumpF _ (by decide) _ _)
    · exact .refl s

/-- A cause that is raised stands in the register, whether or not its vector goes out. -/
theorem State.bitOf_managerCause {s : State} (hr : s.regs.rising = true) {v : Nat} (hv : v - 1 < Fld.width .CIC_MCAUSE_CAUSE) :
    (s.managerCause v).bitOf .CIC_MCAUSE_CAUSE 0 (v - 1) = true := by
  unfold State.managerCause
  dsimp only
  split
  · assumption
  · have hset := State.bitOf_setBit hr hv 0 true
    split
    · exact ((State.keeps_managerVector_cause _ v).bitOf (by decide) 0 (v - 1)).trans hset
    · exact hset

/-! ### What a removal leaves alone -/

/-- A slice's state. -/
def slcStateFields : List Fld := [.SLC_STATE_STATE]

section
variable {s t u : State} {slice : Nat}

theorem State.slices_pickleNext (s : State) :
    s.pickleNext.slices = { s.slices with
      drbg := s.pickleNext.slices.drbg, seeds := s.pickleNext.slices.seeds, sinceSeed := s.pickleNext.slices.sinceSeed,
      oneTime := s.pickleNext.slices.oneTime } := by
  unfold State.pickleNext State.oneTimeKey
  split
  · rfl
  · split <;> rfl

theorem State.mem_pickleNext (s : State) : s.pickleNext.mem = s.mem := by
  unfold State.pickleNext State.oneTimeKey
  split
  · rfl
  · split <;> rfl

theorem State.keeps_pickleNext (s : State) : s.Keeps slcStateFields s.pickleNext := by
  unfold State.pickleNext
  split
  · exact .trans (s.keeps_setF (f := .SEC_PICKLE_BUSY) (by decide) 0 0) (State.keeps_setF _ (by decide) 0 0)
  · refine .trans (t := s.oneTimeKey _) ?_ (.trans (State.keeps_setF _ (f := .SEC_PICKLE_BUSY) (by decide) 0 1) (State.keeps_setF _ (by decide) 0 _))
    unfold State.oneTimeKey
    split
    · exact .refl s
    · exact .of_regs rfl

/-- `t` is `s` but for memory and coherence. -/
def State.Flushes (s t : State) : Prop := t = { s with mem := t.mem, coh := t.coh }

theorem State.flushes_flushSlot (s : State) (key : Nat) : s.Flushes (s.flushSlot key) := by
  refine State.each_keeps (P := s.Flushes) (fun t l ht => ?_) _ rfl
  have hback : t.Flushes (t.writeBack (l * 64)) := by
    unfold State.writeBack State.storeLine
    split
    · dsimp only
      split <;> exact rfl
    · exact rfl
  have htrans : ∀ {a b c : State}, a.Flushes b → b.Flushes c → a.Flushes c := fun hab hbc => by
    unfold State.Flushes at *
    rw [hbc, hab]
  refine htrans ht (htrans hback ?_)
  unfold State.updEnt
  dsimp only
  split <;> exact rfl

/-! ### An emptied slice -/

/-- A field of a slice is at its reset value. -/
def State.resetFld (slice : Nat) (s : State) (f : Fld) : State := s.setF f slice f.reset

theorem State.slcState_resetFld (hr : s.regs.rising = true) {f : Fld} (h : f = .SLC_STATE_STATE ∨ s.slcState slice = 0) :
    (State.resetFld slice s f).slcState slice = 0 := by
  by_cases hf : f = .SLC_STATE_STATE
  · subst hf
    exact State.getF_setF_same hr _ _ _
  · exact (State.getF_setF_ne _ _ _ _ _ _ fun e => hf e.1.symm).trans (h.resolve_left hf)

theorem State.slcState_resetFlds {l : List Fld} (hl : .SLC_STATE_STATE ∈ l) (hr : s.regs.rising = true) (slice : Nat) :
    (s.each l (State.resetFld slice)).regs.rising = true ∧ (s.each l (State.resetFld slice)).slcState slice = 0 :=
  have hstep : ∀ (t : State) (f : Fld), t.regs.rising = true → (State.resetFld slice t f).regs.rising = true := fun _ _ ht => State.rising_setF ht _ _ _
  State.each_reaches (P := fun t => t.regs.rising = true) (Q := fun t => t.regs.rising = true ∧ t.slcState slice = 0) hstep
    (fun t f ht => ⟨hstep t f ht.1, State.slcState_resetFld ht.1 (.inr ht.2)⟩)
    (fun t ht => ⟨hstep t .SLC_STATE_STATE ht, State.slcState_resetFld ht (.inl rfl)⟩) hl hr

theorem State.emptySlice_eq (s : State) (slice : Nat) : s.emptySlice slice =
    { s.each slcFields (State.resetFld slice) with slices := { (s.each slcFields (State.resetFld slice)).slices with
      ext := (s.each slcFields (State.resetFld slice)).slices.ext.del slice } } := by
  unfold State.emptySlice
  generalize slcFields = l
  rfl

theorem State.slcState_emptySlice (hr : s.regs.rising = true) (slice : Nat) :
    (s.emptySlice slice).regs.rising = true ∧ (s.emptySlice slice).slcState slice = 0 := by
  have hfields := State.slcState_resetFlds (show Fld.SLC_STATE_STATE ∈ slcFields by decide) hr slice
  rw [s.emptySlice_eq]
  generalize s.each slcFields (State.resetFld slice) = t at hfields ⊢
  exact hfields

theorem State.rest_emptySlice (s : State) (slice : Nat) :
    (s.emptySlice slice).mem = s.mem ∧ (s.emptySlice slice).slices.scrub = s.slices.scrub := by
  have hfields := State.each_keeps (P := fun t => t.mem = s.mem ∧ t.slices.scrub = s.slices.scrub) (f := State.resetFld slice) (fun _ _ h => h)
    slcFields ⟨rfl, rfl⟩
  rw [s.emptySlice_eq]
  generalize s.each slcFields (State.resetFld slice) = t at hfields ⊢
  exact hfields

end

/-! ### The commands -/

section
variable {s u : State} {i slice slot : Nat} {x : Item}

theorem execRetireSlice_refused (hx : s.live i 0x86 = some x) (hslice : slice = x.inl % 4096) (hnew : (s.sliceX slice).retireItem ≠ some i)
    (hbad : slice = 0 ∨ s.slcState slice = 0 ∨ 4 ≤ s.slcState slice ∨ s.hdmUses (s.sliceKey slice) = true) :
    execRetireSlice i s = .next (s.finishItem i 7 8 none 0) := by
  subst hslice
  unfold execRetireSlice
  rw [hx]
  dsimp only
  rw [if_neg hnew, if_pos hbad]
  rfl

theorem execRetireSlice_retires (hx : s.live i 0x86 = some x) (hslice : slice = x.inl % 4096) (hnew : (s.sliceX slice).retireItem ≠ some i)
    (hzero : slice ≠ 0) (hlive : s.slcState slice ≠ 0) (hlow : s.slcState slice < 4) (hunused : s.hdmUses (s.sliceKey slice) = false) :
    execRetireSlice i s = .next ((s.tdiEvent slice).retireSlice slice i) := by
  subst hslice
  unfold execRetireSlice
  rw [hx]
  dsimp only
  rw [if_neg hnew, if_neg (by rw [hunused]; simp only [Bool.false_eq_true, or_false]; omega)]

/-- A slice that is being retired shows its key slot DRAINING, and it is. -/
theorem State.draining_retireSlice (s : State) (slice i : Nat) : (s.retireSlice slice i).getF .SLC_STATE_KEYST slice = 2 ∧
    ((s.retireSlice slice i).keySlot ((s.retireSlice slice i).sliceKey slice)).state = .draining := by
  unfold State.retireSlice
  extract_lets
  rename_i _ _ _ _ _ _ t
  clear_value t
  have hkey : ((t.setKey (t.sliceKey slice) (fun k => { k with state := .draining })).setF .SLC_STATE_KEYST slice 2).sliceKey slice = t.sliceKey slice :=
    State.sliceKey_congr (State.getF_setF_ne _ _ _ _ _ _ (by simp))
  exact ⟨State.getF_setF_stored _ (by decide) (by decide) slice, by rw [hkey, State.keySlot_setF, State.keySlot_setKey]⟩

theorem execRetireKeyZeroise_waits (h : s.slcState slice ≠ 4 ∨ s.sliceQueues slice ≠ [] ∨ s.heldRefs slice ≠ 0) :
    execRetireKeyZeroise slice s = .next s := if_neg (by tauto)

/-- A slice as its key is zeroised: SCRUBBING, its ranges to be scrubbed, and in Pickle's queue. -/
def State.zeroised (s : State) (slice : Nat) : State :=
  let key := s.sliceKey slice
  let s := s.flushSlot key
  let s := (s.setKey key (fun k => { k with zeroised := true, since := s.now })).setF .SLC_STATE_ZEROISED slice 1
  let s := (s.setSlc slice 5).setScrub slice (s.scrubRanges slice)
  { s with slices := { s.slices with scrub := s.slices.scrub ++ [slice] } }

/-- What a zeroisation shows. -/
structure State.ShowsZeroised (s : State) (slice : Nat) (t : State) : Prop where
  state : t.slcState slice = 5
  gone : (t.keySlot (s.sliceKey slice)).zeroised = true
  since : (t.keySlot (s.sliceKey slice)).since = s.now
  scrub : t.slices.scrub = s.slices.scrub ++ [slice]
  ext : t.slices.ext = s.slices.ext

theorem State.zeroised_shows (s : State) (slice : Nat) : s.ShowsZeroised slice (s.zeroised slice) := by
  unfold State.zeroised
  extract_lets key s1 s2 s3
  have hflush : s.Flushes s1 := s.flushes_flushSlot key
  have hslices : s1.slices = s.slices ∧ s1.now = s.now := by
    rw [show s1 = _ from hflush]
    exact ⟨rfl, rfl⟩
  obtain ⟨hslices, hnow⟩ := hslices
  clear_value s1
  have hkey : s2.keySlot key = { s1.keySlot key with zeroised := true, since := s1.now } := by
    unfold s2
    rw [State.keySlot_setF, State.keySlot_setKey]
  have hrest : s2.slices.scrub = s.slices.scrub ∧ s2.slices.ext = s.slices.ext := by
    rw [← hslices]
    exact ⟨rfl, rfl⟩
  have hstate : s3.slcState slice = 5 :=
    ((State.keeps_setScrub (l := slcStateFields) (by decide) _ slice _).getF _ (by decide) slice).trans
      (State.getF_setF_stored s2 (f := .SLC_STATE_STATE) (by decide) (by decide) slice)
  have hkey3 : s3.keySlot key = s2.keySlot key := rfl
  have hrest3 : s3.slices.scrub = s2.slices.scrub ∧ s3.slices.ext = s2.slices.ext := ⟨rfl, rfl⟩
  clear_value s3 s2
  have hkey' := hkey3.trans hkey
  exact ⟨hstate, congrArg KeySlot.zeroised hkey', (congrArg KeySlot.since hkey').trans hnow, congrArg (· ++ [slice]) (hrest3.1.trans hrest.1),
    hrest3.2.trans hrest.2⟩

theorem State.ShowsZeroised.pickleNext {t : State} (h : s.ShowsZeroised slice t) : s.ShowsZeroised slice t.pickleNext := by
  have hslices := t.slices_pickleNext
  have hkeys : ∀ k, t.pickleNext.keySlot k = t.keySlot k := fun k => by
    unfold State.keySlot
    rw [hslices]
  exact ⟨(t.keeps_pickleNext.getF _ (by decide) slice).trans h.state, by rw [hkeys]; exact h.gone, by rw [hkeys]; exact h.since,
    by rw [hslices]; exact h.scrub, by rw [hslices]; exact h.ext⟩

theorem execRetireKeyZeroise_zeroises {j : Nat} (hstate : s.slcState slice = 4) (hqueues : s.sliceQueues slice = []) (hrefs : s.heldRefs slice = 0)
    (hitem : (s.sliceX slice).retireItem = some j) : ∃ v : State, execRetireKeyZeroise slice s = .next (v.finishItem j 0 0 none 0) ∧
      v.slcState slice = 5 ∧ (v.keySlot (s.sliceKey slice)).zeroised = true ∧ (v.keySlot (s.sliceKey slice)).since = s.now ∧
      v.slices.scrub = s.slices.scrub ++ [slice] := by
  have hexec : ∃ t, s.ShowsZeroised slice t ∧ execRetireKeyZeroise slice s = (match (t.sliceX slice).retireItem with
      | some i => .next ((t.setSliceX slice { t.sliceX slice with retireItem := none }).finishOk i 0) | none => .next t : Result) := by
    unfold execRetireKeyZeroise
    rw [if_pos ⟨hstate, hqueues, hrefs⟩]
    refine ⟨if (_ : Bool) = true then (s.zeroised slice).pickleNext else s.zeroised slice, ?_, rfl⟩
    split
    · exact (s.zeroised_shows slice).pickleNext
    · exact s.zeroised_shows slice
  obtain ⟨t, hshows, hexec⟩ := hexec
  have hext : (t.sliceX slice).retireItem = some j := by
    unfold State.sliceX
    rw [hshows.ext]
    exact hitem
  rw [hext] at hexec
  exact ⟨_, hexec, hshows.state, hshows.gone, hshows.since, hshows.scrub⟩

/-! ### The end of a scrub -/

theorem execScrubComplete_waits (h : s.slcState slice ≠ 5 ∨ s.slices.scrub.head? ≠ some slice) : execScrubComplete slice s = .next s :=
  if_neg (by tauto)

section
variable (hstate : s.slcState slice = 5) (hfirst : s.slices.scrub.head? = some slice)
include hstate hfirst

theorem execScrubComplete_uncovered (h : s.scrubOn slice = (false, u)) : execScrubComplete slice s = .next u.cleanStart := by
  unfold execScrubComplete
  rw [if_pos ⟨hstate, hfirst⟩, h]

theorem execScrubComplete_empties (hr : s.regs.rising = true) (h : s.scrubOn slice = (true, u)) : ∃ t, execScrubComplete slice s = .next t ∧
    t.slcState slice = 0 ∧ t.bitOf .CIC_MCAUSE_CAUSE 0 5 = true ∧ t.slices.scrub = s.slices.scrub.tail ∧ t.mem.cells = u.mem.cells := by
  obtain ⟨w, l, hscrubs, rfl, -⟩ := State.scrubOn_eq h
  unfold execScrubComplete
  rw [if_pos ⟨hstate, hfirst⟩, h]
  refine ⟨_, rfl, ?_⟩
  have hrw : w.regs.rising = true := by rw [hscrubs.rest.regs]; exact hr
  obtain ⟨hr1, hempty⟩ := State.slcState_emptySlice (s := w.setScrub slice l) (State.rising_setF hrw _ _ _) slice
  obtain ⟨hmem, hscrub⟩ := (w.setScrub slice l).rest_emptySlice slice
  have hscrub' : ((w.setScrub slice l).emptySlice slice).slices.scrub = s.slices.scrub := hscrub.trans (by
    rw [show w = _ from hscrubs.rest]
    rfl)
  generalize (w.setScrub slice l).emptySlice slice = t at hr1 hempty hmem hscrub'
  generalize hx : ({ t.dropOneTime slice with
    slices := { (t.dropOneTime slice).slices with scrub := (t.dropOneTime slice).slices.scrub.tail } } : State) = x
  have hxregs : x.regs = t.regs := by rw [← hx]; rfl
  have hxmem : x.mem = t.mem := by rw [← hx]; rfl
  have hxscrub : x.slices.scrub = t.slices.scrub.tail := by rw [← hx]; rfl
  have hrp : x.pickleNext.regs.rising = true := x.keeps_pickleNext.rising (by rw [hxregs]; exact hr1)
  have hnotice := x.pickleNext.notifies_managerCause 6
  refine ⟨?_, State.bitOf_managerCause hrp (v := 6) (by decide), ?_, ?_⟩
  · unfold State.slcState
    rw [hnotice.getF _ (by decide), x.keeps_pickleNext.getF _ (by decide), State.Keeps.getF (.of_regs hxregs) _ (List.mem_singleton_self _)]
    exact hempty
  · rw [hnotice.rest]
    dsimp only
    rw [x.slices_pickleNext]
    dsimp only
    rw [hxscrub, hscrub']
  · rw [hnotice.rest]
    dsimp only
    rw [x.mem_pickleNext, hxmem, hmem]

end

/-! ### Quarantine and the recovery scrub -/

theorem execKeyQuarantineExpiry_frees (hwarm : s.recov.warm = none) (hstate : (s.keySlot slot).state = .draining)
    (hzero : (s.keySlot slot).zeroised = true) (hdue : (s.keySlot slot).since + s.getF .SLC_CFG_QUAR_MS 0 * 1000000 ≤ s.now) :
    ∃ t, execKeyQuarantineExpiry slot s = .next t ∧ (t.keySlot slot).state = .free ∧ (t.keySlot slot).since = s.now ∧ t.work = s.work ∧
      t.mem = s.mem := by
  unfold execKeyQuarantineExpiry
  generalize List.range 4096 = slices
  extract_lets k on s1 s2
  have hon : on = true := by
    unfold on
    rw [hwarm]
  rw [if_pos ⟨hon, hstate, hzero, hdue⟩]
  have hfreed : s2.keySlot slot = { s.keySlot slot with state := .free, zeroised := false, since := s.now } := by
    unfold s2 s1
    rw [State.keySlot_setF, State.keySlot_setKey]
  have hrest : s2.work = s.work ∧ s2.mem = s.mem := ⟨rfl, rfl⟩
  refine ⟨_, rfl, ?_⟩
  refine State.each_keeps (P := fun t => (t.keySlot slot).state = .free ∧ (t.keySlot slot).since = s.now ∧ t.work = s.work ∧ t.mem = s.mem) ?_ _
    ⟨by rw [hfreed], by rw [hfreed], hrest⟩
  intro t i ht
  exact ht

theorem execKeyQuarantineExpiry_early (h : (s.keySlot slot).state ≠ .draining ∨ (s.keySlot slot).zeroised = false ∨
    s.now < (s.keySlot slot).since + s.getF .SLC_CFG_QUAR_MS 0 * 1000000) : execKeyQuarantineExpiry slot s = .next s := by
  unfold execKeyQuarantineExpiry
  extract_lets k on
  refine if_neg ?_
  rintro ⟨-, hstate, hzero, hdue⟩
  rcases h with h | h | h
  · exact h hstate
  · exact Bool.false_ne_true (h.symm.trans hzero)
  · exact absurd hdue (Nat.not_le.mpr h)

theorem execRecoveryScrub_absent (hwarm : s.recov.warm = none) (hnone : s.slices.recScrub.contains slice = false) :
    execRecoveryScrub slice s = .next s := by
  unfold execRecoveryScrub
  rw [hwarm]
  dsimp only
  rw [if_neg fun h => Bool.false_ne_true (hnone.symm.trans h.2)]

theorem execRecoveryScrub_scrubbed (hwarm : s.recov.warm = none) (hcore : s.coreOn = true) (hin : s.slices.recScrub.contains slice = true)
    (h : (s.oneTimeKey slice).scrubOn slice = (true, u)) : execRecoveryScrub slice s =
      .next ({ u with slices := { u.slices with recScrub := u.slices.recScrub.filter (· != slice) } }.dropOneTime slice) := by
  unfold execRecoveryScrub
  rw [hwarm]
  dsimp only
  rw [if_pos ⟨hcore, hin⟩, h]

theorem execRecoveryScrub_uncovered (hwarm : s.recov.warm = none) (hcore : s.coreOn = true) (hin : s.slices.recScrub.contains slice = true)
    (h : (s.oneTimeKey slice).scrubOn slice = (false, u)) : execRecoveryScrub slice s = .next u.cleanStart := by
  unfold execRecoveryScrub
  rw [hwarm]
  dsimp only
  rw [if_pos ⟨hcore, hin⟩, h]

end

/-! ### The statement -/

/-- Settles O53: a removal by the slice's state and what still holds it, a scrub by the pages that are left, a quarantine by its time. -/
theorem sliceRemoval : Obligations.SliceRemoval := by
  refine fun s u i slice slot x hr => ⟨fun hx hslice hnew => ⟨execRetireSlice_refused hx hslice hnew, fun hzero hlive hlow hunused => ?retires⟩,
    execRetireKeyZeroise_waits, fun j hstate hqueues hrefs hitem => execRetireKeyZeroise_zeroises hstate hqueues hrefs hitem, fun done h hdone => ?scrubbed,
    execScrubComplete_waits,
    fun hstate hfirst => ⟨execScrubComplete_empties hstate hfirst hr, execScrubComplete_uncovered hstate hfirst⟩,
    fun hwarm => ⟨execKeyQuarantineExpiry_frees hwarm, execKeyQuarantineExpiry_early, fun hcore hin => ⟨execRecoveryScrub_scrubbed hwarm hcore hin,
      execRecoveryScrub_uncovered hwarm hcore hin⟩,
    execRecoveryScrub_absent hwarm⟩⟩
  case retires =>
    have hexec := execRetireSlice_retires hx hslice hnew hzero hlive hlow hunused
    exact ⟨hexec, _, hexec, State.draining_retireSlice _ slice i⟩
  case scrubbed =>
    obtain ⟨t, l, -, rfl, hdone'⟩ := State.scrubOn_eq h
    exact hdone' hdone

end Sys2Proof.Machine
end

section

/-!
SUPPORT. SPDM (R363, R365–R372, R380): where a request goes by the port, the connection and the session, what each leaves, and the settling of O55.
-/

namespace Sys2Proof.Machine

/-! ### Requests, connections, sessions -/

section
variable {s t u v : State} {p : SpdmPort}

theorem State.spdmRequest_down (hdown : s.spdmUp p = false) (f : State → State) : s.spdmRequest p f = .next s := by
  simp [State.spdmRequest, hdown]

theorem State.spdmRequest_busy (hup : s.spdmUp p = true) (hbusy : s.spdmBusy = true) (f : State → State) :
    s.spdmRequest p f = .next (s.spdmError p 3) := by
  simp [State.spdmRequest, hup, hbusy]

@[simp] theorem State.conn_setConn (s : State) (p : SpdmPort) (x : Conn) : (s.setConn p x).conn p = x := by
  simp [State.conn, State.setConn]

/-- `t` has the sessions, the memory and the time that `s` has. -/
structure State.SameSessions (s t : State) : Prop where
  sessions : t.sec.sessions = s.sec.sessions
  mem : t.mem = s.mem
  now : t.now = s.now
  slices : t.slices = s.slices

theorem State.SameSessions.trans (h : s.SameSessions t) (k : t.SameSessions u) : s.SameSessions u :=
  ⟨k.sessions.trans h.sessions, k.mem.trans h.mem, k.now.trans h.now, k.slices.trans h.slices⟩

theorem State.sameSessions_takeRequest (s : State) (p : SpdmPort) (code p1 p2 : Nat) (named : List Byte) (rest : Nat) :
    s.SameSessions (s.takeRequest p code p1 p2 named rest).2 := by
  unfold State.takeRequest
  dsimp only
  split <;> exact ⟨rfl, rfl, rfl, rfl⟩

/-- An answer through a host port is sent, and what is too long of it is kept beside the sessions. -/
theorem State.sameSessions_spdmAnswer_host (s : State) (d : Nat) (within : Option SpdmSession) (msg : List Byte) :
    s.SameSessions (s.spdmAnswer (.host d) within msg) := by
  unfold State.spdmAnswer
  dsimp only
  split <;> exact ⟨rfl, rfl, rfl, rfl⟩

theorem State.spdmAnswer_host_short (s : State) (d : Nat) {msg : List Byte} (h : msg.length ≤ 4096) :
    s.spdmAnswer (.host d) none msg = s.emit (.spdm d 1 msg) := if_pos h

section
variable (hup : s.spdmUp p = true) (hbusy : s.spdmBusy = false)
include hup hbusy

theorem State.spdmNegotiated_runs (hphase : s.spdmPhase p = .negotiated) (f : State → State) : s.spdmNegotiated p f = .next (f s) :=
  (State.spdmRequest_runs hup hbusy _).trans (congrArg _ (if_pos hphase))

theorem State.spdmNegotiated_early (hphase : s.spdmPhase p ≠ .negotiated) (f : State → State) : s.spdmNegotiated p f = .next (s.spdmError p 4) :=
  (State.spdmRequest_runs hup hbusy _).trans (congrArg _ (if_neg hphase))

theorem State.inSession_none {n : Nat} (hnone : s.sec.sessions.find n = none) (f : State → SpdmSession → State) :
    s.inSession p n f = .next (s.spdmError p 4) := by
  unfold State.inSession
  rw [State.spdmRequest_runs hup hbusy, hnone]

theorem State.inSession_stands {n : Nat} {x : SpdmSession} (hx : s.sec.sessions.find n = some x) (hport : x.port = p) (hest : x.established = true)
    (f : State → SpdmSession → State) : s.inSession p n f = .next (f s x) := by
  unfold State.inSession
  rw [State.spdmRequest_runs hup hbusy, hx]
  exact congrArg _ (if_pos ⟨hport, hest⟩)

end
end

/-! ### The commands that are requests -/

/-- A command is a request at a port. -/
def State.IsRequest (s : State) (p : SpdmPort) (r : Result) : Prop := ∃ f, r = s.spdmRequest p f

theorem State.isRequest (s : State) (p : SpdmPort) (f : State → State) : s.IsRequest p (s.spdmRequest p f) := ⟨f, rfl⟩

theorem State.isRequest_negotiated (s : State) (p : SpdmPort) (f : State → State) : s.IsRequest p (s.spdmNegotiated p f) := ⟨_, rfl⟩

theorem State.isRequest_inSession (s : State) (p : SpdmPort) (n : Nat) (f : State → SpdmSession → State) : s.IsRequest p (s.inSession p n f) := ⟨_, rfl⟩

/-- A command needs a negotiated connection. -/
def State.NeedsConnection (s : State) (p : SpdmPort) (r : Result) : Prop := ∃ f, r = s.spdmNegotiated p f

theorem State.needsConnection (s : State) (p : SpdmPort) (f : State → State) : s.NeedsConnection p (s.spdmNegotiated p f) := ⟨f, rfl⟩

theorem State.NeedsConnection.isRequest {s : State} {p : SpdmPort} {r : Result} (h : s.NeedsConnection p r) : s.IsRequest p r := by
  obtain ⟨f, rfl⟩ := h
  exact s.isRequest_negotiated p f

/-- A command needs an established session. -/
def State.NeedsSession (s : State) (p : SpdmPort) (n : Nat) (r : Result) : Prop := ∃ f, r = s.inSession p n f

theorem State.needsSession (s : State) (p : SpdmPort) (n : Nat) (f : State → SpdmSession → State) : s.NeedsSession p n (s.inSession p n f) := ⟨f, rfl⟩

theorem State.NeedsSession.isRequest {s : State} {p : SpdmPort} {n : Nat} {r : Result} (h : s.NeedsSession p n r) : s.IsRequest p r := by
  obtain ⟨f, rfl⟩ := h
  exact s.isRequest_inSession p n f

section
variable {s : State} {p : SpdmPort} {n k : Nat} {chk : CryptoCheck} {nonce : List Byte} {last : Bool} {o : AlgOffer} {c : CertPos}

theorem exec_needsConnection (i : Instr) (hi : i ∈ ([.getDigests p, .getCertificate p c k, .challenge p nonce, .getMeasurements p nonce,
    .keyExchange p chk n, .chunkSend p n last nonce, .chunkGet p n] : List Instr)) : s.NeedsConnection p (exec i s) := by
  simp only [List.mem_cons, List.not_mem_nil, or_false] at hi
  obtain rfl | rfl | rfl | rfl | rfl | rfl | rfl := hi
  · exact (s.needsConnection p _ : s.NeedsConnection p (execGetDigests p s))
  · exact (s.needsConnection p _ : s.NeedsConnection p (execGetCertificate p c k s))
  · exact (s.needsConnection p _ : s.NeedsConnection p (execChallenge p nonce s))
  · exact (s.needsConnection p _ : s.NeedsConnection p (execGetMeasurements p nonce s))
  · exact (s.needsConnection p _ : s.NeedsConnection p (execKeyExchange p chk n s))
  · exact (s.needsConnection p _ : s.NeedsConnection p (execChunkSend p n last nonce s))
  · exact (s.needsConnection p _ : s.NeedsConnection p (execChunkGet p n s))

theorem exec_needsSession (i : Instr) (hi : i ∈ ([.keyUpdate p n, .heartbeat p n, .endSession p n] : List Instr)) :
    s.NeedsSession p n (exec i s) := by
  simp only [List.mem_cons, List.not_mem_nil, or_false] at hi
  obtain rfl | rfl | rfl := hi
  · exact (s.needsSession p n _ : s.NeedsSession p n (execKeyUpdate p n s))
  · exact (s.needsSession p n _ : s.NeedsSession p n (execHeartbeat p n s))
  · exact (s.needsSession p n _ : s.NeedsSession p n (execEndSession p n s))

theorem exec_isRequest (i : Instr) (hi : i ∈ ([.getVersion p, .getCapabilities p, .negotiateAlgorithms p o, .getDigests p, .getCertificate p c k,
    .challenge p nonce, .getMeasurements p nonce, .keyExchange p chk n, .finish p n chk, .keyUpdate p n, .heartbeat p n, .endSession p n,
    .chunkSend p n last nonce, .chunkGet p n, .spdmUnsupported p n] : List Instr)) : s.IsRequest p (exec i s) := by
  have hconn := exec_needsConnection (s := s) (p := p) (n := n) (k := k) (chk := chk) (nonce := nonce) (last := last) (c := c) i
  have hsess := exec_needsSession (s := s) (p := p) (n := n) i
  simp only [List.mem_cons, List.not_mem_nil, or_false] at hi hconn hsess
  obtain rfl | rfl | rfl | h | h | h | h | h | rfl | h | h | h | h | h | rfl := hi
  · exact (s.isRequest p _ : s.IsRequest p (execGetVersion p s))
  · exact (s.isRequest p _ : s.IsRequest p (execGetCapabilities p s))
  · exact (s.isRequest p _ : s.IsRequest p (execNegotiateAlgorithms p o s))
  · exact (hconn (by simp [h])).isRequest
  · exact (hconn (by simp [h])).isRequest
  · exact (hconn (by simp [h])).isRequest
  · exact (hconn (by simp [h])).isRequest
  · exact (hconn (by simp [h])).isRequest
  · exact (s.isRequest p _ : s.IsRequest p (execFinish p n chk s))
  · exact (hsess (by simp [h])).isRequest
  · exact (hsess (by simp [h])).isRequest
  · exact (hsess (by simp [h])).isRequest
  · exact (hconn (by simp [h])).isRequest
  · exact (hconn (by simp [h])).isRequest
  · exact (s.isRequest p _ : s.IsRequest p (execSpdmUnsupported p n s))

end

theorem execSpdmUnsupported_answers {s : State} {p : SpdmPort} {n : Nat} (hup : s.spdmUp p = true) (hbusy : s.spdmBusy = false) :
    execSpdmUnsupported p n s = .next (s.spdmReply p 0x7F 7 n []) := State.spdmRequest_runs hup hbusy _

/-! ### Versions, capabilities, algorithms, certificates -/

section
variable {s u v : State} {p : SpdmPort} {req : List Byte} (hup : s.spdmUp p = true) (hbusy : s.spdmBusy = false)
include hup hbusy

theorem execGetVersion_answers (htake : s.takeRequest p 0x84 0 0 [] 0 = (req, u)) : execGetVersion p s =
    .next ((u.setConn p ⟨.version, (u.conn p).txn, [], req ++ spdmBytes 0x04 0 0 [0, 1, 0, 0x13], []⟩).spdmAnswer p none
      (spdmBytes 0x04 0 0 [0, 1, 0, 0x13])) := by
  unfold execGetVersion
  rw [State.spdmRequest_runs hup hbusy, htake]

theorem execGetCapabilities_answers (hphase : s.spdmPhase p = .version) (htake : s.takeRequest p 0xE1 0 0 [] 16 = (req, u)) :
    execGetCapabilities p s = .next (u.negotiate p .capabilities req (spdmBytes 0x61 0 0 capabilities)) := by
  unfold execGetCapabilities
  rw [State.spdmRequest_runs hup hbusy, if_pos hphase, htake]

theorem execGetCapabilities_early (hphase : s.spdmPhase p ≠ .version) : execGetCapabilities p s = .next (s.spdmError p 4) := by
  unfold execGetCapabilities
  rw [State.spdmRequest_runs hup hbusy, if_neg hphase]

theorem execNegotiateAlgorithms_early {o : AlgOffer} (hphase : s.spdmPhase p ≠ .capabilities) :
    execNegotiateAlgorithms p o s = .next (s.spdmError p 4) := by
  unfold execNegotiateAlgorithms
  rw [State.spdmRequest_runs hup hbusy, if_neg hphase]

theorem execNegotiateAlgorithms_refuses {o : AlgOffer} (hphase : s.spdmPhase p = .capabilities) (hoffer : algsOffered o = false) :
    execNegotiateAlgorithms p o s = .next (s.spdmError p 1) := by
  unfold execNegotiateAlgorithms
  rw [State.spdmRequest_runs hup hbusy, if_pos hphase, hoffer]
  rfl

theorem execNegotiateAlgorithms_agrees {o : AlgOffer} (hphase : s.spdmPhase p = .capabilities) (hoffer : algsOffered o = true) :
    ∃ (req : List Byte) (v : State), execNegotiateAlgorithms p o s = .next (v.negotiate p .negotiated req (spdmBytes 0x63 4 0 algorithms)) := by
  unfold execNegotiateAlgorithms
  rw [State.spdmRequest_runs hup hbusy, if_pos hphase, if_pos hoffer]
  exact ⟨_, _, rfl⟩

variable (hphase : s.spdmPhase p = .negotiated)
include hphase

theorem execGetDigests_answers (htake : s.takeRequest p 0x81 0 0 [] 0 = (req, u)) :
    execGetDigests p s = .next (u.certified p req (spdmBytes 0x01 0 1 (Config.sha384 u.certBytes))) := by
  unfold execGetDigests
  rw [State.spdmNegotiated_runs hup hbusy hphase, htake]

theorem execGetCertificate_empty {c : CertPos} {k : Nat} (hslot : c.slot ≠ 0) : execGetCertificate p c k s = .next (s.spdmError p 1) := by
  unfold execGetCertificate
  rw [State.spdmNegotiated_runs hup hbusy hphase, if_pos hslot]

theorem execGetCertificate_answers {c : CertPos} {k : Nat} (hslot : c.slot = 0)
    (htake : s.takeRequest p 0x82 0 0 (bytesLE 2 c.offset ++ bytesLE 2 k) 0 = (req, u)) :
    execGetCertificate p c k s = .next (u.certified p req (u.portion c.offset k)) := by
  unfold execGetCertificate
  rw [State.spdmNegotiated_runs hup hbusy hphase, if_neg (not_not_intro hslot), htake]

theorem execChallenge_signs {nonce own : List Byte} (htake : s.takeRequest p 0x83 0 0 (fit 32 nonce) 8 = (req, u))
    (hown : u.draw.freeBytes 32 = (own, v)) : let resp := spdmBytes 0x03 0 1 (Config.sha384 v.certBytes ++ own ++ [0, 0] ++ (req.drop 36).take 8)
    execChallenge p nonce s = .next ((v.setConn p { v.conn p with certs := [] }).spdmAnswer p none
      (resp ++ signature ((v.conn p).vca ++ (v.conn p).certs ++ req ++ resp))) := by
  unfold execChallenge
  rw [State.spdmNegotiated_runs hup hbusy hphase, htake]
  dsimp only
  rw [hown]

theorem execGetMeasurements_signs {nonce : List Byte} (htake : s.takeRequest p 0xE0 1 0xFF (fit 32 nonce ++ [0]) 8 = (req, u)) :
    let resp := u.hallmark nonce ((req.drop 37).take 8)
    execGetMeasurements p nonce s = .next (u.spdmAnswer p none (resp ++ signature ((u.conn p).vca ++ req ++ resp))) := by
  unfold execGetMeasurements
  rw [State.spdmNegotiated_runs hup hbusy hphase, htake]

/-! ### Chunks -/

theorem execChunkSend_outOfOrder {c : SpdmPort × Frags} {last : Bool} {b : List Byte} (hc : s.sec.sends.find? (fun c => c.1 == p) = some c)
    (hnext : c.2.next ≠ 1) : execChunkSend p 1 last b s =
      .next ({ s with sec := { s.sec with sends := s.sec.sends.filter (fun c => c.1 != p) } }.spdmError p 1) := by
  have hbad : 1 ≠ (if 1 = 0 then (⟨0, 0, []⟩ : Frags) else c.2).next ∨ transferSize < b.length := by
    rw [if_neg (by decide)]
    exact .inl hnext.symm
  unfold execChunkSend
  rw [State.spdmNegotiated_runs hup hbusy hphase, hc]
  dsimp only
  rw [if_pos hbad]

/-- The first chunk of a message is kept, or is the whole of it. -/
def State.firstChunk (s : State) (p : SpdmPort) (last : Bool) (b : List Byte) : State :=
  let rest := s.sec.sends.filter (fun c => c.1 != p)
  let s := { s with sec := { s.sec with sends := if last then rest else (p, ⟨0, 1, b⟩) :: rest } }
  if last then s.setConn p { s.conn p with heard := b } else s

theorem execChunkSend_first {last : Bool} {b : List Byte} (hlen : b.length ≤ 4096) :
    ∃ v : State, execChunkSend p 0 last b s = .next (v.spdmReply p 0x05 0 0 (bytesLE 2 0 ++ [0, 0])) ∧ v.regs = s.regs ∧ v.mem = s.mem ∧
      (last = true → (v.conn p).heard = b) ∧ (last = false → v.sec.sends.find? (fun c => c.1 == p) = some (p, ⟨0, 1, b⟩)) := by
  have hfits : ¬ ((0 : Nat) ≠ (⟨0, 0, []⟩ : Frags).next ∨ transferSize < b.length) := by
    rintro (h | h)
    · exact h rfl
    · exact absurd hlen (Nat.not_le.mpr h)
  have hexec : execChunkSend p 0 last b s =
      .next ((s.firstChunk p last b).spdmReply p 0x05 0 0 (bytesLE 2 0 ++ [0, 0])) := by
    unfold execChunkSend
    rw [State.spdmNegotiated_runs hup hbusy hphase]
    dsimp only
    rw [if_pos rfl, if_neg hfits]
    rfl
  refine ⟨_, hexec, ?_⟩
  cases last with
  | true => exact ⟨rfl, rfl, fun _ => congrArg Conn.heard (State.conn_setConn _ p _), nofun⟩
  | false => exact ⟨rfl, rfl, nofun, fun _ => List.find?_cons_of_pos (by simp)⟩

theorem execChunkGet_none {n : Nat} (hnone : s.sec.chunks.find? (fun c => c.1 == p) = none) : execChunkGet p n s = .next (s.spdmError p 4) := by
  unfold execChunkGet
  rw [State.spdmNegotiated_runs hup hbusy hphase, hnone]

theorem execChunkGet_inner {n : Nat} {c : SpdmPort × List Byte} (hc : s.sec.chunks.find? (fun c => c.1 == p) = some c)
    (hmore : (n + 1) * chunkBytes < c.2.length) : execChunkGet p n s = .next (s.spdmAnswer p none (chunkResponse c.2 n)) := by
  have hstart : ¬ c.2.length ≤ n * chunkBytes := by
    rw [Nat.add_mul] at hmore
    omega
  unfold execChunkGet
  rw [State.spdmNegotiated_runs hup hbusy hphase, hc]
  dsimp only
  rw [if_neg hstart, if_neg (Nat.not_le.mpr hmore)]

end

/-! ### Sessions (R368, R371, R372) -/

section
variable {s : State} {p : SpdmPort} {n d : Nat} {x : SpdmSession} {chk : CryptoCheck}

@[simp] theorem State.sessions_setAsk (s : State) (p : SpdmPort) (a : Ask) : (s.setAsk p a).sec.sessions = s.sec.sessions := rfl

/-- A session that a host sets up, beside those that stand. -/
theorem State.session_openSession (s : State) (p : SpdmPort) (requester : Bool) (partner : Nat) :
    (s.openSession p requester partner).sec.sessions.find s.newSession = some ⟨p, false, requester, s.now, 0, s.draw.slices.drbg, partner⟩ :=
  Tbl.find_put_same _ _ _

theorem State.newSession_congr {s t : State} (h : t.sec.sessions = s.sec.sessions) : t.newSession = s.newSession := by
  unfold State.newSession
  rw [h]

theorem execFinish_noSession (hup : s.spdmUp p = true) (hbusy : s.spdmBusy = false) (hnone : s.sec.sessions.find n = none) :
    execFinish p n chk s = .next (s.spdmError p 4) := by
  unfold execFinish
  rw [State.spdmRequest_runs hup hbusy, hnone]

section
variable (hup : s.spdmUp (.host d) = true) (hbusy : s.spdmBusy = false)
include hup hbusy

theorem execKeyExchange_full (hphase : s.spdmPhase (.host d) = .negotiated) (hfull : s.sessionsFull (.host d) = true) :
    execKeyExchange (.host d) chk n s = .next ((s.secErr 3).spdmError (.host d) 0x0A) := by
  unfold execKeyExchange
  rw [State.spdmNegotiated_runs hup hbusy hphase]
  dsimp only
  rw [if_neg (by decide), if_pos hfull]

theorem execKeyExchange_opens (hphase : s.spdmPhase (.host d) = .negotiated) (hroom : s.sessionsFull (.host d) = false) :
    ∃ t, execKeyExchange (.host d) chk n s = .next t ∧
      t.sec.sessions.find s.newSession = some ⟨.host d, false, false, s.now, 0, s.draw.slices.drbg, n⟩ ∧ t.mem = s.mem := by
  unfold execKeyExchange
  rw [State.spdmNegotiated_runs hup hbusy hphase]
  dsimp only
  rw [if_neg (by decide), if_neg (by rw [hroom]; decide), if_neg (by simp [onFil])]
  have htaken := s.sameSessions_takeRequest (.host d) 0xE4 0 0 [] 134
  generalize (s.takeRequest (.host d) 0xE4 0 0 [] 134) = r at htaken
  obtain ⟨req, u⟩ := r
  refine ⟨_, rfl, ?_⟩
  have hopened := State.session_openSession u (.host d) false n
  rw [State.newSession_congr htaken.sessions, htaken.now, show u.draw.slices.drbg = s.draw.slices.drbg by unfold State.draw; rw [htaken.slices]] at hopened
  have hmem : (u.openSession (.host d) false n).mem = s.mem := htaken.mem
  have hanswered := State.sameSessions_spdmAnswer_host
  constructor
  · rw [(hanswered _ d none _).sessions]
    exact hopened
  · rw [(hanswered _ d none _).mem]
    exact hmem

theorem execFinish_stands (hx : s.sec.sessions.find n = some x) (hport : x.port = .host d) (hnew : x.established = false) (hsig : chk.sigOk = true) :
    ∃ t y, execFinish (.host d) n chk s = .next t ∧ t.sec.sessions.find n = some y ∧ y.established = true ∧ y.lastBeat = s.now ∧
      y.port = .host d := by
  have hstands : (s.sessionStands n x chk.leaf).sec.sessions.find n = some { x with established := true, lastBeat := s.now } := by
    unfold State.sessionStands
    rw [hport]
    exact Tbl.find_put_same _ _ _
  unfold execFinish
  rw [State.spdmRequest_runs hup hbusy, hx]
  dsimp only
  rw [if_neg (by simp [hport, hnew]), if_neg (by simp [onFil]), if_neg (by simp [hsig])]
  refine ⟨_, { x with established := true, lastBeat := s.now }, rfl, ?_, rfl, rfl, hport⟩
  split
  · exact hstands
  · rw [(State.sameSessions_spdmAnswer_host _ d _ _).sessions]
    exact hstands

section
variable (hx : s.sec.sessions.find n = some x) (hport : x.port = .host d) (hest : x.established = true)
include hx hport hest

theorem execKeyUpdate_advances : ∃ t, execKeyUpdate (.host d) n s = .next t ∧ t.sec.sessions.find n = some { x with keyGen := x.keyGen + 1 } := by
  refine ⟨_, State.inSession_stands hup hbusy hx hport hest _, ?_⟩
  rw [(State.sameSessions_spdmAnswer_host _ d _ _).sessions]
  exact Tbl.find_put_same _ _ _

theorem execHeartbeat_beats : ∃ t, execHeartbeat (.host d) n s = .next t ∧ t.sec.sessions.find n = some { x with lastBeat := s.now } := by
  refine ⟨_, State.inSession_stands hup hbusy hx hport hest _, ?_⟩
  dsimp only
  rw [(State.sameSessions_spdmAnswer_host _ d _ _).sessions]
  exact Tbl.find_put_same _ _ _

theorem execEndSession_ends : ∃ t, execEndSession (.host d) n s = .next t ∧ t.sec.sessions = s.sec.sessions.del n := by
  refine ⟨_, State.inSession_stands hup hbusy hx hport hest _, ?_⟩
  unfold State.sessionEnds
  rw [hport]
  exact congrArg (·.del n) (State.sameSessions_spdmAnswer_host _ d _ _).sessions

end
end

theorem execKeyExchange_anchor (hup : s.spdmUp (.peer d) = true) (hbusy : s.spdmBusy = false) (hphase : s.spdmPhase (.peer d) = .negotiated)
    (hroom : s.sessionsFull (.peer d) = false) (hroot : chk.root ≠ s.anchor) :
    execKeyExchange (.peer d) chk n s = .next ((s.secErr 1).spdmError (.peer d) 1) := by
  unfold execKeyExchange
  rw [State.spdmNegotiated_runs hup hbusy hphase]
  dsimp only
  rw [if_neg (by decide), if_neg (by rw [hroom]; decide), if_pos (by simp [onFil, hroot])]

theorem execHeartbeatLapse_none (hnone : s.sec.sessions.find n = none) : execHeartbeatLapse n s = .next s := by
  unfold execHeartbeatLapse
  rw [hnone]

theorem execHeartbeatLapse_beats (hx : s.sec.sessions.find n = some x) (h : x.established = false ∨ s.now < x.lastBeat + 120000000000) :
    execHeartbeatLapse n s = .next s := by
  unfold execHeartbeatLapse
  rw [hx]
  dsimp only
  rw [if_neg]
  rintro ⟨hest, hlate⟩
  exact h.elim (fun h => Bool.false_ne_true (h.symm.trans hest)) (fun h => absurd hlate (Nat.not_le.mpr h))

theorem execHeartbeatLapse_ends (hx : s.sec.sessions.find n = some x) (hport : x.port = .host d) (hest : x.established = true)
    (hlate : x.lastBeat + 120000000000 ≤ s.now) : ∃ t, execHeartbeatLapse n s = .next t ∧ t.sec.sessions = s.sec.sessions.del n := by
  unfold execHeartbeatLapse
  rw [hx]
  dsimp only
  rw [if_pos ⟨hest, hlate⟩]
  refine ⟨_, rfl, ?_⟩
  unfold State.sessionEnds
  rw [hport]
  rfl

end

/-! ### Sessions that the manager starts -/

section
variable {s : State} {n : Nat}

theorem State.linkStart_busy (hbusy : s.bitF .SEC_LINK_CTRL_BUSY 0 = true) : s.linkStart = s := by
  simp [State.linkStart, hbusy]

theorem State.linkStart_asks (hidle : s.bitF .SEC_LINK_CTRL_BUSY 0 = false) (hlive : s.portLive (s.getF .SEC_LINK_CTRL_PORT 0) = true)
    (hnone : s.setups (s.getF .SEC_LINK_CTRL_PORT 0) false = []) : let l := s.getF .SEC_LINK_CTRL_PORT 0
    let v := (s.setF .SEC_LINK_CTRL_BUSY 0 1).openSession (.link l) true (s.getF .FIL_PORT_STAT_PARTNER l)
    s.linkStart = { v with sec := { v.sec with linkSetup := some l } }.askVersion (.link l) := by
  unfold State.linkStart
  dsimp only
  rw [hnone, if_neg (by simp [hidle, hlive])]
  rfl

theorem execMigrationPairingStart_ignored (h : 4 ≤ n ∨ s.getF .SEC_MIG_CTRL_STATE n = 1) : execMigrationPairingStart n s = .next s := by
  unfold execMigrationPairingStart State.pairStart
  split
  · rw [if_pos (.inl (h.resolve_left (by omega)))]
  · rfl

/-- A pairing that replaces none is made with the node named: the block asks the peer for its version. -/
theorem State.pairStart_asks (hcore : s.coreOn = true) (hidle : s.getF .SEC_MIG_CTRL_STATE n ≠ 1) (hnone : s.sec.pairings.find n = none)
    (hroom : s.sessionsFull (.peer (s.getF .SEC_MIG_CTRL_NODE n)) = false) : ∃ v : State,
      s.pairStart n = v.askVersion (.peer (s.getF .SEC_MIG_CTRL_NODE n)) ∧ v.sec.pairings.find n = some ⟨s.getF .SEC_MIG_CTRL_NODE n, 0, s.now, []⟩ ∧
        (s.regs.rising = true → v.getF .SEC_MIG_CTRL_STATE n = 1) ∧ v.mem = s.mem ∧ v.work = s.work := by
  unfold State.pairStart
  rw [if_neg (by simp [hidle, hcore]), hnone]
  dsimp only
  split
  · rename_i hfull
    exact absurd (hroom.symm.trans hfull) Bool.false_ne_true
  · exact ⟨_, rfl, Tbl.find_put_same _ _ _, fun hr => State.getF_setF_same (s := { s with sec := _ }) hr .SEC_MIG_CTRL_STATE n 1, rfl, rfl⟩

end

/-! ### The statement -/

/-- Settles O55: a request by its port, connection and session; what is sent through a host port leaves the sessions. -/
theorem spdmRequests : Obligations.SpdmRequests := by
  intro s u v p n k x chk nonce req own last o c all
  refine ⟨fun d msg => s.spdmAnswer_host_short d, fun hdown i hi => ?down, fun hup hbusy i hi => ?busy,
    fun hup hbusy => ⟨execGetVersion_answers hup hbusy, execGetCapabilities_answers hup hbusy,
      fun hphase => ⟨execNegotiateAlgorithms_refuses hup hbusy hphase, execNegotiateAlgorithms_agrees hup hbusy hphase⟩,
      execGetCapabilities_early hup hbusy, execNegotiateAlgorithms_early hup hbusy, fun hphase i hi => ?early, fun hphase => ?negotiated,
      execSpdmUnsupported_answers hup hbusy, fun hnone i hi => ?noSession, fun d hp hx hport => ?session⟩,
    execHeartbeatLapse_none, execHeartbeatLapse_beats, fun d hx hport hest hlate => execHeartbeatLapse_ends hx hport hest hlate,
    fun hbusy => congrArg _ (State.linkStart_busy hbusy), fun hidle hlive hnone => congrArg _ (State.linkStart_asks hidle hlive hnone),
    fun hn hcore hidle hnone hroom => ?pairs, execMigrationPairingStart_ignored, rfl⟩
  case down =>
    obtain ⟨f, hf⟩ := exec_isRequest (s := s) i hi
    exact hf.trans (State.spdmRequest_down hdown f)
  case busy =>
    obtain ⟨f, hf⟩ := exec_isRequest (s := s) i hi
    exact hf.trans (State.spdmRequest_busy hup hbusy f)
  case early =>
    obtain ⟨f, hf⟩ := exec_needsConnection (s := s) i hi
    exact hf.trans (State.spdmNegotiated_early hup hbusy hphase f)
  case negotiated =>
    refine ⟨execGetDigests_answers hup hbusy hphase, execGetCertificate_empty hup hbusy hphase, execGetCertificate_answers hup hbusy hphase,
      execChallenge_signs hup hbusy hphase, execGetMeasurements_signs hup hbusy hphase, fun d hp => ?_, fun d hp hroom hroot => ?_,
      fun c => execChunkSend_outOfOrder hup hbusy hphase, execChunkSend_first hup hbusy hphase, execChunkGet_none hup hbusy hphase,
      fun c => execChunkGet_inner hup hbusy hphase⟩
    · subst hp
      exact ⟨execKeyExchange_full hup hbusy hphase, execKeyExchange_opens hup hbusy hphase⟩
    · subst hp
      exact execKeyExchange_anchor hup hbusy hphase hroom hroot
  case noSession =>
    rcases List.mem_cons.mp hi with rfl | hi
    · exact execFinish_noSession hup hbusy hnone
    · obtain ⟨f, hf⟩ := exec_needsSession (s := s) i hi
      exact hf.trans (State.inSession_none hup hbusy hnone f)
  case session =>
    subst hp
    exact ⟨execFinish_stands hup hbusy hx hport, fun hest => ⟨execKeyUpdate_advances hup hbusy hx hport hest,
      execHeartbeat_beats hup hbusy hx hport hest, execEndSession_ends hup hbusy hx hport hest⟩⟩
  case pairs =>
    obtain ⟨v, hv, hrest⟩ := State.pairStart_asks hcore hidle hnone hroom
    exact ⟨v, congrArg _ ((if_pos hn).trans hv), hrest⟩

end Sys2Proof.Machine
end

section

/-!
SUPPORT. The order of the register store through the homes of coherence level 2 (chapter 11). `h.f` says of an operation `f` of the model that what keeps
the order up to a state keeps it through `f`, so that a proof about an operation reads as the operation does.
-/

namespace Sys2Proof.Machine

section
variable {s t u : State}

/-! ### Shared operations -/

theorem State.KeepsOrder.refl (s : State) : s.KeepsOrder s := .of_regs rfl

/-- A change of something else than the registers. -/
theorem State.KeepsOrder.same (h : s.KeepsOrder t) (hregs : u.regs = t.regs) : s.KeepsOrder u := h.trans (.of_regs hregs)

theorem State.KeepsOrder.coh (h : s.KeepsOrder t) {c : Coh} : s.KeepsOrder { t with coh := c } := h.same rfl

theorem State.KeepsOrder.setF (h : s.KeepsOrder t) {f : Fld} {i v : Nat} : s.KeepsOrder (t.setF f i v) := h.trans (t.keepsOrder_setF f i v)

theorem State.KeepsOrder.incF (h : s.KeepsOrder t) {f : Fld} {i : Nat} : s.KeepsOrder (t.incF f i) := h.setF

theorem State.KeepsOrder.bumpF (h : s.KeepsOrder t) {f : Fld} {i n : Nat} : s.KeepsOrder (t.bumpF f i n) := h.setF

theorem State.KeepsOrder.notifies (h : s.KeepsOrder t) (hn : t.Notifies u) : s.KeepsOrder u := h.trans (hn.keeps fun _ hf => absurd hf List.not_mem_nil)

theorem State.KeepsOrder.fault (h : s.KeepsOrder t) {r : FaultRec} : s.KeepsOrder (t.fault r) :=
  h.trans (t.keeps_fault (fun _ hf => absurd hf List.not_mem_nil) r)

theorem State.KeepsOrder.each {α : Type} {g : State → α → State} {as : List α} (h : s.KeepsOrder t)
    (hg : ∀ {u : State} {a : α}, s.KeepsOrder u → s.KeepsOrder (g u a)) : s.KeepsOrder (t.each as g) := by
  induction as generalizing t with
  | nil => exact h
  | cons a as ih => exact ih (hg h)

theorem State.KeepsOrder.emit (h : s.KeepsOrder t) {x : Out} : s.KeepsOrder (t.emit x) := h.same rfl

theorem State.KeepsOrder.send? (h : s.KeepsOrder t) {sub : Nat} {m : Msg} (hsend : t.send? sub m = some u) : s.KeepsOrder u :=
  h.notifies (State.notifies_send? hsend)

theorem State.KeepsOrder.send (h : s.KeepsOrder t) {m : Msg} : s.KeepsOrder (t.send m) := by
  unfold State.send
  cases hsend : t.send? 0xFFF m with
  | none => exact h
  | some u => exact h.send? hsend

theorem State.KeepsOrder.tell (h : s.KeepsOrder t) {w : Who} {m : Msg} : s.KeepsOrder (t.tell w m) := by
  unfold State.tell
  cases w with
  | node n => exact h.send
  | host d =>
    dsimp only
    split <;> exact h.emit
  | _ => exact h.emit

/-! ### Memory and the dirty log (R340) -/

theorem State.KeepsOrder.writesMem (h : s.KeepsOrder t) (hw : t.WritesMem u) : s.KeepsOrder u := h.same hw.regs

theorem State.KeepsOrder.loadLine (h : s.KeepsOrder t) {off slot : Nat} : s.KeepsOrder (t.loadLine off slot).2 := h.writesMem (t.writesMem_loadLine off slot)

theorem State.KeepsOrder.storeLine (h : s.KeepsOrder t) {off slot : Nat} {b : List Byte} {p : Bool} : s.KeepsOrder (t.storeLine off slot b p) :=
  h.writesMem (t.writesMem_storeLine off slot b p)

theorem State.KeepsOrder.readLines {slot n : Nat} (h : s.KeepsOrder t) {off len : Nat} : s.KeepsOrder (t.readLines slot n off len).2 := by
  induction n generalizing t off len with
  | zero => exact h
  | succ n ih =>
    unfold State.readLines
    have hline := h.loadLine (off := off) (slot := slot)
    split
    · exact h
    · dsimp only
      split <;> rename_i v hload <;> rw [hload] at hline
      · exact hline
      · have hrest := ih hline (off := off + min len (64 - off % 64)) (len := len - min len (64 - off % 64))
        split <;> rename_i w hread <;> rw [hread] at hrest <;> exact hrest

theorem State.KeepsOrder.readMem (h : s.KeepsOrder t) {off n slot : Nat} : s.KeepsOrder (t.readMem off n slot).2 := h.readLines

theorem State.KeepsOrder.coverStore (h : s.KeepsOrder t) {off n : Nat} (hc : t.coverStore off n = some u) : s.KeepsOrder u :=
  h.same (by rw [(State.scrubs_coverStore hc).rest])

theorem State.KeepsOrder.mapByte (h : s.KeepsOrder t) {a : Nat} : s.KeepsOrder (t.mapByte a).2 := by
  unfold State.mapByte
  have hread := h.readMem (off := a % 2 ^ 48) (n := 1) (slot := 0)
  split
  · exact h
  · split
    · exact h
    · split <;> rename_i hv <;> rw [hv] at hread <;> exact hread

theorem State.KeepsOrder.putLogByte (h : s.KeepsOrder t) {a v : Nat} : s.KeepsOrder (t.putLogByte a v) := by
  unfold State.putLogByte
  split
  · split
    · exact (h.coverStore ‹_›).writesMem (State.writesMem_writeMem _ _ _ _)
    · exact h
  · exact (h.same (u := { t with slices := { t.slices with farLog := t.slices.farLog.put a v } }) rfl).send

theorem State.KeepsOrder.setLogBit (h : s.KeepsOrder t) {off : Nat} {v : Bool} : s.KeepsOrder (t.setLogBit off v) := by
  unfold State.setLogBit
  dsimp only
  have hmap := h.mapByte (a := (t.logBit off).1)
  split <;> rename_i hv <;> rw [hv] at hmap
  · exact hmap.putLogByte
  · exact hmap

theorem State.KeepsOrder.dlog (h : s.KeepsOrder t) {off slot : Nat} : s.KeepsOrder (t.dlog off slot) :=
  keepsOrder_ite h.coh.setLogBit h.coh

theorem State.KeepsOrder.dlogRange (h : s.KeepsOrder t) {off n slot : Nat} : s.KeepsOrder (t.dlogRange off n slot) :=
  keepsOrder_ite (h.each fun k => k.dlog) h

theorem State.KeepsOrder.takeLines (h : s.KeepsOrder t) {off n : Nat} : s.KeepsOrder (t.takeLines off n) :=
  (h.each fun k => k.each fun k => k.tell).same rfl

/-! ### Directory entries, tickets and lost lines (R283–R285, R288, R294) -/

theorem State.KeepsOrder.setEnt (h : s.KeepsOrder t) {line : Nat} {e : DirEnt} : s.KeepsOrder (t.setEnt line e) := h.same rfl

theorem State.KeepsOrder.freeEnt (h : s.KeepsOrder t) {line : Nat} : s.KeepsOrder (t.freeEnt line) := by
  unfold State.freeEnt
  split
  · exact keepsOrder_ite h.coh h
  · exact h

theorem State.KeepsOrder.updEnt (h : s.KeepsOrder t) {line : Nat} {f : DirEnt → DirEnt} : s.KeepsOrder (t.updEnt line f) := by
  unfold State.updEnt
  split
  · exact h.setEnt
  · exact h

theorem State.KeepsOrder.refuseMsg (h : s.KeepsOrder t) {r : Msg} {arrived status reason : Nat} : s.KeepsOrder (t.refuseMsg r arrived status reason) := h.tell

theorem State.KeepsOrder.assignStakes (h : s.KeepsOrder t) {home free n : Nat} : s.KeepsOrder (t.assignStakes home free n) := by
  induction n generalizing t with
  | zero => exact h
  | succ n ih =>
    unfold State.assignStakes
    split
    · exact h
    · split
      · exact ih h.coh
      · exact h

theorem State.KeepsOrder.stakesDue (h : s.KeepsOrder t) {home : Nat} : s.KeepsOrder (t.stakesDue home) := h.assignStakes

theorem State.KeepsOrder.freeStakes (h : s.KeepsOrder t) {home : Nat} {f : State → State} (hf : ∀ {u : State}, s.KeepsOrder u → s.KeepsOrder (f u)) :
    s.KeepsOrder (t.freeStakes home f) := (hf h.stakesDue).assignStakes

theorem State.KeepsOrder.drawTicket (h : s.KeepsOrder t) {home notBefore : Nat} {w : Who} : s.KeepsOrder (t.drawTicket home w notBefore).2 :=
  State.KeepsOrder.stakesDue h.setF.coh

theorem State.KeepsOrder.give (h : s.KeepsOrder t) {r m : Msg} : s.KeepsOrder (t.give r m) := by
  unfold State.give
  split
  · exact h.coh
  · exact h.tell

theorem State.KeepsOrder.nackWith (h : s.KeepsOrder t) {r : Msg} {arrived home n retry : Nat} : s.KeepsOrder (t.nackWith r arrived home n retry) := by
  unfold State.nackWith
  dsimp only
  split
  · exact h.incF.coh
  · exact h.incF.tell

theorem State.KeepsOrder.freeRetry (h : s.KeepsOrder t) : s.KeepsOrder t.freeRetry.2 := h.same rfl

theorem State.KeepsOrder.nackNew (h : s.KeepsOrder t) {r : Msg} {arrived home : Nat} : s.KeepsOrder (t.nackNew r arrived home) :=
  h.drawTicket.freeRetry.nackWith

theorem State.KeepsOrder.poisonLine (h : s.KeepsOrder t) {off : Nat} : s.KeepsOrder (t.poisonLine off) := h.same rfl

theorem State.KeepsOrder.loseLine (h : s.KeepsOrder t) {line : Nat} {dead : Who} : s.KeepsOrder (t.loseLine line dead) := by
  unfold State.loseLine
  split
  · exact h
  · exact (h.poisonLine.each fun k => k.tell).incF.coh

theorem State.KeepsOrder.gone (h : s.KeepsOrder t) {line : Nat} {w : Who} {own : Bool} : s.KeepsOrder (t.gone line w own) := by
  unfold State.gone
  split
  · exact keepsOrder_ite h.loseLine h.setEnt
  · exact h

theorem State.KeepsOrder.declareDead (h : s.KeepsOrder t) {w : Who} {homes : List Nat} : s.KeepsOrder (t.declareDead w homes) := by
  unfold State.declareDead
  extract_lets live _ barred mine abandoned named lost cleared _ answered
  have habandoned : s.KeepsOrder abandoned := h.coh.each fun k => by
    dsimp only
    split
    · exact (keepsOrder_ite k.updEnt k).freeStakes fun k => k.coh.freeEnt
    · exact (keepsOrder_ite k.updEnt k).coh.freeEnt
  have hanswered : s.KeepsOrder answered := (habandoned.each fun k => k.gone).coh
  exact keepsOrder_ite hanswered hanswered.fault

/-! ### Transactions (R278, R280) -/

theorem State.KeepsOrder.hpfSet (h : s.KeepsOrder t) {w : Who} {line : Nat} {excl : Bool} : s.KeepsOrder (t.hpfSet w line excl) := by
  unfold State.hpfSet
  split
  · exact h.coh
  · exact h

theorem State.KeepsOrder.hpfDel (h : s.KeepsOrder t) {w : Who} {line : Nat} : s.KeepsOrder (t.hpfDel w line) := by
  unfold State.hpfDel
  split
  · exact h.coh
  · exact h

theorem State.KeepsOrder.addTxn (h : s.KeepsOrder t) {x : Txn} : s.KeepsOrder (t.addTxn x) := h.same rfl

theorem State.KeepsOrder.updTxn (h : s.KeepsOrder t) {i : Nat} {f : Txn → Txn} : s.KeepsOrder (t.updTxn i f) := h.same rfl

theorem State.KeepsOrder.endTxn (h : s.KeepsOrder t) {i : Nat} {x : Txn} : s.KeepsOrder (t.endTxn i x) :=
  keepsOrder_ite (h.freeStakes fun k => k.coh.freeEnt) h.coh.freeEnt

theorem State.KeepsOrder.snoop (h : s.KeepsOrder t) {i : Nat} {x : Txn} {k : MsgKind} {own : Bool} {w : Who} : s.KeepsOrder (t.snoop i x k own w) := by
  unfold State.snoop
  dsimp only
  split
  · split
    · exact h.send? ‹_›
    · exact h.declareDead
  · exact h.tell

theorem State.KeepsOrder.backInvalidate (h : s.KeepsOrder t) {line n : Nat} {who : Who} : s.KeepsOrder (t.backInvalidate line who n) :=
  h.addTxn.each fun k => k.snoop

theorem State.KeepsOrder.startTxn (h : s.KeepsOrder t) {i : Nat} {x : Txn} : s.KeepsOrder (t.startTxn i x) := by
  unfold State.startTxn
  split
  · exact h.backInvalidate.hpfDel.bumpF
  · extract_lets go
    have hgo : ∀ {u : State}, s.KeepsOrder u → s.KeepsOrder (go u) := fun k => k.updTxn.each fun k => k.snoop
    clear_value go
    split
    · split
      · exact hgo h.coh
      · exact h.incF.backInvalidate
      · exact h.endTxn.nackNew
    · exact hgo h

theorem State.KeepsOrder.homeStore (h : s.KeepsOrder t) {line key : Nat} {b : List Byte} {p : Bool} : s.KeepsOrder (t.homeStore line key b p) :=
  h.storeLine.same (t := t.storeLine (line * 64) key b p) rfl

theorem State.KeepsOrder.homeWrite (h : s.KeepsOrder t) {line key : Nat} {b : List Byte} {p : Bool} : s.KeepsOrder (t.homeWrite line key b p) :=
  h.homeStore.same (t := t.homeStore line key b p) rfl

theorem State.KeepsOrder.txnData (h : s.KeepsOrder t) {x : Txn} : s.KeepsOrder (t.txnData x).2 := by
  unfold State.txnData
  have hline := h.loadLine (off := x.line * 64) (slot := x.req.key)
  split
  · exact h
  · split
    · split
      · exact h
      · exact h.same rfl
    · split <;> rename_i hload <;> rw [hload] at hline <;> exact hline

theorem State.KeepsOrder.granted (h : s.KeepsOrder t) {i : Nat} {x : Txn} {m : Msg} : s.KeepsOrder (t.granted i x m) :=
  h.tell.setEnt.dlog.hpfSet.updTxn

theorem State.KeepsOrder.dirtyLine (h : s.KeepsOrder t) {off slot : Nat} {b : List Byte} {p : Bool} : s.KeepsOrder (t.dirtyLine off slot b p) := h.same rfl

theorem State.KeepsOrder.dropDirty (h : s.KeepsOrder t) {line : Nat} : s.KeepsOrder (t.dropDirty line) := h.same rfl

theorem State.KeepsOrder.finishRead (h : s.KeepsOrder t) {i : Nat} {x : Txn} : s.KeepsOrder (t.finishRead i x) := by
  unfold State.finishRead
  have hdata := h.txnData (x := x)
  split
  rename_i d u hd
  rw [hd] at hdata
  split
  · exact (keepsOrder_ite hdata.poisonLine hdata).give.endTxn
  · extract_lets ans e keepM v w
    have hv : s.KeepsOrder v := keepsOrder_ite hdata (by
      split
      · exact hdata.homeWrite
      · exact hdata)
    have hw : s.KeepsOrder w := hv.granted
    clear_value w v
    split
    · exact hv.give.endTxn
    · exact keepsOrder_ite hv.granted hv.tell.setEnt.hpfSet.endTxn
    · split
      · exact keepsOrder_ite hw.dirtyLine hw
      · exact hw.dropDirty

theorem State.KeepsOrder.finishTxn (h : s.KeepsOrder t) {i : Nat} {x : Txn} : s.KeepsOrder (t.finishTxn i x) := by
  have hdata := h.txnData (x := x)
  unfold State.finishTxn
  split
  · extract_lets u v
    have hu : s.KeepsOrder u := by
      unfold u
      split
      · exact h.homeWrite
      · exact h
    exact (keepsOrder_ite hu.coh hu.updEnt).endTxn
  · exact h.granted
  · split
    · exact h.refuseMsg.endTxn
    · split
      · exact h.refuseMsg.endTxn
      · exact h.homeWrite.dlog.coh.tell.endTxn
  · split <;> rename_i hd <;> rw [hd] at hdata
    · exact (keepsOrder_ite hdata.poisonLine hdata).refuseMsg.endTxn
    · split
      · exact hdata.refuseMsg.endTxn
      · split
        · exact hdata.refuseMsg.endTxn
        · exact hdata.homeWrite.dlog.coh.tell.endTxn
  · extract_lets u
    have hu : s.KeepsOrder u := by
      unfold u
      split
      · exact keepsOrder_ite h.homeWrite h
      · exact h
    clear_value u
    have hdata := hu.txnData (x := x)
    refine (keepsOrder_ite ?_ hu).endTxn
    split <;> rename_i hd <;> rw [hd] at hdata <;> exact hdata.give
  · extract_lets u
    have hu : s.KeepsOrder u := by
      unfold u
      split
      · exact h.storeLine
      · exact h
    exact hu.give.endTxn
  · exact h.finishRead

theorem State.KeepsOrder.settle {n : Nat} (h : s.KeepsOrder t) : s.KeepsOrder (State.settle n t) := by
  induction n generalizing t with
  | zero => exact h
  | succ n ih =>
    unfold State.settle
    split
    · exact ih (keepsOrder_ite h.finishTxn h.startTxn)
    · exact h

theorem State.KeepsOrder.homes (h : s.KeepsOrder t) : s.KeepsOrder t.homes := h.settle

/-! ### Arrivals at the home (R66, R283, R295, R296) -/

theorem State.KeepsOrder.restartNote (h : s.KeepsOrder t) {off : Nat} : s.KeepsOrder (t.restartNote off) := keepsOrder_ite h.coh h.bumpF

theorem State.KeepsOrder.edgeAnswer (h : s.KeepsOrder t) {m : Msg} : s.KeepsOrder (t.edgeAnswer m) := by
  unfold State.edgeAnswer
  extract_lets host
  clear_value host
  split
  · split
    · split
      · exact h.restartNote.tell
      · exact h.restartNote.tell
      · exact h.tell
    · exact h.refuseMsg
  · exact h.tell
  · exact (keepsOrder_ite h.restartNote h).tell
  · exact h

theorem State.KeepsOrder.accept (h : s.KeepsOrder t) {m : Msg} {home : Nat} {stake : Bool} : s.KeepsOrder (t.accept m home stake) := h.addTxn.homes

theorem State.KeepsOrder.homeRequest (h : s.KeepsOrder t) {m : Msg} : s.KeepsOrder (t.homeRequest m) := by
  unfold State.homeRequest
  extract_lets off home fromNode outside m'
  clear_value fromNode outside m'
  split
  · exact h.edgeAnswer
  · split
    · exact h.drawTicket.nackWith
    · refine keepsOrder_ite h.refuseMsg ?_
      split
      · exact h.refuseMsg
      · refine keepsOrder_ite h.refuseMsg (keepsOrder_ite h.refuseMsg ?_)
        split
        · exact h.bumpF.tell
        · refine keepsOrder_ite h.bumpF.refuseMsg (keepsOrder_ite h.refuseMsg ?_)
          split
          · exact keepsOrder_ite h.stakesDue.coh.accept h.stakesDue.freeRetry.nackWith
          · exact keepsOrder_ite h.stakesDue.accept h.stakesDue.nackNew

theorem State.KeepsOrder.addShr (h : s.KeepsOrder t) {line : Nat} {req : Msg} : s.KeepsOrder (t.addShr line req) := h.addTxn

theorem State.KeepsOrder.downgrade (h : s.KeepsOrder t) {off n key : Nat} : s.KeepsOrder (t.downgrade off n key) := (h.each fun k => k.addShr).homes

theorem State.KeepsOrder.homeNotice (h : s.KeepsOrder t) {m : Msg} : s.KeepsOrder (t.homeNotice m) := by
  unfold State.homeNotice
  extract_lets line home w cmp _ dirty m' fromNode take taken
  have htaken : s.KeepsOrder taken := by
    unfold taken take
    dsimp only
    refine keepsOrder_ite h (keepsOrder_ite h.coh ?_)
    split
    · exact h.homeWrite.dlog
    · exact h.homeStore.dlog
  change s.KeepsOrder (if _ then _ else if _ then _ else if _ then _ else if _ then taken.tell w cmp else _)
  clear_value taken fromNode m'
  refine keepsOrder_ite h.edgeAnswer (keepsOrder_ite (keepsOrder_ite h.coh h) (keepsOrder_ite h.refuseMsg (keepsOrder_ite htaken.tell ?_)))
  split
  · exact h.tell
  · refine keepsOrder_ite h.tell ?_
    extract_lets own kept dropped told noted
    have htold : s.KeepsOrder told := (keepsOrder_ite htaken.setEnt htaken.setEnt.hpfDel).tell
    have hnoted : s.KeepsOrder noted := by
      unfold noted
      split
      · exact htold.updTxn
      · exact htold
    exact hnoted.homes

theorem State.KeepsOrder.homeAnswer (h : s.KeepsOrder t) {m : Msg} : s.KeepsOrder (t.homeAnswer m) := by
  unfold State.homeAnswer
  extract_lets line home
  split
  · exact keepsOrder_ite h.coh h
  · split
    · exact h
    · split
      · exact h
      · extract_lets u key x v
        have hu : s.KeepsOrder u := h.updTxn
        have hx : s.KeepsOrder x := hu.updTxn
        clear_value x u
        have hv : s.KeepsOrder v := by
          unfold v
          split
          · split
            · exact hx.updEnt.hpfDel
            · exact hx.updEnt.hpfSet
            · exact hx.updEnt
            · exact hx
          · exact keepsOrder_ite hu.updEnt.hpfSet hu
          · exact keepsOrder_ite hu.updTxn hu.updEnt
          · exact hu.gone
          · exact hu.updEnt.hpfDel
        exact hv.homes

theorem State.KeepsOrder.homeAck (h : s.KeepsOrder t) {m : Msg} : s.KeepsOrder (t.homeAck m) := by
  unfold State.homeAck
  split
  · exact keepsOrder_ite h.endTxn.homes h
  · exact h

end

end Sys2Proof.Machine
end

section

/-!
SUPPORT. The order of the register store through the members of coherence levels 0 and 1 and the exchanges on the rings (chapter 11, log entry 30).
-/

namespace Sys2Proof.Machine

section
variable {s t u : State}

/-! ### Members' states and snoops (R276–R279) -/

theorem State.KeepsOrder.setL0 (h : s.KeepsOrder t) {l c : Nat} {x : LState} : s.KeepsOrder (t.setL0 l c x) := h.same rfl

theorem State.KeepsOrder.setL1 (h : s.KeepsOrder t) {l k : Nat} {x : LState} : s.KeepsOrder (t.setL1 l k x) := h.same rfl

theorem State.KeepsOrder.snoopCores (h : s.KeepsOrder t) {l k : Nat} {but : Option Nat} {kind : MsgKind} : s.KeepsOrder (t.snoopCores l k but kind) :=
  (keepsOrder_ite h.setL1 h).each fun k => k.setL0

theorem State.KeepsOrder.cached (h : s.KeepsOrder t) {l key : Nat} : s.KeepsOrder (t.cached l key).2.2 := by
  unfold State.cached
  have hline := h.loadLine (off := l * 64) (slot := key)
  split
  · split
    · exact h
    · exact h.same rfl
  · split <;> rename_i hload <;> rw [hload] at hline <;> exact hline

theorem State.KeepsOrder.snoopSection (h : s.KeepsOrder t) {l k : Nat} {kind : MsgKind} {own : Bool} : s.KeepsOrder (t.snoopSection l k kind own).2 :=
  h.snoopCores.setL1

theorem State.KeepsOrder.snoopMsg (h : s.KeepsOrder t) {m : Msg} {l g : Nat} {a : MsgKind} : s.KeepsOrder (t.snoopMsg m l a g).2 := by
  unfold State.snoopMsg
  dsimp only
  split
  · exact h.cached
  · exact h

theorem State.KeepsOrder.snoopReply (h : s.KeepsOrder t) {m : Msg} {l g : Nat} {a : MsgKind} : s.KeepsOrder (t.snoopReply m l a g) := h.snoopMsg.tell

/-- A list gone through with a value beside the state. -/
theorem State.KeepsOrder.foldl {α β : Type} {g : β × State → α → β × State} {as : List α} {p : β × State} {b : β} (hfold : as.foldl g p = (b, u))
    (h : s.KeepsOrder p.2) (hg : ∀ q a, s.KeepsOrder q.2 → s.KeepsOrder (g q a).2) : s.KeepsOrder u := by
  induction as generalizing p with
  | nil =>
    obtain rfl : p = (b, u) := hfold
    exact h
  | cons a as ih => exact ih hfold (hg p a h)

theorem State.KeepsOrder.askAlloy (h : s.KeepsOrder t) {but who : Who} {l : Nat} {kind : MsgKind} {req ask : Msg}
    (hask : t.askAlloy but l kind who req ask = some u) : s.KeepsOrder u := by
  unfold State.askAlloy at hask
  extract_lets i at hask
  split at hask
  rename_i asked v hsent
  have hv : s.KeepsOrder v := .foldl hsent h fun q n k => by
    split
    · exact k.send? ‹_›
    · exact k
  split at hask
  · contradiction
  · obtain rfl := Option.some.inj hask
    exact hv.addTxn

/-- The alloy is asked, or else something else is done. -/
theorem State.KeepsOrder.asked (h : s.KeepsOrder t) {p : Prop} [Decidable p] {but who : Who} {l : Nat} {kind : MsgKind} {req ask : Msg}
    (hask : (if p then none else t.askAlloy but l kind who req ask) = some u) : s.KeepsOrder u := by
  split at hask
  · contradiction
  · exact h.askAlloy hask

theorem State.KeepsOrder.snoopFabric (h : s.KeepsOrder t) {m : Msg} : s.KeepsOrder (t.snoopFabric m) := by
  unfold State.snoopFabric
  extract_lets l strong
  split
  rename_i ans v hsent
  have hv : s.KeepsOrder v := .foldl hsent h fun q k hq => hq.snoopSection
  dsimp only
  split
  · exact (keepsOrder_ite hv.snoopMsg.dropDirty hv.snoopMsg).asked ‹_›
  · exact (keepsOrder_ite hv.snoopMsg.dropDirty hv.snoopMsg).tell

theorem State.KeepsOrder.snoopArrives (h : s.KeepsOrder t) {m : Msg} : s.KeepsOrder (t.snoopArrives m) := by
  unfold State.snoopArrives
  dsimp only
  split
  · exact keepsOrder_ite h.edgeAnswer h.snoopFabric
  · exact h.snoopSection.snoopReply
  · exact (keepsOrder_ite h.setL1 h).setL0.snoopReply
  · exact h

/-! ### Requests within the block (R279) -/

theorem State.KeepsOrder.setUp (h : s.KeepsOrder t) {k : Nat} {x : UpReq} : s.KeepsOrder (t.setUp k x) := h.same rfl

theorem State.KeepsOrder.delUp (h : s.KeepsOrder t) {k : Nat} : s.KeepsOrder (t.delUp k) := h.same rfl

theorem State.KeepsOrder.waitUp (h : s.KeepsOrder t) {k : Nat} {kind : MsgKind} {m : Msg} : s.KeepsOrder (t.waitUp k kind m).2 := by
  unfold State.waitUp
  split
  · exact h
  · split
    · exact h.setUp
    · exact h.setUp

theorem State.KeepsOrder.coreRequest (h : s.KeepsOrder t) {m : Msg} {c : Nat} : s.KeepsOrder (t.coreRequest m c) := by
  unfold State.coreRequest
  extract_lets k l x strong others r up shared e held owned
  have hup : ∀ {kind}, s.KeepsOrder (up kind t) := keepsOrder_ite h.waitUp.emit h.waitUp
  have hshared : s.KeepsOrder shared := h.snoopCores
  have howned : s.KeepsOrder owned := h.snoopCores
  have hgiven : s.KeepsOrder (owned.cached l m.key).2.2 := howned.cached
  clear_value up r e shared owned
  split
  · exact keepsOrder_ite hup (keepsOrder_ite hshared.cached.tell hshared.cached.setL0.tell)
  · exact keepsOrder_ite hup (keepsOrder_ite hgiven.tell (keepsOrder_ite hgiven.setL0.tell hgiven.setL0.tell))
  · exact keepsOrder_ite hup (keepsOrder_ite hgiven.tell (keepsOrder_ite hgiven.setL0.tell hgiven.setL0.tell))
  · exact h

theorem State.KeepsOrder.sendUp (h : s.KeepsOrder t) {m : Msg} : s.KeepsOrder (t.sendUp m) := by
  unfold State.sendUp
  dsimp only
  split
  · exact (h.send? ‹_›).coh
  · split
    · exact (h.each fun k => k.tell).delUp
    · exact h

/-- The alloy is asked, or else the line's home. -/
theorem State.KeepsOrder.askAlloyOrUp (h : s.KeepsOrder t) {but who : Who} {l : Nat} {kind : MsgKind} {req ask m : Msg} :
    s.KeepsOrder ((t.askAlloy but l kind who req ask).getD (t.sendUp m)) := by
  cases hask : t.askAlloy but l kind who req ask with
  | none => exact h.sendUp
  | some u => exact h.askAlloy hask

theorem State.KeepsOrder.fabricRequest (h : s.KeepsOrder t) {m : Msg} : s.KeepsOrder (t.fabricRequest m) := by
  unfold State.fabricRequest
  extract_lets l me holds shares own asked up
  have hup : s.KeepsOrder (up t) := by
    unfold up
    dsimp only
    refine keepsOrder_ite h.waitUp (keepsOrder_ite h.waitUp.sendUp ?_)
    split
    · exact h.waitUp.askAlloyOrUp
    · exact h.waitUp.askAlloyOrUp
    · exact h.waitUp.askAlloyOrUp
    · exact h.waitUp.askAlloyOrUp
    · exact h.waitUp.sendUp
  clear_value up holds
  split
  · split
    · exact h.snoopSection.cached.tell
    · exact hup
  · split
    · exact h.snoopSection.cached.tell
    · exact hup
  · split
    · exact h.snoopSection.cached.tell
    · exact hup
  · split
    · exact h.snoopSection.cached.tell
    · exact hup
  · exact hup

theorem State.KeepsOrder.requestArrives (h : s.KeepsOrder t) {m : Msg} : s.KeepsOrder (t.requestArrives m) := by
  unfold State.requestArrives
  split
  · exact h.coreRequest
  · exact keepsOrder_ite h.homeRequest h.fabricRequest
  · exact keepsOrder_ite h.homeRequest h.fabricRequest
  · exact keepsOrder_ite h.homeNotice h.homeRequest
  · exact keepsOrder_ite h.homeRequest h.fabricRequest
  · exact h

/-! ### Grants, answers and evictions at the requester (R278, R279, R298) -/

theorem State.KeepsOrder.askAgain (h : s.KeepsOrder t) {l : List Msg} : s.KeepsOrder (t.askAgain l) :=
  h.each fun k => by
    split
    · exact k.emit
    · exact k.fabricRequest

theorem State.KeepsOrder.fabricGrant (h : s.KeepsOrder t) {l g : Nat} {m : Msg} : s.KeepsOrder (t.fabricGrant l m g) := by
  unfold State.fabricGrant
  split
  · exact h
  · extract_lets closed
    have hclosed : s.KeepsOrder closed := h.delUp
    clear_value closed
    split
    · exact hclosed
    · extract_lets lost
      split
      rename_i r v hgrant
      have hv : s.KeepsOrder v := by
        split at hgrant
        · rw [← (Prod.mk.inj hgrant).2]
          exact hclosed.cached
        · rw [← (Prod.mk.inj hgrant).2]
          exact hclosed
      extract_lets owned w _ granted
      have hw : s.KeepsOrder w := keepsOrder_ite (hv.each fun k => k.snoopSection) hv
      have hgranted : s.KeepsOrder granted := by
        unfold granted
        split
        · rename_i hask
          split at hask
          · exact hw.askAlloy hask
          · contradiction
        · exact hw.tell
      exact hgranted.askAgain

theorem State.KeepsOrder.finishAlloy (h : s.KeepsOrder t) {i : Nat} {x : Txn} : s.KeepsOrder (t.finishAlloy i x) := by
  unfold State.finishAlloy
  extract_lets _ u
  have hu : s.KeepsOrder u := h.coh
  clear_value u
  split
  · split
    · exact hu.fabricGrant
    · exact hu.sendUp
  · split
    · exact hu.fabricGrant
    · exact hu.sendUp
  · split
    · exact hu.fabricGrant
    · exact hu.sendUp
  · exact hu.tell

theorem State.KeepsOrder.alloys (h : s.KeepsOrder t) : s.KeepsOrder t.alloys := h.each fun k => k.finishAlloy

theorem State.KeepsOrder.alloyAnswer (h : s.KeepsOrder t) {m : Msg} : s.KeepsOrder (t.alloyAnswer m) := by
  unfold State.alloyAnswer
  refine keepsOrder_ite h ?_
  split
  · exact h
  · exact h.updTxn.alloys

theorem State.KeepsOrder.evictLine (h : s.KeepsOrder t) {w : Who} {l : Nat} : s.KeepsOrder (t.evictLine w l) := by
  unfold State.evictLine
  extract_lets send
  have hsend : ∀ {x u}, s.KeepsOrder u → s.KeepsOrder (send x u) := fun k => keepsOrder_ite k.cached.emit k.emit
  clear_value send
  split
  · exact keepsOrder_ite h (hsend (keepsOrder_ite h.setL1 h)).setL0
  · exact keepsOrder_ite h (hsend h.snoopCores).setL1
  · exact h

theorem State.KeepsOrder.allocate (h : s.KeepsOrder t) {l k : Nat} {lc : Bool} : s.KeepsOrder (t.allocate l k lc) := by
  unfold State.allocate
  dsimp only
  split
  · exact h.coh
  · split
    · exact (h.same (u := t.freeWord.2) rfl).evictLine.coh
    · exact h.same rfl

theorem State.KeepsOrder.keepFill (h : s.KeepsOrder t) {l g : Nat} {m : Msg} : s.KeepsOrder (t.keepFill l m g) := by
  unfold State.keepFill
  dsimp only
  split
  · refine keepsOrder_ite h.dirtyLine (keepsOrder_ite ?_ ?_) <;> exact h.same rfl
  · split
    · exact h.dirtyLine
    · exact h

theorem State.KeepsOrder.grantArrives (h : s.KeepsOrder t) {m : Msg} {g : Nat} : s.KeepsOrder (t.grantArrives m g) := by
  unfold State.grantArrives
  extract_lets l
  split
  · exact keepsOrder_ite h h.setL0
  · split
    · exact keepsOrder_ite h h.send
    · refine keepsOrder_ite (h.each fun k => k.emit).delUp ?_
      refine State.KeepsOrder.each (State.KeepsOrder.delUp ?_) fun k => ?_
      · exact keepsOrder_ite (keepsOrder_ite h.allocate h).setL1.keepFill.emit (keepsOrder_ite h.allocate h).setL1.keepFill
      · split
        · exact k.coreRequest
        · exact k
  · exact keepsOrder_ite h (keepsOrder_ite h.send h).fabricGrant
  · exact h

theorem State.KeepsOrder.cmpArrives (h : s.KeepsOrder t) {m : Msg} : s.KeepsOrder (t.cmpArrives m) := by
  unfold State.cmpArrives
  extract_lets l evicted
  have hevicted : s.KeepsOrder evicted := by
    unfold evicted
    split
    · exact keepsOrder_ite h (h.each fun k => k.tell)
    · exact h.each fun k => k.emit
  clear_value evicted
  split
  · exact keepsOrder_ite h.setL0 h
  · refine keepsOrder_ite ?_ h
    extract_lets u v
    have hv : s.KeepsOrder v := keepsOrder_ite h.setL1 h.setL1.dropDirty
    clear_value v
    split
    · exact hv.emit
    · exact hv
  · split
    · refine keepsOrder_ite ?_ hevicted
      split
      · exact h.delUp
      · exact h.delUp.tell.askAgain
    · exact hevicted
  · exact h

theorem State.KeepsOrder.failArrives (h : s.KeepsOrder t) {m : Msg} : s.KeepsOrder (t.failArrives m) := by
  unfold State.failArrives
  dsimp only
  split
  · exact h
  · split
    · exact h
    · exact (h.each fun k => k.tell).delUp

theorem State.KeepsOrder.nackArrives (h : s.KeepsOrder t) {m : Msg} : s.KeepsOrder (t.nackArrives m) := by
  unfold State.nackArrives
  dsimp only
  split
  · exact h
  · exact h.coh

theorem State.KeepsOrder.noticeArrives (h : s.KeepsOrder t) {m : Msg} : s.KeepsOrder (t.noticeArrives m) := by
  unfold State.noticeArrives
  split
  · exact h.tell
  · refine keepsOrder_ite h.homeNotice (keepsOrder_ite h.tell ?_)
    split
    · exact h.send? ‹_›
    · exact h.tell
  · exact keepsOrder_ite h.homeRequest h.homeNotice
  · refine keepsOrder_ite h.homeNotice ?_
    cases hsend : t.send? 0xFFF _ with
    | none => exact h.tell
    | some u => exact h.send? hsend
  · exact h

/-! ### Exchanges on the rings (log entry 30) -/

theorem State.KeepsOrder.takeAnswer (h : s.KeepsOrder t) {m : Msg} : s.KeepsOrder (t.takeAnswer m) := by
  unfold State.takeAnswer
  refine keepsOrder_ite h.homeAnswer ?_
  split
  · exact h.alloyAnswer
  · exact h

theorem State.KeepsOrder.withOut (h : s.KeepsOrder t) {out : List Out} : s.KeepsOrder { t with out := out } := h.same rfl

theorem State.KeepsOrder.deliver (h : s.KeepsOrder t) {m : Msg} : s.KeepsOrder (t.deliver m) := by
  have hrequest := h.requestArrives (m := m)
  have hsnoop := h.snoopArrives (m := m)
  have hnotice := h.noticeArrives (m := m)
  have hdata := h.grantArrives (m := m) (g := m.grant)
  have hgrant := h.grantArrives (m := m) (g := 3)
  have hanswer := h.takeAnswer (m := m)
  have hcmp := h.cmpArrives (m := m)
  have hack : s.KeepsOrder (if t.toHome m then t.homeAck m else t) := keepsOrder_ite h.homeAck h
  have hnack := h.nackArrives (m := m)
  have hfail := h.failArrives (m := m)
  unfold State.deliver
  split <;> assumption

theorem State.KeepsOrder.pump {k n : Nat} (h : s.KeepsOrder t) : s.KeepsOrder (State.pump k n t) := by
  induction n generalizing t with
  | zero => exact h
  | succ n ih =>
    unfold State.pump
    split
    · exact ih h.withOut.deliver
    · exact h

theorem State.KeepsOrder.downgradeAll (h : s.KeepsOrder t) {off n key : Nat} : s.KeepsOrder (t.downgradeAll off n key) := h.downgrade.pump

end

end Sys2Proof.Machine
end

section

/-!
SUPPORT. Ingots, the dirty log and the page mover (R339–R342): that the mover's run keeps the register store in order, what each command of migration
answers, and the settling of O54.
-/

namespace Sys2Proof.Machine

/-! ### The mover's run keeps the order of the register store -/

section
variable {s t u : State}

theorem State.KeepsOrder.readMixed (h : s.KeepsOrder t) {tag off n slot : Nat} : s.KeepsOrder (t.readMixed tag off n slot).2 := by
  unfold State.readMixed
  split
  · exact h.readMem
  · refine State.KeepsOrder.foldl (Prod.mk.eta).symm h fun q l hq => ?_
    dsimp only
    split
    · exact hq
    · exact hq.readMem

theorem State.KeepsOrder.moverLine (h : s.KeepsOrder t) {off dst : Nat} (hline : t.moverLine off dst = some u) : s.KeepsOrder u := by
  unfold State.moverLine at hline
  split at hline
  rename_i v w hread
  have hw : s.KeepsOrder w := by
    have hmixed := h.readMixed (tag := moverTag) (off := off) (n := 64) (slot := t.sliceKey (t.getF .SLC_XFER_CTRL_SLICE 0))
    rw [hread] at hmixed
    exact hmixed
  split at hline
  dsimp only at hline
  split at hline
  · split at hline
    · contradiction
    · obtain ⟨x, hcover, rfl⟩ := Option.map_eq_some_iff.mp hline
      exact (hw.coverStore hcover).storeLine.takeLines.dlogRange
  · exact hw.send? hline

theorem State.KeepsOrder.moverLines (h : s.KeepsOrder t) {n off dst : Nat} : s.KeepsOrder (t.moverLines n off dst).2 := by
  induction n generalizing t off dst with
  | zero => exact h
  | succ n ih =>
    unfold State.moverLines
    split
    · exact ih (h.moverLine ‹_›)
    · exact h

theorem State.KeepsOrder.moverCopy (h : s.KeepsOrder t) {i : Nat} : s.KeepsOrder (t.moverCopy i).2 := by
  unfold State.moverCopy
  extract_lets off cleared snooped
  split
  · exact h
  · have hcleared : s.KeepsOrder cleared := keepsOrder_ite h.setLogBit h
    have hsnooped : s.KeepsOrder snooped := keepsOrder_ite hcleared.downgradeAll hcleared
    clear_value snooped
    have hlines := hsnooped.moverLines (n := 64) (off := off) (dst := snooped.getF .SLC_XFER_DST_ADDR 0 * 4096 + i * 4096)
    split
    · rename_i hrun
      rw [hrun] at hlines
      exact hlines.setF
    · exact hlines

theorem State.KeepsOrder.moverRun (h : s.KeepsOrder t) {n i : Nat} : s.KeepsOrder (t.moverRun n i).2 := by
  induction n generalizing t i with
  | zero => exact h
  | succ n ih =>
    unfold State.moverRun
    have hcopy := h.moverCopy (i := i)
    split
    · rename_i hpage
      rw [hpage] at hcopy
      exact ih hcopy
    · exact hcopy

end

/-! ### SAVE_INGOT (R339) -/

section
variable {s u : State} {i : Nat} {x : Item} {e rs : List Ext} {b : List Byte}

section
variable (hlen : x.desc.argLen = 32) (hglobal : x.desc.flags.testBit 2 = false) (hblock : s.HasBlock 32 x e b rs u) (hx : s.live i 0x83 = some x)
include hlen hglobal hblock hx

theorem execSaveIngot_block : execSaveIngot i e s = .next (u.saveIngot i b) := by
  unfold execSaveIngot
  rw [hx]
  dsimp only
  rw [State.withArgs_block hlen hglobal hblock]

end

section
variable (hslice : fieldLE b 0 2 < 4096) (hdst : fieldLE b 8 8 % 64 = 0) (hzero : zeroAt b 4 4 = true) (hrest : zeroAt b 0x14 12 = true)
include hslice hdst hzero hrest

theorem State.saveIngot_args : ¬ (4096 ≤ fieldLE b 0 2 ∨ fieldLE b 8 8 % 64 ≠ 0 ∨ !zeroAt b 4 4 ∨ !zeroAt b 0x14 12) := by
  simp [hslice, hdst, hzero, hrest]

theorem State.saveIngot_unfrozen (hstate : fieldLE b 0 2 = 0 ∨ s.slcState (fieldLE b 0 2) ≠ 3 ∨ s.bitF .SLC_STATE_FREEZE_DONE (fieldLE b 0 2) = false) :
    s.saveIngot i b = s.badDesc i 8 := by
  unfold State.saveIngot
  dsimp only
  rw [if_neg (State.saveIngot_args hslice hdst hzero hrest), if_pos (by simpa using hstate)]

variable (hnz : fieldLE b 0 2 ≠ 0) (hfrozen : s.slcState (fieldLE b 0 2) = 3) (hdone : s.bitF .SLC_STATE_FREEZE_DONE (fieldLE b 0 2) = true)
include hnz hfrozen hdone

theorem State.saveIngot_unpaired (hpair : s.pairingWith (fieldLE b 2 2) = none) : s.saveIngot i b = s.badDesc i 5 := by
  unfold State.saveIngot
  dsimp only
  rw [if_neg (State.saveIngot_args hslice hdst hzero hrest), if_neg (by simp [hnz, hfrozen, hdone]), hpair]

theorem State.saveIngot_writes {p : Pairing} (hpair : s.pairingWith (fieldLE b 2 2) = some p) : s.saveIngot i b =
    (s.tdiEvent (fieldLE b 0 2)).writeIngot i (fieldLE b 0 2) (fieldLE b 2 2) (fieldLE b 8 8) (fieldLE b 0x10 4) p := by
  unfold State.saveIngot
  dsimp only
  rw [if_neg (State.saveIngot_args hslice hdst hzero hrest), if_neg (by simp [hnz, hfrozen, hdone]), hpair]

end

/-! ### RESTORE_INGOT (R342) -/

theorem execRestoreIngot_block (hlen : x.desc.argLen = 32) (hglobal : x.desc.flags.testBit 2 = false) (hblock : s.HasBlock 32 x e b rs u)
    (hx : s.live i 0x84 = some x) (chk : CryptoCheck) : execRestoreIngot i e chk s = .next (u.restoreArgs i b rs chk) := by
  unfold execRestoreIngot
  rw [hx]
  dsimp only
  rw [State.withArgs_block hlen hglobal hblock]

theorem State.restoreArgs_refused (h : 4096 ≤ fieldLE b 0 2 ∨ fieldLE b 0x10 4 < 624) (chk : CryptoCheck) : s.restoreArgs i b rs chk = s.badDesc i 5 := by
  unfold State.restoreArgs
  dsimp only
  rw [if_pos (by rcases h with h | h <;> simp [h, ingotLen])]

variable {v w : State} {g q : List Byte} {rs2 rs3 : List Ext}

theorem State.restoreArgs_read (hpos : 0 < fieldLE b 0 2) (hslice : fieldLE b 0 2 < 4096) (hzero : zeroAt b 2 6 = true) (hrest : zeroAt b 0x14 4 = true)
    (hlo : 624 ≤ fieldLE b 0x10 4) (hhi : fieldLE b 0x10 4 ≤ 0x1000000)
    (hg : u.readGuest 0 ⟨0, none, false⟩ (fieldLE b 8 8) (fieldLE b 0x10 4) rs = (.bytes g, rs2, v))
    (hq : v.readGuest 0 ⟨0, none, false⟩ (fieldLE b 0x18 8) 128 rs2 = (.bytes q, rs3, w)) (chk : CryptoCheck) :
    u.restoreArgs i b rs chk = w.restoreIngot i (fieldLE b 0 2) g (fun slot => fieldLE q (2 * slot) 2) rs3 chk := by
  have hargs : ¬ (4096 ≤ fieldLE b 0 2 ∨ !zeroAt b 2 6 ∨ !zeroAt b 0x14 4 ∨ fieldLE b 0x10 4 < ingotLen 0 0 ∨ 0x1000000 < fieldLE b 0x10 4) := by
    simp [hslice, hzero, hrest, hlo, hhi, ingotLen]
  unfold State.restoreArgs
  dsimp only
  rw [if_neg hargs, if_neg (by omega), hg]
  dsimp only
  rw [hq]

section
variable {p : Pairing} {slice : Nat} {qmap : Nat → Nat} {chk : CryptoCheck} (hpair : s.pairingWith (fieldLE b 0x0C 2) = some p)
include hpair

theorem State.restoreIngot_unproven (h : s.ingotOk b = false ∨ chk.sigOk = false ∨ chk.leaf ≠ p.leaf) :
    s.restoreIngot i slice b qmap rs chk = (s.secErr 5).badDesc i 5 := by
  unfold State.restoreIngot
  rw [hpair]
  dsimp only
  rw [if_pos (by rcases h with h | h | h <;> simp [h])]

section
variable (hok : s.ingotOk b = true) (hsig : chk.sigOk = true) (hleaf : chk.leaf = p.leaf)
include hok hsig hleaf

theorem State.restoreIngot_untargeted (htarget : s.targetOk slice (parseIngot b p qmap) = false) :
    s.restoreIngot i slice b qmap rs chk = s.badDesc i 8 := by
  simp [State.restoreIngot, hpair, hok, hsig, hleaf, htarget]

variable (htarget : s.targetOk slice (parseIngot b p qmap) = true)
include htarget

theorem State.restoreIngot_noRoom (hroom : s.placeRecords slice (parseIngot b p qmap).seqs = none) :
    s.restoreIngot i slice b qmap rs chk = s.finishItem i 1 6 none 0 := by
  simp [State.restoreIngot, hpair, hok, hsig, hleaf, htarget, hroom]

theorem State.restoreIngot_restores {room done : State} {seqs : List SeqRec} (hroom : s.placeRecords slice (parseIngot b p qmap).seqs = some room)
    (hseqs : s.copySeqs (parseIngot b p qmap).seqs rs = .ok seqs) (hdone : room.fillRecords i slice seqs = .ok done) :
    s.restoreIngot i slice b qmap rs chk =
      (((((done.each (parseIngot b p qmap).queues (fun s r => s.restoreQueue slice r)).restoreMeter slice (parseIngot b p qmap).rec_).setSlc slice 3).setF
        .SLC_STATE_FREEZE_DONE slice 1).finishOk i (BitVec.ofNat 64 seqs.length)) := by
  unfold State.restoreIngot
  rw [hpair]
  dsimp only
  rw [if_neg (by simp [hok, hsig, hleaf]), if_neg (by simp [htarget]), hroom]
  dsimp only
  rw [hseqs]
  dsimp only
  rw [hdone]

end

end

theorem State.secErrLast_secErr (s : State) : (s.secErr 5).getF .SEC_ERR_LAST 0 = 5 := by
  unfold State.secErr State.bumpF
  rw [State.getF_setF_ne _ _ _ _ _ _ (by simp)]
  exact s.getF_setF_stored (by decide) (by decide) 0

end

/-! ### The dirty log and the page mover (R340, R341) -/

section
variable {s t : State}

theorem State.moverGo_idle (h : s.bitF .SLC_XFER_CTRL_BUSY 0 = false) : s.moverGo =
    (((s.setF .SLC_XFER_CTRL_GO 0 1).setF .SLC_XFER_CTRL_BUSY 0 1).setF .SLC_XFER_CTRL_ERR 0 0).setF .SLC_XFER_DONE_PAGES 0 0 := by
  unfold State.moverGo
  rw [if_neg (by simp [h])]

/-- What GO shows of a mover that was idle. -/
theorem execPageMoverGo_starts (hr : s.regs.rising = true) (h : s.bitF .SLC_XFER_CTRL_BUSY 0 = false) : ∃ t, execPageMoverGo s = .next t ∧
    t.bitF .SLC_XFER_CTRL_BUSY 0 = true ∧ t.getF .SLC_XFER_DONE_PAGES 0 = 0 ∧ t.bitF .SLC_XFER_CTRL_ERR 0 = false ∧ t.mem = s.mem ∧ t.work = s.work := by
  refine ⟨_, congrArg Host.Outcome.next (State.moverGo_idle h), ?_, ?_, ?_, rfl, rfl⟩
  · rw [State.bitF_setF_ne _ (by decide), State.bitF_setF_ne _ (by decide)]
    exact State.bitF_setF_one (State.rising_setF hr _ _ _) (by decide) 0
  · exact State.getF_setF_same (State.rising_setF (State.rising_setF (State.rising_setF hr _ _ _) _ _ _) _ _ _) _ 0 0
  · rw [State.bitF_setF_ne _ (by decide)]
    unfold State.bitF
    rw [State.getF_setF_same (State.rising_setF (State.rising_setF hr _ _ _) _ _ _)]
    rfl

/-- What a mover that has stopped shows. -/
theorem State.shows_moverOver (hr : s.regs.rising = true) (err : Bool) : (s.moverOver err).bitF .SLC_XFER_CTRL_BUSY 0 = false ∧
    (s.moverOver err).bitF .SLC_XFER_CTRL_GO 0 = false ∧ (s.moverOver err).bitF .SLC_XFER_CTRL_ERR 0 = err := by
  have hdropped : (s.dropCurs moverTag).regs.rising = true := hr
  have hbusy := State.rising_setF hdropped .SLC_XFER_CTRL_BUSY 0 0
  unfold State.moverOver
  refine ⟨?_, ?_, ?_⟩
  · rw [State.bitF_setF_ne _ (by decide), State.bitF_setF_ne _ (by decide)]
    unfold State.bitF
    rw [State.getF_setF_same hdropped]
    rfl
  · rw [State.bitF_setF_ne _ (by decide)]
    unfold State.bitF
    rw [State.getF_setF_same hbusy]
    rfl
  · unfold State.bitF
    rw [State.getF_setF_same (State.rising_setF hbusy _ _ _)]
    cases err <;> rfl

theorem execPageMoverDone_idle (h : s.bitF .SLC_XFER_CTRL_BUSY 0 = false) (a : Ext) : execPageMoverDone a s = .next s := by
  unfold execPageMoverDone
  rw [h]
  rfl

section
variable (hbusy : s.bitF .SLC_XFER_CTRL_BUSY 0 = true)
include hbusy

/-- Lines that holders outside the block have are asked for first. -/
theorem execPageMoverDone_asks {n : Nat} (hn : n = s.getF .SLC_XFER_LEN_PAGES 0) (h : s.moverNeeds n ≠ [] ∨ s.moverHolds n ≠ []) (d : List Byte) :
    execPageMoverDone (.ok d) s = .next ((s.moverAsk (s.moverNeeds n)).askLines .wrFull 0 0 0 (s.moverHolds n)) := by
  have hneeds : ¬ (s.moverNeeds n = [] ∧ s.moverHolds n = []) := by tauto
  subst hn
  unfold execPageMoverDone
  rw [if_neg (by simp [hbusy])]
  dsimp only
  rw [if_neg hneeds]

variable (hfree : ∀ k, k ≤ s.getF .SLC_XFER_LEN_PAGES 0 → s.moverNeeds k = [] ∧ s.moverHolds k = [])
include hfree

theorem execPageMoverDone_ends (d : List Byte) : execPageMoverDone (.ok d) s =
    .next ((s.moverRun (s.getF .SLC_XFER_LEN_PAGES 0) 0).2.moverOver !(s.moverRun (s.getF .SLC_XFER_LEN_PAGES 0) 0).1) := by
  unfold execPageMoverDone
  rw [if_neg (by simp [hbusy])]
  dsimp only
  rw [if_pos (hfree _ (Nat.le_refl _))]

/-- A target that refuses stops the mover after a number of pages that is open. -/
theorem execPageMoverDone_stops {a : Ext} (ha : ∀ d, a ≠ .ok d) : ∃ n, execPageMoverDone a s = .next ((s.freeWord.2.moverRun n 0).2.moverOver true) := by
  refine ⟨s.freeWord.1.toNat % (s.getF .SLC_XFER_LEN_PAGES 0 + 1), ?_⟩
  have hnone := hfree (s.freeWord.1.toNat % (s.getF .SLC_XFER_LEN_PAGES 0 + 1)) (Nat.le_of_lt_succ (Nat.mod_lt _ (Nat.succ_pos _)))
  unfold execPageMoverDone
  rw [if_neg (by simp [hbusy])]
  dsimp only
  split
  · exact absurd rfl (ha _)
  · rw [if_pos hnone]

end

end

/-! ### The statement -/

/-- Settles O54: an ingot's commands by their argument block and the ingot, the dirty log and the mover by their BUSY bits; that the mover's bits clear
rests on its run keeping the register store in order. -/
theorem migrationCommands : Obligations.MigrationCommands := by
  intro s u i x e rs b chk hr
  refine ⟨?_, ?_, ?_, ?_, ?_, ?_, ?_, ?_⟩
  · intro hlen hglobal hblock slice
    refine ⟨fun hx hslice hdst hzero hrest => ⟨fun hstate => ?_, fun hnz hfrozen hdone => ⟨fun hpair => ?_, fun p hpair => ?_⟩⟩, fun hx => ⟨fun h => ?_, ?_⟩⟩
    · exact (execSaveIngot_block hlen hglobal hblock hx).trans (congrArg _ (State.saveIngot_unfrozen hslice hdst hzero hrest hstate))
    · exact (execSaveIngot_block hlen hglobal hblock hx).trans (congrArg _ (State.saveIngot_unpaired hslice hdst hzero hrest hnz hfrozen hdone hpair))
    · exact (execSaveIngot_block hlen hglobal hblock hx).trans (congrArg _ (State.saveIngot_writes hslice hdst hzero hrest hnz hfrozen hdone hpair))
    · exact (execRestoreIngot_block hlen hglobal hblock hx chk).trans (congrArg _ (State.restoreArgs_refused h chk))
    · intro g q rs2 rs3 v w p hpos hslice hzero hrest hlo hhi hg hq hpair c
      have hread := (execRestoreIngot_block hlen hglobal hblock hx chk).trans
        (congrArg _ (State.restoreArgs_read (i := i) hpos hslice hzero hrest hlo hhi hg hq chk))
      refine ⟨fun hbad => ⟨w.secErr 5, hread.trans (congrArg _ (State.restoreIngot_unproven hpair hbad)), w.secErrLast_secErr, rfl, rfl⟩, fun hok hsig hleaf =>
        ⟨fun htarget => ?_, fun htarget => ⟨fun hroom => ?_, fun room seqs done hroom hseqs hdone => ?_⟩⟩⟩
      · exact hread.trans (congrArg _ (State.restoreIngot_untargeted hpair hok hsig hleaf htarget))
      · exact hread.trans (congrArg _ (State.restoreIngot_noRoom hpair hok hsig hleaf htarget hroom))
      · exact hread.trans (congrArg _ (State.restoreIngot_restores hpair hok hsig hleaf htarget hroom hseqs hdone))
  · intro hen
    exact congrArg Host.Outcome.next (if_pos hen)
  · intro hen
    exact congrArg Host.Outcome.next (if_neg (by simp [hen]))
  · intro hbusy hwalks
    exact congrArg Host.Outcome.next (if_pos ⟨hbusy, by simpa using hwalks⟩)
  · intro hidle
    exact congrArg Host.Outcome.next (if_neg (by simp [hidle]))
  · intro hbusy
    exact congrArg Host.Outcome.next (if_pos hbusy)
  · exact execPageMoverGo_starts hr
  · intro a d n
    refine ⟨fun hidle => execPageMoverDone_idle hidle a, fun hbusy => ⟨fun hneeds => execPageMoverDone_asks hbusy rfl hneeds d, fun hfree => ?_⟩⟩
    by_cases ha : ∃ d, a = .ok d
    · obtain ⟨d, rfl⟩ := ha
      obtain ⟨hbusy', hgo, herr⟩ := State.shows_moverOver ((State.KeepsOrder.moverRun (.refl s) (n := n) (i := 0)).rising hr) (!(s.moverRun n 0).1)
      exact ⟨_, execPageMoverDone_ends hbusy hfree d, hbusy', hgo, fun hne => absurd rfl (hne d), fun _ => herr⟩
    · obtain ⟨k, hstops⟩ := execPageMoverDone_stops hbusy hfree (not_exists.mp ha)
      obtain ⟨hbusy', hgo, herr⟩ :=
        State.shows_moverOver ((State.KeepsOrder.moverRun (s := s) (t := s.freeWord.2) (.of_regs rfl) (n := k) (i := 0)).rising hr) true
      exact ⟨_, hstops, hbusy', hgo, fun _ => herr, fun hok => absurd ⟨d, hok⟩ ha⟩

end Sys2Proof.Machine
end
